-- ==== Sys2Proof/Word.lean ====
section
/-!
DEFINITION. The words of the ZR9: byte, half, word, dword, quad, line (R2), the vector register, and the plainest
arithmetic on them: the two readings of a 64-bit pattern (R8).
-/
namespace Sys2Proof

/-- A byte (R2). -/
abbrev Byte := BitVec 8
/-- A dword, the width of a scalar register (R2). -/
abbrev Word := BitVec 64
/-- A vector register or a handle (R79). -/
abbrev Line := BitVec 512
/-- The number of a scalar register w0..w63 (R91). -/
abbrev Reg := BitVec 6
/-- The stall count in bits 1:0 of every word (R70). -/
abbrev Stall := BitVec 2

/-- One dword from a truth value, as the compares write it (R103, R448). -/
def Word.ofBool (b : Bool) : Word := if b then 1 else 0

/-- Signed less-than on 64-bit patterns (R8). -/
def Word.slt (a b : Word) : Bool := decide (a.toInt < b.toInt)

/-- Unsigned less-than on 64-bit patterns (R8). -/
def Word.ult (a b : Word) : Bool := decide (a.toNat < b.toNat)

end Sys2Proof
end

