-- ==== Sys2Proof/Syntax.lean ====
section
/-!
DEFINITION. Erpol's instructions and the device's events as syntax: one constructor for each row of
spec/opcode_table.json, with decoded operands. Rows 0..214 are instruction words (04 R89..R114); rows 215..296 are
the events of spec/95_what_each_step_holds.md, whose operands name where the event happens and carry what the outside
supplies.
-/
namespace Sys2Proof

/-- Access sizes .b, .h, .w, .d, .q of majors 0x10..0x14 (R98). -/
inductive MSize | b | h | w | d | q
deriving DecidableEq, Repr

/-- Atomic sizes: .d is major 0x18, .w is major 0x19 (R100). -/
inductive ASize | d | w
deriving DecidableEq, Repr

/-- Scalar floating-point formats: .f64 is major 0x28, .f32 is major 0x29 (R103). -/
inductive FSize | f64 | f32
deriving DecidableEq, Repr

/-- Vector floating-point formats of majors 0x30..0x33 (R107). -/
inductive VFmt | f64 | f32 | bf16 | f16
deriving DecidableEq, Repr

/-- Vector integer element sizes, the size field of map B (R107). -/
inductive ISize | b | h | w | d
deriving DecidableEq, Repr

/-- Scopes .ctx, .tile, .clu, .die, .pkg, .sys with the codes of R43 (R211). -/
inductive Scope | ctx | tile | clu | die | pkg | sys
deriving DecidableEq, Repr

/-- What an eng field that may name either names: a parameter set or a tensor handle (R111). -/
inductive EngSrc
  | set (n : BitVec 3)
  | handle (n : BitVec 2)
deriving DecidableEq, Repr

/-- A register that carries a full/empty bit (R71): scalar, vector, mask, ticket or handle. -/
inductive RegRef
  | w (n : BitVec 6)
  | v (n : BitVec 4)
  | m (n : BitVec 3)
  | e (n : BitVec 3)
  | h (n : BitVec 2)
deriving DecidableEq, Repr

/-- A task record (R46). `uid` is the model's own name for the task, kept through re-queueing. -/
structure TaskRec where
  entry : Nat
  blk   : Nat
  lq    : Nat
  ord   : Bool
  pin   : Bool
  dir   : Bool
  res   : Bool
  ts    : Word
  tb    : BitVec 32
  ptb   : BitVec 32
  pts   : Word
  args  : List Word
  uid   : Nat
deriving DecidableEq, Repr

/-- What a host request addresses: the register windows (BAR0), device memory (BAR2), or the host's own memory
(R244, R293). -/
inductive HostBar | bar0 | bar2 | hostMem
deriving DecidableEq, Repr

/-- The AtomicOps of R297. -/
inductive HostAtomic | fetchAdd | swap | cas
deriving DecidableEq, Repr

/-- Completion statuses of PCI Express: Successful Completion, Unsupported Request, Completer Abort (R299, R323). -/
inductive HostStatus | sc | ur | ca
deriving DecidableEq, Repr

/-- A memory access that another package makes here over Causeway (R301). -/
inductive RemoteOp
  | load (k : Nat)
  | store (data : List Byte)
  | atomic (order : Nat) (k : Nat) (val : Word)
  | cas (k : Nat) (cmp : Nat) (new : Nat)
deriving DecidableEq, Repr

/-- The instructions and events of the ZR9, one constructor per row of the opcode table. -/
inductive Instr
  /-- R348: Writes the 64-bit sum of two registers and passes on the symbolic tag of a single tagged operand. -/
  | add (d a b : Reg) (sc : Stall)
  /-- R464: Writes the 64-bit difference a − b, keeping a's tag when only a is tagged. -/
  | sub (d a b : Reg) (sc : Stall)
  /-- R350: Writes the bitwise AND of two registers. -/
  | and (d a b : Reg) (sc : Stall)
  /-- R350: Writes the bitwise OR of two registers. -/
  | or (d a b : Reg) (sc : Stall)
  /-- R350: Writes the bitwise XOR of two registers. -/
  | xor (d a b : Reg) (sc : Stall)
  /-- R446: Shifts left by b[5:0]. -/
  | sll (d a b : Reg) (sc : Stall)
  /-- R446: Shifts right logically by b[5:0]. -/
  | srl (d a b : Reg) (sc : Stall)
  /-- R446: Shifts right arithmetically by b[5:0]. -/
  | sra (d a b : Reg) (sc : Stall)
  /-- R434: Rotates left by b[5:0]. -/
  | rol (d a b : Reg) (sc : Stall)
  /-- R434: Rotates right by b[5:0]. -/
  | ror (d a b : Reg) (sc : Stall)
  /-- R448: Writes 1 if a < b signed, otherwise 0, and records a constraint when an operand is tagged. -/
  | slt (d a b : Reg) (sc : Stall)
  /-- R448: Writes 1 if a < b unsigned, otherwise 0, and records a constraint when an operand is tagged. -/
  | sltu (d a b : Reg) (sc : Stall)
  /-- R415: Writes the signed lesser of two registers. -/
  | min (d a b : Reg) (sc : Stall)
  /-- R415: Writes the signed greater of two registers. -/
  | max (d a b : Reg) (sc : Stall)
  /-- R415: Writes the unsigned lesser of two registers. -/
  | minu (d a b : Reg) (sc : Stall)
  /-- R415: Writes the unsigned greater of two registers. -/
  | maxu (d a b : Reg) (sc : Stall)
  /-- R424: Writes the low 64 bits of the product. -/
  | mul (d a b : Reg) (sc : Stall)
  /-- R424: Writes the high 64 bits of the signed product. -/
  | mulh (d a b : Reg) (sc : Stall)
  /-- R424: Writes the high 64 bits of the unsigned product. -/
  | mulhu (d a b : Reg) (sc : Stall)
  /-- R376: Writes the signed quotient rounded toward zero, with defined results for a zero divisor and overflow. -/
  | div (d a b : Reg) (sc : Stall)
  /-- R376: Writes the unsigned quotient, all ones for a zero divisor. -/
  | divu (d a b : Reg) (sc : Stall)
  /-- R376: Writes the signed remainder, with defined results for a zero divisor and overflow. -/
  | rem (d a b : Reg) (sc : Stall)
  /-- R376: Writes the unsigned remainder, a for a zero divisor. -/
  | remu (d a b : Reg) (sc : Stall)
  /-- R363: Counts leading zero bits, giving 64 for zero. -/
  | clz (d a : Reg) (sc : Stall)
  /-- R363: Counts trailing zero bits, giving 64 for zero. -/
  | ctz (d a : Reg) (sc : Stall)
  /-- R363: Counts set bits. -/
  | cpop (d a : Reg) (sc : Stall)
  /-- R443: Sign-extends from a byte. -/
  | sextB (d a : Reg) (sc : Stall)
  /-- R443: Sign-extends from a half. -/
  | sextH (d a : Reg) (sc : Stall)
  /-- R443: Sign-extends from a word. -/
  | sextW (d a : Reg) (sc : Stall)
  /-- R443: Zero-extends from a byte. -/
  | zextB (d a : Reg) (sc : Stall)
  /-- R443: Zero-extends from a half. -/
  | zextH (d a : Reg) (sc : Stall)
  /-- R443: Zero-extends from a word. -/
  | zextW (d a : Reg) (sc : Stall)
  /-- R349: Adds a sign-extended 12-bit immediate and passes on the tag of a. -/
  | addi (d a : Reg) (imm : BitVec 12) (sc : Stall)
  /-- R351: ANDs with a sign-extended immediate. -/
  | andi (d a : Reg) (imm : BitVec 12) (sc : Stall)
  /-- R351: ORs with a sign-extended immediate. -/
  | ori (d a : Reg) (imm : BitVec 12) (sc : Stall)
  /-- R351: XORs with a sign-extended immediate. -/
  | xori (d a : Reg) (imm : BitVec 12) (sc : Stall)
  /-- R449: Sets d to 1 if a is below the immediate, signed. -/
  | slti (d a : Reg) (imm : BitVec 12) (sc : Stall)
  /-- R449: Sets d to 1 if a is below the sign-extended immediate, unsigned. -/
  | sltiu (d a : Reg) (imm : BitVec 12) (sc : Stall)
  /-- R447: Shifts left by an immediate amount. -/
  | slli (d a : Reg) (sh : BitVec 6) (sc : Stall)
  /-- R447: Shifts right logically by an immediate amount. -/
  | srli (d a : Reg) (sh : BitVec 6) (sc : Stall)
  /-- R447: Shifts right arithmetically by an immediate amount. -/
  | srai (d a : Reg) (sh : BitVec 6) (sc : Stall)
  /-- R380: Extracts a bit field and zero-extends it. -/
  | ext (d a : Reg) (pos len1 : BitVec 6) (sc : Stall)
  /-- R380: Extracts a bit field and sign-extends it. -/
  | exts (d a : Reg) (pos len1 : BitVec 6) (sc : Stall)
  /-- R406: Inserts the low bits of a into a field of d. -/
  | ins (d a : Reg) (pos len1 : BitVec 6) (sc : Stall)
  /-- R414: Writes the 18-bit immediate shifted left by 12 and sign-extended from 30 bits. -/
  | lui (d : Reg) (imm : BitVec 18) (sc : Stall)
  /-- R414: Shifts d left by 16 and ORs in a 16-bit immediate. -/
  | lsi (d : Reg) (imm : BitVec 16) (sc : Stall)
  /-- R410: Loads a byte, half, word, dword or quad at a + size·imm6, sign-extending narrow sizes. -/
  | ld (sz : MSize) (d a : Reg) (imm6 : BitVec 6) (sc : Stall)
  /-- R410: Loads a byte, half or word and zero-extends it. -/
  | ldU (sz : MSize) (d a : Reg) (imm6 : BitVec 6) (sc : Stall)
  /-- R214: Loads as an acquire at the given scope. -/
  | ldAcq (sz : MSize) (d a : Reg) (imm6 : BitVec 6) (scope : Scope) (sc : Stall)
  /-- R411: Loads a word or dword and, in a repair-eligible ordered task, records a symbolic load and tags d. -/
  | ldS (sz : MSize) (d a : Reg) (imm6 : BitVec 6) (sc : Stall)
  /-- R99: Loads a dword at a + a sign-extended 12-bit byte offset. -/
  | ldDLong (d a : Reg) (imm : BitVec 12) (sc : Stall)
  /-- R460: Stores the low size bytes of d, or the pair d, d+1 at .q, at a + size·imm6. -/
  | st (sz : MSize) (d a : Reg) (imm6 : BitVec 6) (sc : Stall)
  /-- R215: Stores as a release at the given scope. -/
  | stRel (sz : MSize) (d a : Reg) (imm6 : BitVec 6) (scope : Scope) (sc : Stall)
  /-- R460: Stores and writes the rest of its line as zero, clearing the line's poison. -/
  | stClr (sz : MSize) (d a : Reg) (imm6 : BitVec 6) (sc : Stall)
  /-- R99: Stores a dword at a + a sign-extended 12-bit byte offset. -/
  | stDLong (d a : Reg) (imm : BitVec 12) (sc : Stall)
  /-- R345: Atomically adds b to memory at a and returns the old value. -/
  | aadd (wd : ASize) (d a b : Reg) (scope : Scope) (sc : Stall)
  /-- R345: Atomically swaps b into memory at a and returns the old value. -/
  | aswap (wd : ASize) (d a b : Reg) (scope : Scope) (sc : Stall)
  /-- R345: Atomically ANDs b into memory and returns the old value. -/
  | aand (wd : ASize) (d a b : Reg) (scope : Scope) (sc : Stall)
  /-- R345: Atomically ORs b into memory and returns the old value. -/
  | aor (wd : ASize) (d a b : Reg) (scope : Scope) (sc : Stall)
  /-- R345: Atomically XORs b into memory and returns the old value. -/
  | axor (wd : ASize) (d a b : Reg) (scope : Scope) (sc : Stall)
  /-- R345: Atomically stores the signed greater of memory and b and returns the old value. -/
  | amax (wd : ASize) (d a b : Reg) (scope : Scope) (sc : Stall)
  /-- R345: Atomically stores the signed lesser of memory and b and returns the old value. -/
  | amin (wd : ASize) (d a b : Reg) (scope : Scope) (sc : Stall)
  /-- R345: Atomically stores the unsigned greater of memory and b and returns the old value. -/
  | amaxu (wd : ASize) (d a b : Reg) (scope : Scope) (sc : Stall)
  /-- R360: Compares the dword at a with d, writes b on equality, and returns the old value in d. -/
  | casD (d a b : Reg) (scope : Scope) (sc : Stall)
  /-- R360: Compares the 16 bytes at a with the pair d, d+1 indivisibly, writes the pair b, b+1 on equality, and returns the old pair. -/
  | casQ (d a b : Reg) (scope : Scope) (sc : Stall)
  /-- R356: Branches when a equals b, recording a constraint if an operand is tagged. -/
  | beq (a b : Reg) (off : BitVec 12) (sc : Stall)
  /-- R356: Branches when a differs from b. -/
  | bne (a b : Reg) (off : BitVec 12) (sc : Stall)
  /-- R356: Branches when a is below b, signed. -/
  | blt (a b : Reg) (off : BitVec 12) (sc : Stall)
  /-- R356: Branches when a is at least b, signed. -/
  | bge (a b : Reg) (off : BitVec 12) (sc : Stall)
  /-- R407: Jumps to a pc-relative word offset. -/
  | j (off : BitVec 24) (sc : Stall)
  /-- R407: Jumps and writes the return offset to lk. -/
  | jal (off : BitVec 24) (sc : Stall)
  /-- R408: Jumps to a + imm, writing the return offset to d, and traps on a misaligned target. -/
  | jalr (d a : Reg) (imm : BitVec 12) (sc : Stall)
  /-- R451: Sends an ordered child task record at a pc-relative offset, with timestamp d and the spawner's a0..a3 and hint. -/
  | spawn (d : Reg) (imm : BitVec 18) (sc : Stall)
  /-- R451: Sends a free child task record, held to commit in an ordered task. -/
  | spawnf (imm : BitVec 18) (sc : Stall)
  /-- R466: Ends the task: an ordered task becomes Finished and a free task Done, and the slot and workspace are freed. -/
  | tdone (sc : Stall)
  /-- R467: Aborts the ordered task as Gone, killing its children and applying its undo log. -/
  | tabort (sc : Stall)
  /-- R468: Suspends the task, keeping its workspace, and re-queues it as a resumable record. -/
  | tyield (sc : Stall)
  /-- R451: Sends an ordered child at the code offset in a with the timestamp in b. -/
  | spawnr (a b : Reg) (sc : Stall)
  /-- R451: Sends a free child at the code offset in a. -/
  | spawnfr (a : Reg) (sc : Stall)
  /-- R371: Declares an INT64 commutative range for the launch. -/
  | crdeclD (a b : Reg) (sc : Stall)
  /-- R371: Declares an FP32 commutative range for the launch. -/
  | crdeclF32 (a b : Reg) (sc : Stall)
  /-- R371: Declares an FP64 commutative range for the launch. -/
  | crdeclF64 (a b : Reg) (sc : Stall)
  /-- R368: Adds b into the exact partial of a commutative-range element at the slice, putting the line in state P. -/
  | cradd (a b : Reg) (sc : Stall)
  /-- R427: Takes an element from a pool indivisibly at the header's home, trapping on exhaustion. -/
  | poolget (d a : Reg) (sc : Stall)
  /-- R427: Takes an element from a pool and returns 0 when it is empty. -/
  | poolgetNf (d a : Reg) (sc : Stall)
  /-- R427: Returns an element to the pool's free list, held to commit in an ordered task. -/
  | poolput (a b : Reg) (sc : Stall)
  /-- R383: Adds two FP64 or FP32 values, correctly rounded under psw.rm. -/
  | fadd (f : FSize) (d a b : Reg) (sc : Stall)
  /-- R383: Subtracts two FP values, correctly rounded. -/
  | fsub (f : FSize) (d a b : Reg) (sc : Stall)
  /-- R383: Multiplies two FP values, correctly rounded. -/
  | fmul (f : FSize) (d a b : Reg) (sc : Stall)
  /-- R383: Divides two FP values, correctly rounded. -/
  | fdiv (f : FSize) (d a b : Reg) (sc : Stall)
  /-- R398: Writes the correctly rounded square root. -/
  | fsqrt (f : FSize) (d a : Reg) (sc : Stall)
  /-- R396: Writes the lesser FP operand, with −0 below +0 and a single NaN ignored. -/
  | fmin (f : FSize) (d a b : Reg) (sc : Stall)
  /-- R396: Writes the greater FP operand, with −0 below +0 and a single NaN ignored. -/
  | fmax (f : FSize) (d a b : Reg) (sc : Stall)
  /-- R395: Writes a·b + d, rounded once. -/
  | fmadd (f : FSize) (d a b : Reg) (sc : Stall)
  /-- R395: Writes a·b − d, rounded once. -/
  | fmsub (f : FSize) (d a b : Reg) (sc : Stall)
  /-- R395: Writes d − a·b, rounded once. -/
  | fnmadd (f : FSize) (d a b : Reg) (sc : Stall)
  /-- R394: Writes 1 if the FP operands are equal, 0 otherwise or on a NaN. -/
  | feq (f : FSize) (d a b : Reg) (sc : Stall)
  /-- R394: Writes 1 if a < b in FP. -/
  | flt (f : FSize) (d a b : Reg) (sc : Stall)
  /-- R394: Writes 1 if a ≤ b in FP. -/
  | fle (f : FSize) (d a b : Reg) (sc : Stall)
  /-- R389: Writes the one-hot class mask of an FP pattern. -/
  | fclass (f : FSize) (d a : Reg) (sc : Stall)
  /-- R381: Inverts the sign bit only. -/
  | fneg (f : FSize) (d a : Reg) (sc : Stall)
  /-- R381: Clears the sign bit only. -/
  | fabs (f : FSize) (d a : Reg) (sc : Stall)
  /-- R391: Converts a scalar between FP and integer formats under psw.rm, saturating to integers. -/
  | fcvt (dst src : BitVec 3) (d a : Reg) (sc : Stall)
  /-- R492: Clears the 67 dwords of a wide accumulator. -/
  | waclr (d : Reg) (sc : Stall)
  /-- R492: Adds the exact product of two finite FP64 values into a wide accumulator. -/
  | wadd (d a b : Reg) (sc : Stall)
  /-- R492: Adds the exact sum of eight FP64 element products into a wide accumulator. -/
  | waddv (d : Reg) (va vb : BitVec 4) (sc : Stall)
  /-- R492: Writes the sign of a wide accumulator as −1, 0 or 1. -/
  | wsgn (d a : Reg) (sc : Stall)
  /-- R492: Writes a wide accumulator rounded once to FP64. -/
  | wrnd (d a : Reg) (sc : Stall)
  /-- R474: Adds the selected FP vector elements, rounded under psw.rm. -/
  | vaddFp (f : VFmt) (vd va vb : BitVec 4) (m : BitVec 3) (sc : Stall)
  /-- R474: Subtracts the selected FP vector elements. -/
  | vsubFp (f : VFmt) (vd va vb : BitVec 4) (m : BitVec 3) (sc : Stall)
  /-- R474: Multiplies the selected FP vector elements. -/
  | vmulFp (f : VFmt) (vd va vb : BitVec 4) (m : BitVec 3) (sc : Stall)
  /-- R482: Writes va·vb + vc per selected element, rounded once. -/
  | vfma (f : VFmt) (vd va vb vc : BitVec 4) (m : BitVec 3) (sc : Stall)
  /-- R482: Writes va·vb − vc per selected element, rounded once. -/
  | vfms (f : VFmt) (vd va vb vc : BitVec 4) (m : BitVec 3) (sc : Stall)
  /-- R480: Divides the selected FP vector elements, correctly rounded, with a variable-latency result. -/
  | vdiv (f : VFmt) (vd va vb : BitVec 4) (m : BitVec 3) (sc : Stall)
  /-- R480: Writes the square roots of the selected FP vector elements. -/
  | vsqrt (f : VFmt) (vd va : BitVec 4) (m : BitVec 3) (sc : Stall)
  /-- R474: Writes the FP minimum per selected element. -/
  | vminFp (f : VFmt) (vd va vb : BitVec 4) (m : BitVec 3) (sc : Stall)
  /-- R474: Writes the FP maximum per selected element. -/
  | vmaxFp (f : VFmt) (vd va vb : BitVec 4) (m : BitVec 3) (sc : Stall)
  /-- R474: Clears the sign bit of the selected FP elements. -/
  | vabsFp (f : VFmt) (vd va : BitVec 4) (m : BitVec 3) (sc : Stall)
  /-- R474: Inverts the sign bit of the selected FP elements. -/
  | vnegFp (f : VFmt) (vd va : BitVec 4) (m : BitVec 3) (sc : Stall)
  /-- R477: Writes a mask of FP equality of the selected elements. -/
  | vcmpeqFp (f : VFmt) (md : BitVec 3) (va vb : BitVec 4) (m : BitVec 3) (sc : Stall)
  /-- R477: Writes a mask of FP less-than of the selected elements. -/
  | vcmpltFp (f : VFmt) (md : BitVec 3) (va vb : BitVec 4) (m : BitVec 3) (sc : Stall)
  /-- R477: Writes a mask of FP less-or-equal of the selected elements. -/
  | vcmple (f : VFmt) (md : BitVec 3) (va vb : BitVec 4) (m : BitVec 3) (sc : Stall)
  /-- R488: Sums the selected FP elements in the fixed pairwise tree into element 0. -/
  | vredsumFp (f : VFmt) (vd va : BitVec 4) (m : BitVec 3) (sc : Stall)
  /-- R488: Reduces the selected FP elements to their minimum in element 0. -/
  | vredmin (f : VFmt) (vd va : BitVec 4) (m : BitVec 3) (sc : Stall)
  /-- R488: Reduces the selected FP elements to their maximum in element 0. -/
  | vredmax (f : VFmt) (vd va : BitVec 4) (m : BitVec 3) (sc : Stall)
  /-- R474: Adds the selected integer elements, wrapping. -/
  | vaddInt (sz : ISize) (vd va vb : BitVec 4) (m : BitVec 3) (sc : Stall)
  /-- R474: Subtracts the selected integer elements, wrapping. -/
  | vsubInt (sz : ISize) (vd va vb : BitVec 4) (m : BitVec 3) (sc : Stall)
  /-- R474: Writes the low bits of the integer element products. -/
  | vmulInt (sz : ISize) (vd va vb : BitVec 4) (m : BitVec 3) (sc : Stall)
  /-- R474: Writes the signed integer minimum per selected element. -/
  | vminInt (sz : ISize) (vd va vb : BitVec 4) (m : BitVec 3) (sc : Stall)
  /-- R474: Writes the signed integer maximum per selected element. -/
  | vmaxInt (sz : ISize) (vd va vb : BitVec 4) (m : BitVec 3) (sc : Stall)
  /-- R474: Writes the unsigned integer minimum per selected element. -/
  | vminu (sz : ISize) (vd va vb : BitVec 4) (m : BitVec 3) (sc : Stall)
  /-- R474: Writes the unsigned integer maximum per selected element. -/
  | vmaxu (sz : ISize) (vd va vb : BitVec 4) (m : BitVec 3) (sc : Stall)
  /-- R475: ANDs the selected vector elements. -/
  | vand (sz : ISize) (vd va vb : BitVec 4) (m : BitVec 3) (sc : Stall)
  /-- R475: ORs the selected vector elements. -/
  | vor (sz : ISize) (vd va vb : BitVec 4) (m : BitVec 3) (sc : Stall)
  /-- R475: XORs the selected vector elements. -/
  | vxor (sz : ISize) (vd va vb : BitVec 4) (m : BitVec 3) (sc : Stall)
  /-- R490: Shifts the selected elements left by the low bits of vb. -/
  | vsll (sz : ISize) (vd va vb : BitVec 4) (m : BitVec 3) (sc : Stall)
  /-- R490: Shifts the selected elements right logically. -/
  | vsrl (sz : ISize) (vd va vb : BitVec 4) (m : BitVec 3) (sc : Stall)
  /-- R490: Shifts the selected elements right arithmetically. -/
  | vsra (sz : ISize) (vd va vb : BitVec 4) (m : BitVec 3) (sc : Stall)
  /-- R477: Writes a mask of integer equality. -/
  | vcmpeqInt (sz : ISize) (md : BitVec 3) (va vb : BitVec 4) (m : BitVec 3) (sc : Stall)
  /-- R477: Writes a mask of signed integer less-than. -/
  | vcmpltInt (sz : ISize) (md : BitVec 3) (va vb : BitVec 4) (m : BitVec 3) (sc : Stall)
  /-- R477: Writes a mask of unsigned integer less-than. -/
  | vcmpltu (sz : ISize) (md : BitVec 3) (va vb : BitVec 4) (m : BitVec 3) (sc : Stall)
  /-- R488: Sums the selected integer elements into element 0, wrapping. -/
  | vredsumInt (sz : ISize) (vd va : BitVec 4) (m : BitVec 3) (sc : Stall)
  /-- R474: Writes the wrapped absolute value of the selected integer elements. -/
  | vabsInt (sz : ISize) (vd va : BitVec 4) (m : BitVec 3) (sc : Stall)
  /-- R474: Writes the wrapped negation of the selected integer elements. -/
  | vnegInt (sz : ISize) (vd va : BitVec 4) (m : BitVec 3) (sc : Stall)
  /-- R479: Converts one part of a vector between element formats, optionally saturating. -/
  | vcvt (src dst : BitVec 4) (part : BitVec 3) (sat : Bool) (vd va : BitVec 4) (m : BitVec 3) (sc : Stall)
  /-- R489: Shuffles dword elements of va by the indices in vb. -/
  | vshufD (vd va vb : BitVec 4) (m : BitVec 3) (sc : Stall)
  /-- R489: Shuffles word elements of va by the indices in vb. -/
  | vshufW (vd va vb : BitVec 4) (m : BitVec 3) (sc : Stall)
  /-- R489: Shuffles byte elements of va by the indices in vb. -/
  | vshufB (vd va vb : BitVec 4) (m : BitVec 3) (sc : Stall)
  /-- R489: Selects each dword from va or vb by the mask. -/
  | vselD (vd va vb : BitVec 4) (m : BitVec 3) (sc : Stall)
  /-- R489: Selects each word from va or vb by the mask. -/
  | vselW (vd va vb : BitVec 4) (m : BitVec 3) (sc : Stall)
  /-- R476: Broadcasts a scalar dword into the selected elements. -/
  | vbcastD (vd : BitVec 4) (ws : Reg) (m : BitVec 3) (sc : Stall)
  /-- R476: Broadcasts a scalar word into the selected elements. -/
  | vbcastW (vd : BitVec 4) (ws : Reg) (m : BitVec 3) (sc : Stall)
  /-- R481: Writes dword element k of va to a scalar register. -/
  | vextD (ws : Reg) (va k : BitVec 4) (sc : Stall)
  /-- R481: Writes word element k of va, sign-extended, to a scalar register. -/
  | vextW (ws : Reg) (va k : BitVec 4) (sc : Stall)
  /-- R481: Writes a scalar into dword element k of vd. -/
  | vinsD (vd : BitVec 4) (ws : Reg) (k : BitVec 4) (sc : Stall)
  /-- R481: Writes a scalar word into word element k of vd. -/
  | vinsW (vd : BitVec 4) (ws : Reg) (k : BitVec 4) (sc : Stall)
  /-- R486: ANDs two masks. -/
  | vmand (md ma mb : BitVec 3) (sc : Stall)
  /-- R486: ORs two masks. -/
  | vmor (md ma mb : BitVec 3) (sc : Stall)
  /-- R486: XORs two masks. -/
  | vmxor (md ma mb : BitVec 3) (sc : Stall)
  /-- R486: Inverts a mask. -/
  | vmnot (md ma : BitVec 3) (sc : Stall)
  /-- R486: Writes a scalar register into a mask. -/
  | vmput (md : BitVec 3) (ws : Reg) (sc : Stall)
  /-- R486: Writes a mask into a scalar register. -/
  | vmget (ws : Reg) (ma : BitVec 3) (sc : Stall)
  /-- R487: Copies the selected dwords of va into vd. -/
  | vmov (vd va : BitVec 4) (m : BitVec 3) (sc : Stall)
  /-- R484: Loads 64 aligned bytes into a vector register as eight dword loads. -/
  | vld (vd : BitVec 4) (ws : Reg) (sc : Stall)
  /-- R484: Stores the selected dword elements of vd. -/
  | vstD (vd : BitVec 4) (ws : Reg) (m : BitVec 3) (sc : Stall)
  /-- R484: Stores the selected word elements of vd. -/
  | vstW (vd : BitVec 4) (ws : Reg) (m : BitVec 3) (sc : Stall)
  /-- R484: Stores the selected byte elements of vd. -/
  | vstB (vd : BitVec 4) (ws : Reg) (m : BitVec 3) (sc : Stall)
  /-- R257: Requests the cluster's Reedbed lease for the context. -/
  | mlease (e : BitVec 3) (sc : Stall)
  /-- R416: Releases the Reedbed lease once the context's earlier commands are complete. -/
  | mrel (e : BitVec 3) (sc : Stall)
  /-- R418: Installs the tile's Reedbed format word and activation-scale address. -/
  | mfmt (e : BitVec 3) (a b : Reg) (set : BitVec 3) (sc : Stall)
  /-- R419: Installs the tile's Reedbed geometry K and N. -/
  | mgeo (e : BitVec 3) (a : Reg) (set : BitVec 3) (sc : Stall)
  /-- R421: Fills the shadow plane with weights and zero flags. -/
  | mloadw (e : BitVec 3) (a b : Reg) (set : BitVec 3) (sc : Stall)
  /-- R263: Exchanges the active and shadow planes once earlier loads and streams are complete. -/
  | mswap (e : BitVec 3) (sc : Stall)
  /-- R423: Streams activation rows through the active plane and adds the column sums into the accumulator window. -/
  | mstream (e : BitVec 3) (a b : Reg) (src : EngSrc) (sc : Stall)
  /-- R416: Completes when every earlier Reedbed command of the tile is complete. -/
  | mdrain (e : BitVec 3) (sc : Stall)
  /-- R400: Heron gathers indexed table rows into block scratchpad. -/
  | gather (e : BitVec 3) (a b : Reg) (src : EngSrc) (sc : Stall)
  /-- R440: Heron scatters scratchpad rows to indexed table rows. -/
  | scatter (e : BitVec 3) (a b : Reg) (src : EngSrc) (sc : Stall)
  /-- R440: Heron adds scratchpad rows into indexed table rows as commutative-range adds. -/
  | scatterAdd (e : BitVec 3) (a b : Reg) (src : EngSrc) (sc : Stall)
  /-- R403: Loads a 64-byte descriptor from memory into a tensor handle. -/
  | hset (a : Reg) (h : BitVec 2) (sc : Stall)
  /-- R403: Stores a tensor handle's 64-byte descriptor to memory. -/
  | hget (a : Reg) (h : BitVec 2) (sc : Stall)
  /-- R405: Moves rows of a handle's matrix into a dense scratchpad image. -/
  | hld (e : BitVec 3) (a b : Reg) (h : BitVec 2) (sc : Stall)
  /-- R405: Writes a dense scratchpad image into the positions of a handle's matrix. -/
  | hst (e : BitVec 3) (a b : Reg) (h : BitVec 2) (sc : Stall)
  /-- R365: Lode copies one run of bytes. -/
  | cpy (e : BitVec 3) (a b : Reg) (set : BitVec 3) (sc : Stall)
  /-- R365: Lode copies n1 strided runs. -/
  | cpy2 (e : BitVec 3) (a b : Reg) (set : BitVec 3) (sc : Stall)
  /-- R365: Lode copies n2 × n1 strided runs. -/
  | cpy3 (e : BitVec 3) (a b : Reg) (set : BitVec 3) (sc : Stall)
  /-- R386: Waits until a ticket's command is complete, delivering a fault or the promise-missed trap. -/
  | fwait (e : BitVec 3) (sc : Stall)
  /-- R386: Writes 1 if a ticket's command is complete, otherwise 0. -/
  | ftest (e : BitVec 3) (a : Reg) (sc : Stall)
  /-- R386: Requests cancellation of a ticket's command without waiting. -/
  | fcancel (e : BitVec 3) (sc : Stall)
  /-- R397: Copies a ticket register into a scalar register. -/
  | fpassRead (e : BitVec 3) (a : Reg) (sc : Stall)
  /-- R397: Copies a scalar register into a ticket register. -/
  | fpassWrite (e : BitVec 3) (a : Reg) (sc : Stall)
  /-- R170: Brings a range of scratchpad pages Resident. -/
  | spmap (e : BitVec 3) (a b : Reg) (sc : Stall)
  /-- R170: Makes a range of scratchpad pages Unmapped and releases their frames. -/
  | spfree (e : BitVec 3) (a b : Reg) (sc : Stall)
  /-- R170: Brings pages Resident and pins them, or unpins them. -/
  | sppin (e : BitVec 3) (a b : Reg) (sc : Stall)
  /-- R168: Starts migrating the issuing task's block to another tile of the tile set. -/
  | spmig (e : BitVec 3) (a : Reg) (sc : Stall)
  /-- R170: Writes dirty pages of a range to their Peat slots and leaves them Resident and clean. -/
  | spflush (e : BitVec 3) (a b : Reg) (sc : Stall)
  /-- R436: Binds a stream port to an address generator. -/
  | sbind (port : BitVec 2) (a b : Reg) (sc : Stall)
  /-- R436: Unbinds a stream port after finishing its binding. -/
  | sfree (port : BitVec 2) (sc : Stall)
  /-- R432: Binds the context's qin source and qout target directions. -/
  | qbind (a : Reg) (sc : Stall)
  /-- R217: Orders the context's earlier thread accesses before its later ones at a scope. -/
  | fence (scope : Scope) (sc : Stall)
  /-- R228: Orders thread accesses and engine commands of the context at a scope. -/
  | fenceX (scope : Scope) (sc : Stall)
  /-- R223: Arrives at a barrier, releasing it when full, and waits for the release. -/
  | bar (scope : Scope) (a : Reg) (sc : Stall)
  /-- R224: Registers the task with an elastic barrier, raising expected. -/
  | barjoin (scope : Scope) (a : Reg) (sc : Stall)
  /-- R224: Unregisters from an elastic barrier, lowering expected and releasing if it is then met. -/
  | barleave (scope : Scope) (a : Reg) (sc : Stall)
  /-- R494: Waits, as a memory wait, until the dword at a differs from b. -/
  | wait (scope : Scope) (a b : Reg) (sc : Stall)
  /-- R430: Declares a publication region, or closes its phase by merging the dies' private copies. -/
  | publish (scope : Scope) (a : Reg) (sc : Stall)
  /-- R373: Reads a CSR into d. -/
  | csrr (d : Reg) (csr : BitVec 10) (sc : Stall)
  /-- R373: Writes a into a CSR under its field access codes. -/
  | csrw (csr : BitVec 10) (a : Reg) (sc : Stall)
  /-- R373: Sets the bits of a in the RW fields of a CSR. -/
  | csrs (csr : BitVec 10) (a : Reg) (sc : Stall)
  /-- R373: Clears the bits of a in the RW fields of a CSR. -/
  | csrc (csr : BitVec 10) (a : Reg) (sc : Stall)
  /-- R425: Takes one issue turn and does nothing else. -/
  | nop (sc : Stall)
  /-- R282: Returns from the innermost trap level, restoring pc and psw except elig. -/
  | eret (sc : Stall)
  /-- R470: Raises the user trap with the value of a as the trap word. -/
  | trap (a : Reg) (sc : Stall)
  /-- R497: Exchanges the workspace page the slot runs from, returning the old page address. -/
  | wpsw (d a : Reg) (sc : Stall)
  /-- R444: Leaves the rotation asleep until a wake event, unless a wake is pending. -/
  | sleep (sc : Stall)
  /-- R358: Raises the breakpoint trap. -/
  | brk (sc : Stall)
  /-- R285: The system context enters the next trap waiting in its 16-entry queue once it runs no handler. -/
  | systemTrapEnter (tile : Nat)
  /-- R71: A variable-latency result lands in its task's workspace register and sets it full. -/
  | resultArrive (uid : Nat) (reg : RegRef)
  /-- R82: A forward deposit lands in the next slot's forward-in at the end of the cycle after the write. -/
  | fwdDepositLand (tile slot : Nat) (val : Word)
  /-- R84: A pushed dword lands in the neighbour's inbound queue, counting as qrecv and waking sleepers. -/
  | queueDwordLand (tile dir : Nat) (val : Word) (lq : Nat)
  /-- R81: A fetched-ahead stream element arrives for an in-bound port. -/
  | streamElementArrive (tile slot port : Nat)
  /-- R78: A workspace finishes moving into or out of the thread-context store. -/
  | workspaceMoveDone (tile slot : Nat)
  /-- R55: A tile chooses a queued task for a free user context, assigning its tiebreaker and setting up its workspace. -/
  | taskDispatch (tile : Nat)
  /-- R57: A task record arrives at a tile and enters its task queue or is spilled to the spill pool. -/
  | taskRecordArrive (tile : Nat) (rec : TaskRec)
  /-- R57: A record waiting at a tile's inbound port enters the queue once it holds fewer than 256 records. -/
  | inboundRecordAdmit (tile : Nat)
  /-- R57: The system context replays spilled records into the queue once it falls to 192 or fewer. -/
  | spillReplay (tile : Nat)
  /-- R58: Every 256 package cycles a tile exchanges occupancy samples with its neighbours and moves records. -/
  | balance (tile : Nat)
  /-- R59: Every 128 package cycles a Sluice round samples each tile's contributions per launch. -/
  | sluiceSample
  /-- R60: A round's broadcast Gvt and sums arrive at a tile, driving commit, kills, deferred faults and launch end. -/
  | sluiceBroadcast (round tile : Nat)
  /-- R56: Every 10 µs the launch's activity budgets restart and deferred service work resumes. -/
  | budgetPeriod
  /-- R196: Wisp repairs a conflicted task by re-reading its symbols, checking constraints and rewriting stores and spawns. -/
  | wispRepair (uid : Nat)
  /-- R165: A page-in finishes, the page becomes Resident and the waiting access replays, or a failure is delivered. -/
  | pageInDone (blk page : Nat)
  /-- R168: A Remote page finishes moving to the block's current tile. -/
  | pagePullDone (blk page : Nat)
  /-- R168: Once every context of a Stopping block has halted, its workspaces move and ownership passes to the target. -/
  | blockMove (blk : Nat)
  /-- R251: An engine command registers four cycles after issue and writes its ticket to e. -/
  | ticketRegister (tile entry : Nat)
  /-- R251: An engine command completes, faults or is cancelled, freeing its entry and unlocking its ranges. -/
  | commandComplete (tile entry : Nat)
  /-- R254: The package counter reaches a waited ticket's promise and FWAIT raises the promise-missed trap. -/
  | promiseDue (tile slot : Nat)
  /-- R257: The Reedbed grants a queued lease request. -/
  | leaseGrant (cluster : Nat)
  /-- R258: A lease is renewed or re-queued after its 64th command or 4,096 cycles. -/
  | leaseRearbitrate (cluster : Nat)
  /-- R287: A context's slice count reaches the launch's time slice. -/
  | sliceExpiry (tile slot : Nat)
  /-- R288: Halts a context and re-queues its task as a resumable record once no waiting condition holds. -/
  | preempt (tile slot : Nat)
  /-- R88: The island controller gates a tile idle or asleep for 10 µs. -/
  | tilePowerGate (tile : Nat)
  /-- R88: A gated tile wakes on an inbound dword, record, ticket, barrier release or frame access. -/
  | tileWake (tile : Nat)
  /-- R304: Every 1 µs the current arbiter sets each island's clock step and applies pending power modes. -/
  | powerInterval (reports : List Nat)
  /-- R37: Writing map = 1 loads the queue's state from its save area and maps it. -/
  | lqctlMap (q : Nat)
  /-- R37: Writing map = 0 stores the queue's state in its save area and unmaps it. -/
  | lqctlUnmap (q : Nat)
  /-- R35: Writes a queue's producer index, or sets badn when it runs too far ahead. -/
  | lqnotify (q : Nat) (tail : BitVec 16)
  /-- R36: A queue checks its head record and starts the launch once block numbers are free. -/
  | launchStart (q : Nat)
  /-- R243: Writing go starts a host fence. -/
  | hfgo
  /-- R243: A host fence completes and seq increases. -/
  | hostFenceDone
  /-- R296: Writing xinvc starts a translation invalidation, or holds it behind a running one. -/
  | xinvc (die : Nat) (value : Word)
  /-- R159: A translation invalidation completes and sets done. -/
  | xinvDone (die : Nat)
  /-- R307: Writing go starts an attestation report on the supplied nonce. -/
  | atreqGo
  /-- R307: The signed attestation report is written and atdone is set. -/
  | attestDone
  /-- R152: A tile applies a requested SRAM split once it holds no block of a running launch. -/
  | spcfgApply (tile : Nat)
  /-- R5: A write to a device register without a step of its own sets its fields by their access codes. -/
  | registerWrite (off : Nat) (value : Word)
  /-- R242: A host read through BAR0 or BAR2 is performed by its service core. -/
  | hostRead (bar : HostBar) (off width : Nat)
  /-- R242: A posted host write through BAR0 or BAR2 is performed by its service core. -/
  | hostWrite (bar : HostBar) (off : Nat) (data : List Byte)
  /-- R323: A host AtomicOp to BAR2 is performed at the home slice as a .sys atomic. -/
  | hostAtomicop (bar : HostBar) (op : HostAtomic) (off width value cmp : Nat)
  /-- R298: A host CXL.mem access to device memory is performed at the line's home directory. -/
  | cxlMemAccess (pa width : Nat) (data : Option Nat)
  /-- R298: A host snoop of a memory-type-1 line is handled as an Inv or FwdX. -/
  | cxlSnoop (line : Nat) (excl : Bool)
  /-- R299: A PCI Express AtomicOp completion returns the old value or raises protection. -/
  | atomicopCompletion (req : Nat) (status : HostStatus) (old : Nat)
  /-- R238: The home directory receives a ReadS request. -/
  | reads (die line : Nat)
  /-- R238: The home directory receives a ReadX request. -/
  | readx (die line : Nat)
  /-- R238: The home directory receives an Upgrade request. -/
  | upgrade (die line : Nat)
  /-- R238: The home directory receives a WriteBack with data. -/
  | writeback (die line : Nat)
  /-- R238: The home receives forwarded data from an owner. -/
  | fwddata (die line : Nat)
  /-- R238: The home receives FwdNone from a die that no longer holds the line. -/
  | fwdnone (die line : Nat)
  /-- R238: The home receives an invalidation acknowledgement. -/
  | invack (die line : Nat)
  /-- R237: A die L2 receives Data(S) and takes the line shared. -/
  | dataS (die line : Nat)
  /-- R237: A die L2 receives Data(E) and takes the line exclusive. -/
  | dataE (die line : Nat)
  /-- R237: A die L2 receives Data(M), takes the line modified and performs the waiting write. -/
  | dataM (die line : Nat)
  /-- R237: A die L2 in SM receives UpgAck and performs the write. -/
  | upgack (die line : Nat)
  /-- R237: A die L2 receives Inv, removes its L1 copies and answers InvAck. -/
  | inv (die line : Nat)
  /-- R237: A die L2 receives FwdS and answers with FwdData or FwdNone. -/
  | fwds (die line : Nat)
  /-- R237: A die L2 receives FwdX, answers and invalidates. -/
  | fwdx (die line : Nat)
  /-- R237: A die L2 in MI receives WbAck and goes to I. -/
  | wback (die line : Nat)
  /-- R241: After 20 µs of failed invalidation retries the home poisons the line and the writer takes a data-lost machine check. -/
  | invRetryTimeout (line : Nat)
  /-- R301: A Causeway request unacknowledged for 100 µs raises a kind-7 machine check. -/
  | causewayTimeout (req : Nat)
  /-- R302: A remote free-spawn record arrives at the target package and is queued or refused. -/
  | remoteSpawnArrive (node asid : Nat) (rec : TaskRec)
  /-- R302: The target's acknowledgement of a remote spawn counts it received on the spawning package. -/
  | remoteSpawnAck (lq : Nat)
  /-- R302: A target's refusal raises the protection trap in the spawning launch's system context. -/
  | remoteSpawnRefuse (lq node : Nat)
  /-- R6: Power-on reset sets every register to its reset value and clears the node number. -/
  | powerOnReset
  /-- R6: A package reset by firmware sets reset values and keeps kept fields. -/
  | packageReset
  /-- R309: Firmware sets full, ending the reduced service and making queues 4..63 startable. -/
  | fullServiceStart
  /-- R32: Firmware retires a faulty tile, ending any running launch with a kind-4 machine check. -/
  | tileRetire (tile : Nat)
  /-- R290: Both bridge routes between two base dies fail, ending every running launch. -/
  | bridgeFailure (bd0 bd1 : Nat)
  /-- R290: An uncorrectable thread-context store error ends the owning launch. -/
  | tcsUncorrectable (tile slot : Nat)
  /-- R173: An uncorrectable HBM4 error poisons the line. -/
  | hbmUncorrectable (line : Nat)
  /-- R290: An uncorrectable error in a dirty L2 line poisons it. -/
  | l2Uncorrectable (die line : Nat)
  /-- R290: An uncorrectable L1 error invalidates the line. -/
  | l1Uncorrectable (tile asid vline : Nat)
  /-- R165: An uncorrectable frame error poisons the scratchpad page. -/
  | frameUncorrectable (tile frame : Nat)
  /-- R301: A remote memory access from another package arrives over Causeway and is performed at this package's home as a .sys access. -/
  | remoteAccessArrive (node pa : Nat) (op : RemoteOp)
  /-- R241: A single die bridge link fails, so that invalidations must go over the alternate bridge route and the home may enter F. -/
  | dieLinkFailure (bd0 bd1 : Nat)
  /-- R210: A store, or the write half of an atomic, is taken and acknowledged by its L2 slice, frame or uncached target and so becomes performed. -/
  | storeAcknowledge (id : Nat)
  /-- R235: The home finishes collecting and merging the dies' private copies, invalidates the copies, advances phase and completes the PUBLISH. -/
  | publishComplete (tile slot : Nat)
  /-- R371: The invalidation of a declared range's L1 copies and the installing of the declaration at every L2 slice complete, ending the CRDECL wait. -/
  | crdeclInForce (lq base : Nat)
  /-- R292: The host link enters or leaves CXL operation, changing whether memory-type-1 pages are reachable. -/
  | cxlOperationChange (on : Bool)
deriving DecidableEq, Repr

end Sys2Proof
end

