-- ==== Sys2Proof/WellFormed.lean ====
section
/-!
DEFINITION. Which instructions the words of Erpol can name: the register, size, code and CSR limits that R94 and the
entries of the reference check at decode. A well-formed instruction has an encoding; an ill-formed term has none.
-/
namespace Sys2Proof

/-- w48..w54, the port registers (R79). -/
def Reg.isPort (r : Reg) : Bool := decide (48 ≤ r.toNat) && decide (r.toNat ≤ 54)

/-- The lower register of a pair: even and at most 46 (R98, R100). -/
def Reg.isPair (r : Reg) : Bool := r.toNat % 2 == 0 && decide (r.toNat ≤ 46)

/-- At .q the register names a pair (R98). -/
def MSize.pairOk (sz : MSize) (d : Reg) : Bool := match sz with
  | .q => Reg.isPair d
  | .b | .h | .w | .d => true

/-- The sizes of LD.u: .b, .h and .w (R98). -/
def MSize.narrow : MSize → Bool
  | .b | .h | .w => true
  | .d | .q => false

/-- The sizes of LD.S: .w and .d (R98). -/
def MSize.symbolic : MSize → Bool
  | .w | .d => true
  | .b | .h | .q => false

/-- PUBLISH takes .pkg and .sys only (R112). -/
def Scope.publishes : Scope → Bool
  | .pkg | .sys => true
  | .ctx | .tile | .clu | .die => false

/-- EXT, EXTS and INS: pos + len is at most 64, with len = len1 + 1 (R97). -/
def fieldFits (pos len1 : BitVec 6) : Bool := decide (pos.toNat + len1.toNat + 1 ≤ 64)

/-- FCVT: the codes differ and are not both integer codes (R104). -/
def fcvtLegal (dst src : BitVec 3) : Bool := dst != src && !(decide (4 ≤ dst.toNat) && decide (4 ≤ src.toNat))

/-- Widths in bits of the VCVT format codes 0..10; zero for the codes that name no format (R478). -/
def vcvtWidth (code : Nat) : Nat :=
  match code with
  | 0 => 64 | 1 => 32 | 2 => 16 | 3 => 16 | 4 => 8 | 5 => 8 | 6 => 4 | 7 => 8 | 8 => 8 | 9 => 32 | 10 => 64
  | _ => 0

/-- VCVT's decode rule (R108, R478). -/
def vcvtLegal (src dst : BitVec 4) (part : BitVec 3) (sat : Bool) : Bool :=
  let ws := vcvtWidth src.toNat
  let wd := vcvtWidth dst.toNat
  decide (src.toNat ≤ 10) && decide (dst.toNat ≤ 10) && dst.toNat != 7 && dst != src
    && decide (part.toNat < Nat.max ws wd / Nat.min ws wd)
    && !(sat && decide (src.toNat ≤ 7) && decide (8 ≤ dst.toNat))

/-- The numbers the CSR map lists (R113, R375). -/
def csrListed (n : BitVec 10) : Bool :=
  decide (n.toNat ≤ 0x009) || (decide (0x010 ≤ n.toNat) && decide (n.toNat ≤ 0x01F))
    || (decide (0x100 ≤ n.toNat) && decide (n.toNat ≤ 0x1FF))

/-- The decode checks of R94 on an instruction's own fields; an event carries no word to check. -/
def Instr.wellFormed : Instr → Bool
  | .add _ _ _ _ => true
  | .sub _ _ _ _ => true
  | .and _ _ _ _ => true
  | .or _ _ _ _ => true
  | .xor _ _ _ _ => true
  | .sll _ _ _ _ => true
  | .srl _ _ _ _ => true
  | .sra _ _ _ _ => true
  | .rol _ _ _ _ => true
  | .ror _ _ _ _ => true
  | .slt _ _ _ _ => true
  | .sltu _ _ _ _ => true
  | .min _ _ _ _ => true
  | .max _ _ _ _ => true
  | .minu _ _ _ _ => true
  | .maxu _ _ _ _ => true
  | .mul _ _ _ _ => true
  | .mulh _ _ _ _ => true
  | .mulhu _ _ _ _ => true
  | .div _ _ _ _ => true
  | .divu _ _ _ _ => true
  | .rem _ _ _ _ => true
  | .remu _ _ _ _ => true
  | .clz _ _ _ => true
  | .ctz _ _ _ => true
  | .cpop _ _ _ => true
  | .sextB _ _ _ => true
  | .sextH _ _ _ => true
  | .sextW _ _ _ => true
  | .zextB _ _ _ => true
  | .zextH _ _ _ => true
  | .zextW _ _ _ => true
  | .addi _ _ _ _ => true
  | .andi _ _ _ _ => true
  | .ori _ _ _ _ => true
  | .xori _ _ _ _ => true
  | .slti _ _ _ _ => true
  | .sltiu _ _ _ _ => true
  | .slli _ _ _ _ => true
  | .srli _ _ _ _ => true
  | .srai _ _ _ _ => true
  | .ext _ _ pos len1 _ => Sys2Proof.fieldFits pos len1
  | .exts _ _ pos len1 _ => Sys2Proof.fieldFits pos len1
  | .ins _ _ pos len1 _ => Sys2Proof.fieldFits pos len1
  | .lui _ _ _ => true
  | .lsi _ _ _ => true
  | .ld sz d _ _ _ => sz.pairOk d
  | .ldU sz _ _ _ _ => sz.narrow
  | .ldAcq sz d _ _ _ _ => sz.pairOk d
  | .ldS sz _ _ _ _ => sz.symbolic
  | .ldDLong _ _ _ _ => true
  | .st sz d _ _ _ => sz.pairOk d
  | .stRel sz d _ _ _ _ => sz.pairOk d
  | .stClr sz d _ _ _ => sz.pairOk d
  | .stDLong _ _ _ _ => true
  | .aadd _ _ _ _ _ _ => true
  | .aswap _ _ _ _ _ _ => true
  | .aand _ _ _ _ _ _ => true
  | .aor _ _ _ _ _ _ => true
  | .axor _ _ _ _ _ _ => true
  | .amax _ _ _ _ _ _ => true
  | .amin _ _ _ _ _ _ => true
  | .amaxu _ _ _ _ _ _ => true
  | .casD d _ _ _ _ => !Reg.isPort d
  | .casQ d _ b _ _ => Reg.isPair d && Reg.isPair b
  | .beq _ _ _ _ => true
  | .bne _ _ _ _ => true
  | .blt _ _ _ _ => true
  | .bge _ _ _ _ => true
  | .j _ _ => true
  | .jal _ _ => true
  | .jalr _ _ _ _ => true
  | .spawn _ _ _ => true
  | .spawnf _ _ => true
  | .tdone _ => true
  | .tabort _ => true
  | .tyield _ => true
  | .spawnr _ _ _ => true
  | .spawnfr _ _ => true
  | .crdeclD _ _ _ => true
  | .crdeclF32 _ _ _ => true
  | .crdeclF64 _ _ _ => true
  | .cradd _ _ _ => true
  | .poolget _ _ _ => true
  | .poolgetNf _ _ _ => true
  | .poolput _ _ _ => true
  | .fadd _ _ _ _ _ => true
  | .fsub _ _ _ _ _ => true
  | .fmul _ _ _ _ _ => true
  | .fdiv _ _ _ _ _ => true
  | .fsqrt _ _ _ _ => true
  | .fmin _ _ _ _ _ => true
  | .fmax _ _ _ _ _ => true
  | .fmadd _ _ _ _ _ => true
  | .fmsub _ _ _ _ _ => true
  | .fnmadd _ _ _ _ _ => true
  | .feq _ _ _ _ _ => true
  | .flt _ _ _ _ _ => true
  | .fle _ _ _ _ _ => true
  | .fclass _ _ _ _ => true
  | .fneg _ _ _ _ => true
  | .fabs _ _ _ _ => true
  | .fcvt dst src _ _ _ => Sys2Proof.fcvtLegal dst src
  | .waclr _ _ => true
  | .wadd _ _ _ _ => true
  | .waddv _ _ _ _ => true
  | .wsgn _ _ _ => true
  | .wrnd _ _ _ => true
  | .vaddFp _ _ _ _ _ _ => true
  | .vsubFp _ _ _ _ _ _ => true
  | .vmulFp _ _ _ _ _ _ => true
  | .vfma _ _ _ _ _ _ _ => true
  | .vfms _ _ _ _ _ _ _ => true
  | .vdiv _ _ _ _ _ _ => true
  | .vsqrt _ _ _ _ _ => true
  | .vminFp _ _ _ _ _ _ => true
  | .vmaxFp _ _ _ _ _ _ => true
  | .vabsFp _ _ _ _ _ => true
  | .vnegFp _ _ _ _ _ => true
  | .vcmpeqFp _ _ _ _ _ _ => true
  | .vcmpltFp _ _ _ _ _ _ => true
  | .vcmple _ _ _ _ _ _ => true
  | .vredsumFp _ _ _ _ _ => true
  | .vredmin _ _ _ _ _ => true
  | .vredmax _ _ _ _ _ => true
  | .vaddInt _ _ _ _ _ _ => true
  | .vsubInt _ _ _ _ _ _ => true
  | .vmulInt _ _ _ _ _ _ => true
  | .vminInt _ _ _ _ _ _ => true
  | .vmaxInt _ _ _ _ _ _ => true
  | .vminu _ _ _ _ _ _ => true
  | .vmaxu _ _ _ _ _ _ => true
  | .vand _ _ _ _ _ _ => true
  | .vor _ _ _ _ _ _ => true
  | .vxor _ _ _ _ _ _ => true
  | .vsll _ _ _ _ _ _ => true
  | .vsrl _ _ _ _ _ _ => true
  | .vsra _ _ _ _ _ _ => true
  | .vcmpeqInt _ _ _ _ _ _ => true
  | .vcmpltInt _ _ _ _ _ _ => true
  | .vcmpltu _ _ _ _ _ _ => true
  | .vredsumInt _ _ _ _ _ => true
  | .vabsInt _ _ _ _ _ => true
  | .vnegInt _ _ _ _ _ => true
  | .vcvt src dst part sat _ _ _ _ => Sys2Proof.vcvtLegal src dst part sat
  | .vshufD _ _ _ _ _ => true
  | .vshufW _ _ _ _ _ => true
  | .vshufB _ _ _ _ _ => true
  | .vselD _ _ _ _ _ => true
  | .vselW _ _ _ _ _ => true
  | .vbcastD _ _ _ _ => true
  | .vbcastW _ _ _ _ => true
  | .vextD _ _ k _ => decide (k.toNat < 8)
  | .vextW _ _ _ _ => true
  | .vinsD _ _ k _ => decide (k.toNat < 8)
  | .vinsW _ _ _ _ => true
  | .vmand _ _ _ _ => true
  | .vmor _ _ _ _ => true
  | .vmxor _ _ _ _ => true
  | .vmnot _ _ _ => true
  | .vmput _ _ _ => true
  | .vmget _ _ _ => true
  | .vmov _ _ _ _ => true
  | .vld _ _ _ => true
  | .vstD _ _ _ _ => true
  | .vstW _ _ _ _ => true
  | .vstB _ _ _ _ => true
  | .mlease _ _ => true
  | .mrel _ _ => true
  | .mfmt _ _ _ _ _ => true
  | .mgeo _ _ _ _ => true
  | .mloadw _ _ _ _ _ => true
  | .mswap _ _ => true
  | .mstream _ _ _ _ _ => true
  | .mdrain _ _ => true
  | .gather _ _ _ _ _ => true
  | .scatter _ _ _ _ _ => true
  | .scatterAdd _ _ _ _ _ => true
  | .hset _ _ _ => true
  | .hget _ _ _ => true
  | .hld _ _ _ _ _ => true
  | .hst _ _ _ _ _ => true
  | .cpy _ _ _ _ _ => true
  | .cpy2 _ _ _ _ _ => true
  | .cpy3 _ _ _ _ _ => true
  | .fwait _ _ => true
  | .ftest _ _ _ => true
  | .fcancel _ _ => true
  | .fpassRead _ _ _ => true
  | .fpassWrite _ _ _ => true
  | .spmap _ _ _ _ => true
  | .spfree _ _ _ _ => true
  | .sppin _ _ _ _ => true
  | .spmig _ _ _ => true
  | .spflush _ _ _ _ => true
  | .sbind _ _ _ _ => true
  | .sfree _ _ => true
  | .qbind _ _ => true
  | .fence _ _ => true
  | .fenceX _ _ => true
  | .bar _ _ _ => true
  | .barjoin _ _ _ => true
  | .barleave _ _ _ => true
  | .wait _ _ _ _ => true
  | .publish scope _ _ => scope.publishes
  | .csrr _ csr _ => Sys2Proof.csrListed csr
  | .csrw csr _ _ => Sys2Proof.csrListed csr
  | .csrs csr _ _ => Sys2Proof.csrListed csr
  | .csrc csr _ _ => Sys2Proof.csrListed csr
  | .nop _ => true
  | .eret _ => true
  | .trap _ _ => true
  | .wpsw _ _ _ => true
  | .sleep _ => true
  | .brk _ => true
  | .systemTrapEnter _ => true
  | .resultArrive _ _ => true
  | .fwdDepositLand _ _ _ => true
  | .queueDwordLand _ _ _ _ => true
  | .streamElementArrive _ _ _ => true
  | .workspaceMoveDone _ _ => true
  | .taskDispatch _ => true
  | .taskRecordArrive _ _ => true
  | .inboundRecordAdmit _ => true
  | .spillReplay _ => true
  | .balance _ => true
  | .sluiceSample => true
  | .sluiceBroadcast _ _ => true
  | .budgetPeriod => true
  | .wispRepair _ => true
  | .pageInDone _ _ => true
  | .pagePullDone _ _ => true
  | .blockMove _ => true
  | .ticketRegister _ _ => true
  | .commandComplete _ _ => true
  | .promiseDue _ _ => true
  | .leaseGrant _ => true
  | .leaseRearbitrate _ => true
  | .sliceExpiry _ _ => true
  | .preempt _ _ => true
  | .tilePowerGate _ => true
  | .tileWake _ => true
  | .powerInterval _ => true
  | .lqctlMap _ => true
  | .lqctlUnmap _ => true
  | .lqnotify _ _ => true
  | .launchStart _ => true
  | .hfgo => true
  | .hostFenceDone => true
  | .xinvc _ _ => true
  | .xinvDone _ => true
  | .atreqGo => true
  | .attestDone => true
  | .spcfgApply _ => true
  | .registerWrite _ _ => true
  | .hostRead _ _ _ => true
  | .hostWrite _ _ _ => true
  | .hostAtomicop _ _ _ _ _ _ => true
  | .cxlMemAccess _ _ _ => true
  | .cxlSnoop _ _ => true
  | .atomicopCompletion _ _ _ => true
  | .reads _ _ => true
  | .readx _ _ => true
  | .upgrade _ _ => true
  | .writeback _ _ => true
  | .fwddata _ _ => true
  | .fwdnone _ _ => true
  | .invack _ _ => true
  | .dataS _ _ => true
  | .dataE _ _ => true
  | .dataM _ _ => true
  | .upgack _ _ => true
  | .inv _ _ => true
  | .fwds _ _ => true
  | .fwdx _ _ => true
  | .wback _ _ => true
  | .invRetryTimeout _ => true
  | .causewayTimeout _ => true
  | .remoteSpawnArrive _ _ _ => true
  | .remoteSpawnAck _ => true
  | .remoteSpawnRefuse _ _ => true
  | .powerOnReset => true
  | .packageReset => true
  | .fullServiceStart => true
  | .tileRetire _ => true
  | .bridgeFailure _ _ => true
  | .tcsUncorrectable _ _ => true
  | .hbmUncorrectable _ => true
  | .l2Uncorrectable _ _ => true
  | .l1Uncorrectable _ _ _ => true
  | .frameUncorrectable _ _ => true
  | .remoteAccessArrive _ _ _ => true
  | .dieLinkFailure _ _ => true
  | .storeAcknowledge _ => true
  | .publishComplete _ _ => true
  | .crdeclInForce _ _ => true
  | .cxlOperationChange _ => true

end Sys2Proof
end

