-- ==== Sys2Proof/Decode.lean ====
section
/-!
DEFINITION. Decoding and encoding of Erpol words: the formats of R90, the maps of R95..R114 with the unused-field rule
of R93, as a total function that rejects every other word by name (R94), and after it the encoder written from the
same tables.
-/
namespace Sys2Proof

/-- Why a word is rejected (R94); every reason raises the illegal-instruction trap. -/
inductive Reject
  /-- A reserved major opcode (R95). -/
  | reservedMajor
  /-- A reserved value of fn, cmd, order or a format code. -/
  | reservedMinor
  /-- A reserved value of eng, scope, a port number, an element index or a CSR number. -/
  | reservedValue
  /-- A register the instruction does not accept. -/
  | badRegister
  /-- A nonzero unused field (R93). -/
  | unusedField
  /-- Fewer than four bytes: no word. -/
  | truncated
deriving DecidableEq, Repr

/-! ## Fields of the formats (R90) -/
def fOp (x : BitVec 32) : BitVec 6 := x.extractLsb' 26 6
def fD (x : BitVec 32) : Reg := x.extractLsb' 20 6
def fA (x : BitVec 32) : Reg := x.extractLsb' 14 6
def fB (x : BitVec 32) : Reg := x.extractLsb' 8 6
def fFn (x : BitVec 32) : BitVec 6 := x.extractLsb' 2 6
def fSc (x : BitVec 32) : Stall := x.extractLsb' 0 2
def fImm12 (x : BitVec 32) : BitVec 12 := x.extractLsb' 2 12
def fLo6 (x : BitVec 32) : BitVec 6 := x.extractLsb' 2 6
def fImm18 (x : BitVec 32) : BitVec 18 := x.extractLsb' 2 18
def fImm16 (x : BitVec 32) : BitVec 16 := x.extractLsb' 2 16
def fImm18Hi (x : BitVec 32) : BitVec 2 := x.extractLsb' 18 2
def fOff24 (x : BitVec 32) : BitVec 24 := x.extractLsb' 2 24
def fScopeBits (x : BitVec 32) : BitVec 3 := x.extractLsb' 5 3
def fOrder (x : BitVec 32) : BitVec 3 := x.extractLsb' 2 3
def fFnHi (x : BitVec 32) : BitVec 3 := x.extractLsb' 5 3
def fFnLo (x : BitVec 32) : BitVec 3 := x.extractLsb' 2 3
def fVd (x : BitVec 32) : BitVec 4 := x.extractLsb' 22 4
def fVa (x : BitVec 32) : BitVec 4 := x.extractLsb' 18 4
def fVb (x : BitVec 32) : BitVec 4 := x.extractLsb' 14 4
def fVc (x : BitVec 32) : BitVec 4 := x.extractLsb' 10 4
def fM (x : BitVec 32) : BitVec 3 := x.extractLsb' 7 3
def fVfn (x : BitVec 32) : BitVec 5 := x.extractLsb' 2 5
def fVfn4 (x : BitVec 32) : BitVec 1 := x.extractLsb' 6 1
def fPart (x : BitVec 32) : BitVec 3 := x.extractLsb' 3 3
def fSat (x : BitVec 32) : Bool := x.getLsbD 2
def fMd (x : BitVec 32) : BitVec 3 := x.extractLsb' 22 3
def fMa (x : BitVec 32) : BitVec 3 := x.extractLsb' 18 3
def fMb (x : BitVec 32) : BitVec 3 := x.extractLsb' 14 3
def fVd3 (x : BitVec 32) : BitVec 1 := x.extractLsb' 25 1
def fVa3 (x : BitVec 32) : BitVec 1 := x.extractLsb' 21 1
def fVb3 (x : BitVec 32) : BitVec 1 := x.extractLsb' 17 1
def fVbHi (x : BitVec 32) : BitVec 2 := x.extractLsb' 16 2
def fVcHi (x : BitVec 32) : BitVec 2 := x.extractLsb' 12 2
/-- ws stands in bits 15:10 (R109). -/
def fWs (x : BitVec 32) : Reg := x.extractLsb' 10 6
def fE (x : BitVec 32) : BitVec 3 := x.extractLsb' 23 3
def fEHi (x : BitVec 32) : BitVec 1 := x.extractLsb' 25 1
def fPort (x : BitVec 32) : BitVec 2 := x.extractLsb' 23 2
def fCmd (x : BitVec 32) : BitVec 5 := x.extractLsb' 18 5
def fCa (x : BitVec 32) : Reg := x.extractLsb' 12 6
def fCb (x : BitVec 32) : Reg := x.extractLsb' 6 6
def fEng (x : BitVec 32) : BitVec 4 := x.extractLsb' 2 4
def fEngHi (x : BitVec 32) : BitVec 1 := x.extractLsb' 5 1
def fEngH (x : BitVec 32) : BitVec 2 := x.extractLsb' 4 2
def fSet (x : BitVec 32) : BitVec 3 := x.extractLsb' 2 3
def fH (x : BitVec 32) : BitVec 2 := x.extractLsb' 2 2
def fCsrOp (x : BitVec 32) : BitVec 2 := x.extractLsb' 12 2
def fCsr (x : BitVec 32) : BitVec 10 := x.extractLsb' 2 10

/-! ## Codes of the operand sets -/
def MSize.code : MSize → BitVec 6
  | .b => 0 | .h => 1 | .w => 2 | .d => 3 | .q => 4
def ASize.code : ASize → BitVec 6
  | .d => 0 | .w => 1
def FSize.code : FSize → BitVec 6
  | .f64 => 0 | .f32 => 1
def VFmt.code : VFmt → BitVec 6
  | .f64 => 0 | .f32 => 1 | .bf16 => 2 | .f16 => 3
/-- Map B's size code, the vc field with its high bits zero (R107). -/
def ISize.bits : ISize → BitVec 4
  | .b => 0 | .h => 1 | .w => 2 | .d => 3
def ISize.ofBits (x : BitVec 2) : ISize :=
  match x.toNat with
  | 0 => .b | 1 => .h | 2 => .w | _ => .d
/-- The scope codes of R43. -/
def Scope.bits : Scope → BitVec 3
  | .ctx => 0 | .tile => 1 | .clu => 2 | .die => 3 | .pkg => 4 | .sys => 5
def Scope.ofBits (x : BitVec 3) : Option Scope :=
  match x.toNat with
  | 0 => some .ctx | 1 => some .tile | 2 => some .clu | 3 => some .die | 4 => some .pkg | 5 => some .sys
  | _ => none
/-- The eng field of a command that takes a set or a handle (R111). -/
def EngSrc.bits : EngSrc → BitVec 4
  | .set n => n.setWidth 4
  | .handle n => 2#2 ++ n
def fISz (x : BitVec 32) : ISize := ISize.ofBits (x.extractLsb' 10 2)
def fSrc (x : BitVec 32) : EngSrc := if fEngHi x == 0 then .set (fSet x) else .handle (fH x)
/-- eng[3] = 0, or eng[3:2] = 0b10 (R111). -/
def srcLegal (x : BitVec 32) : Bool := fEngHi x == 0 || fEngH x == 2

/-! ## Checks at decode (R93, R94) -/
/-- Accept only where the check holds. -/
def need (c : Bool) (why : Reject) (r : Except Reject Instr) : Except Reject Instr := if c then r else .error why
/-- Scope values 6 and 7 are illegal (R98, R100, R112). -/
def withScope (x : BitVec 32) (k : Scope → Except Reject Instr) : Except Reject Instr :=
  match Scope.ofBits (fScopeBits x) with
  | some s => k s
  | none => .error .reservedValue
def isPort (r : Reg) : Bool := Reg.isPort r
def isPair (r : Reg) : Bool := Reg.isPair r
def pairOk (sz : MSize) (d : Reg) : Bool := sz.pairOk d
/-- A vector register number in a scalar field: 0..15 (R105). -/
def vecNum (r : Reg) : Bool := decide (r.toNat < 16)
/-- Element indices of the .d forms (R109). -/
def kd8 (k : BitVec 4) : Bool := decide (k.toNat < 8)
/-- PUBLISH's scope codes (R112). -/
def publishScope (s : BitVec 3) : Bool := decide (4 ≤ s.toNat)

/-! ## The maps, major by major -/
/-- Major 0x01 (R96). -/
def decodeInt (x : BitVec 32) : Except Reject Instr :=
  match (fFn x).toNat with
  | 0 => .ok (.add (fD x) (fA x) (fB x) (fSc x))
  | 1 => .ok (.sub (fD x) (fA x) (fB x) (fSc x))
  | 2 => .ok (.and (fD x) (fA x) (fB x) (fSc x))
  | 3 => .ok (.or (fD x) (fA x) (fB x) (fSc x))
  | 4 => .ok (.xor (fD x) (fA x) (fB x) (fSc x))
  | 5 => .ok (.sll (fD x) (fA x) (fB x) (fSc x))
  | 6 => .ok (.srl (fD x) (fA x) (fB x) (fSc x))
  | 7 => .ok (.sra (fD x) (fA x) (fB x) (fSc x))
  | 8 => .ok (.rol (fD x) (fA x) (fB x) (fSc x))
  | 9 => .ok (.ror (fD x) (fA x) (fB x) (fSc x))
  | 10 => .ok (.slt (fD x) (fA x) (fB x) (fSc x))
  | 11 => .ok (.sltu (fD x) (fA x) (fB x) (fSc x))
  | 12 => .ok (.min (fD x) (fA x) (fB x) (fSc x))
  | 13 => .ok (.max (fD x) (fA x) (fB x) (fSc x))
  | 14 => .ok (.minu (fD x) (fA x) (fB x) (fSc x))
  | 15 => .ok (.maxu (fD x) (fA x) (fB x) (fSc x))
  | 16 => .ok (.mul (fD x) (fA x) (fB x) (fSc x))
  | 17 => .ok (.mulh (fD x) (fA x) (fB x) (fSc x))
  | 18 => .ok (.mulhu (fD x) (fA x) (fB x) (fSc x))
  | 19 => .ok (.div (fD x) (fA x) (fB x) (fSc x))
  | 20 => .ok (.divu (fD x) (fA x) (fB x) (fSc x))
  | 21 => .ok (.rem (fD x) (fA x) (fB x) (fSc x))
  | 22 => .ok (.remu (fD x) (fA x) (fB x) (fSc x))
  | 23 => need (fB x == 0) .unusedField (.ok (.clz (fD x) (fA x) (fSc x)))
  | 24 => need (fB x == 0) .unusedField (.ok (.ctz (fD x) (fA x) (fSc x)))
  | 25 => need (fB x == 0) .unusedField (.ok (.cpop (fD x) (fA x) (fSc x)))
  | 26 => need (fB x == 0) .unusedField (.ok (.sextB (fD x) (fA x) (fSc x)))
  | 27 => need (fB x == 0) .unusedField (.ok (.sextH (fD x) (fA x) (fSc x)))
  | 28 => need (fB x == 0) .unusedField (.ok (.sextW (fD x) (fA x) (fSc x)))
  | 29 => need (fB x == 0) .unusedField (.ok (.zextB (fD x) (fA x) (fSc x)))
  | 30 => need (fB x == 0) .unusedField (.ok (.zextH (fD x) (fA x) (fSc x)))
  | 31 => need (fB x == 0) .unusedField (.ok (.zextW (fD x) (fA x) (fSc x)))
  | _ => .error .reservedMinor

/-- Majors 0x10..0x14 (R98). -/
def decodeMem (sz : MSize) (x : BitVec 32) : Except Reject Instr :=
  match (fOrder x).toNat with
  | 0 => need (fScopeBits x == 0) .unusedField (need (pairOk sz (fD x)) .badRegister (.ok (.ld sz (fD x) (fA x) (fB x) (fSc x))))
  | 1 => need (fScopeBits x == 0) .unusedField (need (sz.narrow) .reservedMinor (.ok (.ldU sz (fD x) (fA x) (fB x) (fSc x))))
  | 2 => need (pairOk sz (fD x)) .badRegister (withScope x fun s => .ok (.ldAcq sz (fD x) (fA x) (fB x) s (fSc x)))
  | 3 => need (fScopeBits x == 0) .unusedField (need (sz.symbolic) .reservedMinor (.ok (.ldS sz (fD x) (fA x) (fB x) (fSc x))))
  | 4 => need (fScopeBits x == 0) .unusedField (need (pairOk sz (fD x)) .badRegister (.ok (.st sz (fD x) (fA x) (fB x) (fSc x))))
  | 5 => need (pairOk sz (fD x)) .badRegister (withScope x fun s => .ok (.stRel sz (fD x) (fA x) (fB x) s (fSc x)))
  | 6 => need (fScopeBits x == 0) .unusedField (need (pairOk sz (fD x)) .badRegister (.ok (.stClr sz (fD x) (fA x) (fB x) (fSc x))))
  | _ => .error .reservedMinor

/-- Majors 0x18 and 0x19 (R100). -/
def decodeAtomic (wd : ASize) (x : BitVec 32) : Except Reject Instr :=
  match (fOrder x).toNat with
  | 0 => withScope x fun s => .ok (.aadd wd (fD x) (fA x) (fB x) s (fSc x))
  | 1 => withScope x fun s => .ok (.aswap wd (fD x) (fA x) (fB x) s (fSc x))
  | 2 => withScope x fun s => .ok (.aand wd (fD x) (fA x) (fB x) s (fSc x))
  | 3 => withScope x fun s => .ok (.aor wd (fD x) (fA x) (fB x) s (fSc x))
  | 4 => withScope x fun s => .ok (.axor wd (fD x) (fA x) (fB x) s (fSc x))
  | 5 => withScope x fun s => .ok (.amax wd (fD x) (fA x) (fB x) s (fSc x))
  | 6 => withScope x fun s => .ok (.amin wd (fD x) (fA x) (fB x) s (fSc x))
  | 7 => withScope x fun s => .ok (.amaxu wd (fD x) (fA x) (fB x) s (fSc x))
  | _ => .error .reservedMinor

/-- Major 0x25 (R102). -/
def decodeTask (x : BitVec 32) : Except Reject Instr :=
  match (fFn x).toNat with
  | 0 => need (fD x == 0) .unusedField (need (fA x == 0) .unusedField (need (fB x == 0) .unusedField (.ok (.tdone (fSc x)))))
  | 1 => need (fD x == 0) .unusedField (need (fA x == 0) .unusedField (need (fB x == 0) .unusedField (.ok (.tabort (fSc x)))))
  | 2 => need (fD x == 0) .unusedField (need (fA x == 0) .unusedField (need (fB x == 0) .unusedField (.ok (.tyield (fSc x)))))
  | 3 => need (fD x == 0) .unusedField (.ok (.spawnr (fA x) (fB x) (fSc x)))
  | 4 => need (fD x == 0) .unusedField (need (fB x == 0) .unusedField (.ok (.spawnfr (fA x) (fSc x))))
  | _ => .error .reservedMinor

/-- Major 0x26 (R102). -/
def decodePool (x : BitVec 32) : Except Reject Instr :=
  match (fFn x).toNat with
  | 0 => need (fD x == 0) .unusedField (.ok (.crdeclD (fA x) (fB x) (fSc x)))
  | 1 => need (fD x == 0) .unusedField (.ok (.crdeclF32 (fA x) (fB x) (fSc x)))
  | 2 => need (fD x == 0) .unusedField (.ok (.crdeclF64 (fA x) (fB x) (fSc x)))
  | 3 => need (fD x == 0) .unusedField (.ok (.cradd (fA x) (fB x) (fSc x)))
  | 4 => need (fB x == 0) .unusedField (.ok (.poolget (fD x) (fA x) (fSc x)))
  | 5 => need (fB x == 0) .unusedField (.ok (.poolgetNf (fD x) (fA x) (fSc x)))
  | 6 => need (fD x == 0) .unusedField (.ok (.poolput (fA x) (fB x) (fSc x)))
  | _ => .error .reservedMinor

/-- Majors 0x28 and 0x29 (R103). -/
def decodeFp (f : FSize) (x : BitVec 32) : Except Reject Instr :=
  match (fFn x).toNat with
  | 0 => .ok (.fadd f (fD x) (fA x) (fB x) (fSc x))
  | 1 => .ok (.fsub f (fD x) (fA x) (fB x) (fSc x))
  | 2 => .ok (.fmul f (fD x) (fA x) (fB x) (fSc x))
  | 3 => .ok (.fdiv f (fD x) (fA x) (fB x) (fSc x))
  | 4 => need (fB x == 0) .unusedField (.ok (.fsqrt f (fD x) (fA x) (fSc x)))
  | 5 => .ok (.fmin f (fD x) (fA x) (fB x) (fSc x))
  | 6 => .ok (.fmax f (fD x) (fA x) (fB x) (fSc x))
  | 7 => .ok (.fmadd f (fD x) (fA x) (fB x) (fSc x))
  | 8 => .ok (.fmsub f (fD x) (fA x) (fB x) (fSc x))
  | 9 => .ok (.fnmadd f (fD x) (fA x) (fB x) (fSc x))
  | 10 => .ok (.feq f (fD x) (fA x) (fB x) (fSc x))
  | 11 => .ok (.flt f (fD x) (fA x) (fB x) (fSc x))
  | 12 => .ok (.fle f (fD x) (fA x) (fB x) (fSc x))
  | 13 => need (fB x == 0) .unusedField (.ok (.fclass f (fD x) (fA x) (fSc x)))
  | 14 => need (fB x == 0) .unusedField (.ok (.fneg f (fD x) (fA x) (fSc x)))
  | 15 => need (fB x == 0) .unusedField (.ok (.fabs f (fD x) (fA x) (fSc x)))
  | _ => .error .reservedMinor

/-- Major 0x2B (R105). -/
def decodeWide (x : BitVec 32) : Except Reject Instr :=
  match (fFn x).toNat with
  | 0 => need (fA x == 0) .unusedField (need (fB x == 0) .unusedField (.ok (.waclr (fD x) (fSc x))))
  | 1 => .ok (.wadd (fD x) (fA x) (fB x) (fSc x))
  | 2 => need (vecNum (fA x)) .badRegister (need (vecNum (fB x)) .badRegister (.ok (.waddv (fD x) ((fA x).setWidth 4) ((fB x).setWidth 4) (fSc x))))
  | 3 => need (fB x == 0) .unusedField (.ok (.wsgn (fD x) (fA x) (fSc x)))
  | 4 => need (fB x == 0) .unusedField (.ok (.wrnd (fD x) (fA x) (fSc x)))
  | _ => .error .reservedMinor

/-- Majors 0x30..0x33, map A (R107). -/
def decodeMapA (f : VFmt) (x : BitVec 32) : Except Reject Instr :=
  match (fVfn x).toNat with
  | 0 => need (fVc x == 0) .unusedField (.ok (.vaddFp f (fVd x) (fVa x) (fVb x) (fM x) (fSc x)))
  | 1 => need (fVc x == 0) .unusedField (.ok (.vsubFp f (fVd x) (fVa x) (fVb x) (fM x) (fSc x)))
  | 2 => need (fVc x == 0) .unusedField (.ok (.vmulFp f (fVd x) (fVa x) (fVb x) (fM x) (fSc x)))
  | 3 => .ok (.vfma f (fVd x) (fVa x) (fVb x) (fVc x) (fM x) (fSc x))
  | 4 => .ok (.vfms f (fVd x) (fVa x) (fVb x) (fVc x) (fM x) (fSc x))
  | 5 => need (fVc x == 0) .unusedField (.ok (.vdiv f (fVd x) (fVa x) (fVb x) (fM x) (fSc x)))
  | 6 => need (fVb x == 0) .unusedField (need (fVc x == 0) .unusedField (.ok (.vsqrt f (fVd x) (fVa x) (fM x) (fSc x))))
  | 7 => need (fVc x == 0) .unusedField (.ok (.vminFp f (fVd x) (fVa x) (fVb x) (fM x) (fSc x)))
  | 8 => need (fVc x == 0) .unusedField (.ok (.vmaxFp f (fVd x) (fVa x) (fVb x) (fM x) (fSc x)))
  | 9 => need (fVb x == 0) .unusedField (need (fVc x == 0) .unusedField (.ok (.vabsFp f (fVd x) (fVa x) (fM x) (fSc x))))
  | 10 => need (fVb x == 0) .unusedField (need (fVc x == 0) .unusedField (.ok (.vnegFp f (fVd x) (fVa x) (fM x) (fSc x))))
  | 11 => need (fVd3 x == 0) .unusedField (need (fVc x == 0) .unusedField (.ok (.vcmpeqFp f (fMd x) (fVa x) (fVb x) (fM x) (fSc x))))
  | 12 => need (fVd3 x == 0) .unusedField (need (fVc x == 0) .unusedField (.ok (.vcmpltFp f (fMd x) (fVa x) (fVb x) (fM x) (fSc x))))
  | 13 => need (fVd3 x == 0) .unusedField (need (fVc x == 0) .unusedField (.ok (.vcmple f (fMd x) (fVa x) (fVb x) (fM x) (fSc x))))
  | 14 => need (fVb x == 0) .unusedField (need (fVc x == 0) .unusedField (.ok (.vredsumFp f (fVd x) (fVa x) (fM x) (fSc x))))
  | 15 => need (fVb x == 0) .unusedField (need (fVc x == 0) .unusedField (.ok (.vredmin f (fVd x) (fVa x) (fM x) (fSc x))))
  | 16 => need (fVb x == 0) .unusedField (need (fVc x == 0) .unusedField (.ok (.vredmax f (fVd x) (fVa x) (fM x) (fSc x))))
  | _ => .error .reservedMinor

/-- Major 0x34, map B (R107). -/
def decodeMapB (x : BitVec 32) : Except Reject Instr :=
  match (fVfn x).toNat with
  | 0 => need (fVcHi x == 0) .unusedField (.ok (.vaddInt (fISz x) (fVd x) (fVa x) (fVb x) (fM x) (fSc x)))
  | 1 => need (fVcHi x == 0) .unusedField (.ok (.vsubInt (fISz x) (fVd x) (fVa x) (fVb x) (fM x) (fSc x)))
  | 2 => need (fVcHi x == 0) .unusedField (.ok (.vmulInt (fISz x) (fVd x) (fVa x) (fVb x) (fM x) (fSc x)))
  | 3 => need (fVcHi x == 0) .unusedField (.ok (.vminInt (fISz x) (fVd x) (fVa x) (fVb x) (fM x) (fSc x)))
  | 4 => need (fVcHi x == 0) .unusedField (.ok (.vmaxInt (fISz x) (fVd x) (fVa x) (fVb x) (fM x) (fSc x)))
  | 5 => need (fVcHi x == 0) .unusedField (.ok (.vminu (fISz x) (fVd x) (fVa x) (fVb x) (fM x) (fSc x)))
  | 6 => need (fVcHi x == 0) .unusedField (.ok (.vmaxu (fISz x) (fVd x) (fVa x) (fVb x) (fM x) (fSc x)))
  | 7 => need (fVcHi x == 0) .unusedField (.ok (.vand (fISz x) (fVd x) (fVa x) (fVb x) (fM x) (fSc x)))
  | 8 => need (fVcHi x == 0) .unusedField (.ok (.vor (fISz x) (fVd x) (fVa x) (fVb x) (fM x) (fSc x)))
  | 9 => need (fVcHi x == 0) .unusedField (.ok (.vxor (fISz x) (fVd x) (fVa x) (fVb x) (fM x) (fSc x)))
  | 10 => need (fVcHi x == 0) .unusedField (.ok (.vsll (fISz x) (fVd x) (fVa x) (fVb x) (fM x) (fSc x)))
  | 11 => need (fVcHi x == 0) .unusedField (.ok (.vsrl (fISz x) (fVd x) (fVa x) (fVb x) (fM x) (fSc x)))
  | 12 => need (fVcHi x == 0) .unusedField (.ok (.vsra (fISz x) (fVd x) (fVa x) (fVb x) (fM x) (fSc x)))
  | 13 => need (fVd3 x == 0) .unusedField (need (fVcHi x == 0) .unusedField (.ok (.vcmpeqInt (fISz x) (fMd x) (fVa x) (fVb x) (fM x) (fSc x))))
  | 14 => need (fVd3 x == 0) .unusedField (need (fVcHi x == 0) .unusedField (.ok (.vcmpltInt (fISz x) (fMd x) (fVa x) (fVb x) (fM x) (fSc x))))
  | 15 => need (fVd3 x == 0) .unusedField (need (fVcHi x == 0) .unusedField (.ok (.vcmpltu (fISz x) (fMd x) (fVa x) (fVb x) (fM x) (fSc x))))
  | 16 => need (fVb x == 0) .unusedField (need (fVcHi x == 0) .unusedField (.ok (.vredsumInt (fISz x) (fVd x) (fVa x) (fM x) (fSc x))))
  | 17 => need (fVb x == 0) .unusedField (need (fVcHi x == 0) .unusedField (.ok (.vabsInt (fISz x) (fVd x) (fVa x) (fM x) (fSc x))))
  | 18 => need (fVb x == 0) .unusedField (need (fVcHi x == 0) .unusedField (.ok (.vnegInt (fISz x) (fVd x) (fVa x) (fM x) (fSc x))))
  | _ => .error .reservedMinor

/-- Major 0x36, map C (R109). -/
def decodeMapC (x : BitVec 32) : Except Reject Instr :=
  match (fVfn x).toNat with
  | 0 => need (fVc x == 0) .unusedField (.ok (.vshufD (fVd x) (fVa x) (fVb x) (fM x) (fSc x)))
  | 1 => need (fVc x == 0) .unusedField (.ok (.vshufW (fVd x) (fVa x) (fVb x) (fM x) (fSc x)))
  | 2 => need (fVc x == 0) .unusedField (.ok (.vshufB (fVd x) (fVa x) (fVb x) (fM x) (fSc x)))
  | 3 => need (fVc x == 0) .unusedField (.ok (.vselD (fVd x) (fVa x) (fVb x) (fM x) (fSc x)))
  | 4 => need (fVc x == 0) .unusedField (.ok (.vselW (fVd x) (fVa x) (fVb x) (fM x) (fSc x)))
  | 5 => need (fVa x == 0) .unusedField (need (fVbHi x == 0) .unusedField (.ok (.vbcastD (fVd x) (fWs x) (fM x) (fSc x))))
  | 6 => need (fVa x == 0) .unusedField (need (fVbHi x == 0) .unusedField (.ok (.vbcastW (fVd x) (fWs x) (fM x) (fSc x))))
  | 7 => need (fVbHi x == 0) .unusedField (need (fM x == 0) .unusedField (need (kd8 (fVd x)) .reservedValue (.ok (.vextD (fWs x) (fVa x) (fVd x) (fSc x)))))
  | 8 => need (fVbHi x == 0) .unusedField (need (fM x == 0) .unusedField (.ok (.vextW (fWs x) (fVa x) (fVd x) (fSc x))))
  | 9 => need (fVbHi x == 0) .unusedField (need (fM x == 0) .unusedField (need (kd8 (fVa x)) .reservedValue (.ok (.vinsD (fVd x) (fWs x) (fVa x) (fSc x)))))
  | 10 => need (fVbHi x == 0) .unusedField (need (fM x == 0) .unusedField (.ok (.vinsW (fVd x) (fWs x) (fVa x) (fSc x))))
  | 11 => need (fVd3 x == 0) .unusedField (need (fVa3 x == 0) .unusedField (need (fVb3 x == 0) .unusedField (need (fVc x == 0) .unusedField (need (fM x == 0) .unusedField (.ok (.vmand (fMd x) (fMa x) (fMb x) (fSc x)))))))
  | 12 => need (fVd3 x == 0) .unusedField (need (fVa3 x == 0) .unusedField (need (fVb3 x == 0) .unusedField (need (fVc x == 0) .unusedField (need (fM x == 0) .unusedField (.ok (.vmor (fMd x) (fMa x) (fMb x) (fSc x)))))))
  | 13 => need (fVd3 x == 0) .unusedField (need (fVa3 x == 0) .unusedField (need (fVb3 x == 0) .unusedField (need (fVc x == 0) .unusedField (need (fM x == 0) .unusedField (.ok (.vmxor (fMd x) (fMa x) (fMb x) (fSc x)))))))
  | 14 => need (fVd3 x == 0) .unusedField (need (fVa3 x == 0) .unusedField (need (fVb x == 0) .unusedField (need (fVc x == 0) .unusedField (need (fM x == 0) .unusedField (.ok (.vmnot (fMd x) (fMa x) (fSc x)))))))
  | 15 => need (fVd3 x == 0) .unusedField (need (fVa x == 0) .unusedField (need (fVbHi x == 0) .unusedField (need (fM x == 0) .unusedField (.ok (.vmput (fMd x) (fWs x) (fSc x))))))
  | 16 => need (fVd x == 0) .unusedField (need (fVa3 x == 0) .unusedField (need (fVbHi x == 0) .unusedField (need (fM x == 0) .unusedField (.ok (.vmget (fWs x) (fMa x) (fSc x))))))
  | 17 => need (fVb x == 0) .unusedField (need (fVc x == 0) .unusedField (.ok (.vmov (fVd x) (fVa x) (fM x) (fSc x))))
  | _ => .error .reservedMinor

/-- Major 0x37 (R110). -/
def decodeVecMem (x : BitVec 32) : Except Reject Instr :=
  match (fVfn x).toNat with
  | 0 => need (fVa x == 0) .unusedField (need (fVbHi x == 0) .unusedField (need (fM x == 0) .unusedField (.ok (.vld (fVd x) (fWs x) (fSc x)))))
  | 1 => need (fVa x == 0) .unusedField (need (fVbHi x == 0) .unusedField (.ok (.vstD (fVd x) (fWs x) (fM x) (fSc x))))
  | 2 => need (fVa x == 0) .unusedField (need (fVbHi x == 0) .unusedField (.ok (.vstW (fVd x) (fWs x) (fM x) (fSc x))))
  | 3 => need (fVa x == 0) .unusedField (need (fVbHi x == 0) .unusedField (.ok (.vstB (fVd x) (fWs x) (fM x) (fSc x))))
  | _ => .error .reservedMinor

/-- Major 0x38 (R111). -/
def decodeReedbed (x : BitVec 32) : Except Reject Instr :=
  match (fCmd x).toNat with
  | 0 => need (fEng x == 0) .unusedField (need (fCb x == 0) .unusedField (need (fCa x == 0) .unusedField (.ok (.mlease (fE x) (fSc x)))))
  | 1 => need (fEng x == 0) .unusedField (need (fCb x == 0) .unusedField (need (fCa x == 0) .unusedField (.ok (.mrel (fE x) (fSc x)))))
  | 2 => need (fEngHi x == 0) .reservedValue (.ok (.mfmt (fE x) (fCa x) (fCb x) (fSet x) (fSc x)))
  | 3 => need (fCb x == 0) .unusedField (need (fEngHi x == 0) .reservedValue (.ok (.mgeo (fE x) (fCa x) (fSet x) (fSc x))))
  | 4 => need (fEngHi x == 0) .reservedValue (.ok (.mloadw (fE x) (fCa x) (fCb x) (fSet x) (fSc x)))
  | 5 => need (fEng x == 0) .unusedField (need (fCb x == 0) .unusedField (need (fCa x == 0) .unusedField (.ok (.mswap (fE x) (fSc x)))))
  | 6 => need (srcLegal x) .reservedValue (.ok (.mstream (fE x) (fCa x) (fCb x) (fSrc x) (fSc x)))
  | 7 => need (fEng x == 0) .unusedField (need (fCb x == 0) .unusedField (need (fCa x == 0) .unusedField (.ok (.mdrain (fE x) (fSc x)))))
  | _ => .error .reservedMinor

/-- Major 0x39 (R111). -/
def decodeHeron (x : BitVec 32) : Except Reject Instr :=
  match (fCmd x).toNat with
  | 0 => need (srcLegal x) .reservedValue (.ok (.gather (fE x) (fCa x) (fCb x) (fSrc x) (fSc x)))
  | 1 => need (srcLegal x) .reservedValue (.ok (.scatter (fE x) (fCa x) (fCb x) (fSrc x) (fSc x)))
  | 2 => need (srcLegal x) .reservedValue (.ok (.scatterAdd (fE x) (fCa x) (fCb x) (fSrc x) (fSc x)))
  | 3 => need (fCb x == 0) .unusedField (need (fE x == 0) .unusedField (need (fEngH x == 2) .reservedValue (.ok (.hset (fCa x) (fH x) (fSc x)))))
  | 4 => need (fCb x == 0) .unusedField (need (fE x == 0) .unusedField (need (fEngH x == 2) .reservedValue (.ok (.hget (fCa x) (fH x) (fSc x)))))
  | 5 => need (fEngH x == 2) .reservedValue (.ok (.hld (fE x) (fCa x) (fCb x) (fH x) (fSc x)))
  | 6 => need (fEngH x == 2) .reservedValue (.ok (.hst (fE x) (fCa x) (fCb x) (fH x) (fSc x)))
  | _ => .error .reservedMinor

/-- Major 0x3A (R111). -/
def decodeLode (x : BitVec 32) : Except Reject Instr :=
  match (fCmd x).toNat with
  | 0 => need (fEngHi x == 0) .reservedValue (.ok (.cpy (fE x) (fCa x) (fCb x) (fSet x) (fSc x)))
  | 1 => need (fEngHi x == 0) .reservedValue (.ok (.cpy2 (fE x) (fCa x) (fCb x) (fSet x) (fSc x)))
  | 2 => need (fEngHi x == 0) .reservedValue (.ok (.cpy3 (fE x) (fCa x) (fCb x) (fSet x) (fSc x)))
  | 8 => need (fEng x == 0) .unusedField (need (fCb x == 0) .unusedField (need (fCa x == 0) .unusedField (.ok (.fwait (fE x) (fSc x)))))
  | 9 => need (fEng x == 0) .unusedField (need (fCb x == 0) .unusedField (.ok (.ftest (fE x) (fCa x) (fSc x))))
  | 10 => need (fEng x == 0) .unusedField (need (fCb x == 0) .unusedField (need (fCa x == 0) .unusedField (.ok (.fcancel (fE x) (fSc x)))))
  | 11 => need (fEng x == 0) .unusedField (need (fCb x == 0) .unusedField (.ok (.fpassRead (fE x) (fCa x) (fSc x))))
  | 12 => need (fEng x == 0) .unusedField (need (fCb x == 0) .unusedField (.ok (.fpassWrite (fE x) (fCa x) (fSc x))))
  | _ => .error .reservedMinor

/-- Major 0x3B (R111). -/
def decodePage (x : BitVec 32) : Except Reject Instr :=
  match (fCmd x).toNat with
  | 0 => need (fEng x == 0) .unusedField (.ok (.spmap (fE x) (fCa x) (fCb x) (fSc x)))
  | 1 => need (fEng x == 0) .unusedField (.ok (.spfree (fE x) (fCa x) (fCb x) (fSc x)))
  | 2 => need (fEng x == 0) .unusedField (.ok (.sppin (fE x) (fCa x) (fCb x) (fSc x)))
  | 3 => need (fEng x == 0) .unusedField (need (fCb x == 0) .unusedField (.ok (.spmig (fE x) (fCa x) (fSc x))))
  | 4 => need (fEng x == 0) .unusedField (.ok (.spflush (fE x) (fCa x) (fCb x) (fSc x)))
  | 8 => need (fEng x == 0) .unusedField (need (fEHi x == 0) .reservedValue (.ok (.sbind (fPort x) (fCa x) (fCb x) (fSc x))))
  | 9 => need (fEng x == 0) .unusedField (need (fCb x == 0) .unusedField (need (fCa x == 0) .unusedField (need (fEHi x == 0) .reservedValue (.ok (.sfree (fPort x) (fSc x))))))
  | 10 => need (fEng x == 0) .unusedField (need (fCb x == 0) .unusedField (need (fE x == 0) .unusedField (.ok (.qbind (fCa x) (fSc x)))))
  | _ => .error .reservedMinor

/-- Major 0x3C (R112). -/
def decodeFence (x : BitVec 32) : Except Reject Instr :=
  match (fOrder x).toNat with
  | 0 => need (fD x == 0) .unusedField (need (fA x == 0) .unusedField (need (fB x == 0) .unusedField (withScope x fun s => .ok (.fence s (fSc x)))))
  | 1 => need (fD x == 0) .unusedField (need (fA x == 0) .unusedField (need (fB x == 0) .unusedField (withScope x fun s => .ok (.fenceX s (fSc x)))))
  | 2 => need (fD x == 0) .unusedField (need (fB x == 0) .unusedField (withScope x fun s => .ok (.bar s (fA x) (fSc x))))
  | 3 => need (fD x == 0) .unusedField (need (fB x == 0) .unusedField (withScope x fun s => .ok (.barjoin s (fA x) (fSc x))))
  | 4 => need (fD x == 0) .unusedField (need (fB x == 0) .unusedField (withScope x fun s => .ok (.barleave s (fA x) (fSc x))))
  | 5 => need (fD x == 0) .unusedField (withScope x fun s => .ok (.wait s (fA x) (fB x) (fSc x)))
  | 6 => need (fD x == 0) .unusedField (need (fB x == 0) .unusedField (need (publishScope (fScopeBits x)) .reservedValue (withScope x fun s => .ok (.publish s (fA x) (fSc x)))))
  | _ => .error .reservedMinor

/-- Major 0x3D (R113). -/
def decodeCsr (x : BitVec 32) : Except Reject Instr :=
  match (fCsrOp x).toNat with
  | 0 => need (fA x == 0) .unusedField (need (csrListed (fCsr x)) .reservedValue (.ok (.csrr (fD x) (fCsr x) (fSc x))))
  | 1 => need (fD x == 0) .unusedField (need (csrListed (fCsr x)) .reservedValue (.ok (.csrw (fCsr x) (fA x) (fSc x))))
  | 2 => need (fD x == 0) .unusedField (need (csrListed (fCsr x)) .reservedValue (.ok (.csrs (fCsr x) (fA x) (fSc x))))
  | 3 => need (fD x == 0) .unusedField (need (csrListed (fCsr x)) .reservedValue (.ok (.csrc (fCsr x) (fA x) (fSc x))))
  | _ => .error .reservedMinor

/-- Major 0x3E (R114). -/
def decodeSystem (x : BitVec 32) : Except Reject Instr :=
  match (fFn x).toNat with
  | 0 => need (fD x == 0) .unusedField (need (fA x == 0) .unusedField (need (fB x == 0) .unusedField (.ok (.nop (fSc x)))))
  | 1 => need (fD x == 0) .unusedField (need (fA x == 0) .unusedField (need (fB x == 0) .unusedField (.ok (.eret (fSc x)))))
  | 2 => need (fD x == 0) .unusedField (need (fB x == 0) .unusedField (.ok (.trap (fA x) (fSc x))))
  | 3 => need (fB x == 0) .unusedField (.ok (.wpsw (fD x) (fA x) (fSc x)))
  | 4 => need (fD x == 0) .unusedField (need (fA x == 0) .unusedField (need (fB x == 0) .unusedField (.ok (.sleep (fSc x)))))
  | 5 => need (fD x == 0) .unusedField (need (fA x == 0) .unusedField (need (fB x == 0) .unusedField (.ok (.brk (fSc x)))))
  | _ => .error .reservedMinor

/-- One word (R89, R95): the instruction it is, or why it is rejected. -/
def decodeWord (x : BitVec 32) : Except Reject Instr :=
  match (fOp x).toNat with
  | 0x01 => decodeInt x
  | 0x02 => .ok (.addi (fD x) (fA x) (fImm12 x) (fSc x))
  | 0x03 => .ok (.andi (fD x) (fA x) (fImm12 x) (fSc x))
  | 0x04 => .ok (.ori (fD x) (fA x) (fImm12 x) (fSc x))
  | 0x05 => .ok (.xori (fD x) (fA x) (fImm12 x) (fSc x))
  | 0x06 => .ok (.slti (fD x) (fA x) (fImm12 x) (fSc x))
  | 0x07 => .ok (.sltiu (fD x) (fA x) (fImm12 x) (fSc x))
  | 0x08 => need (fB x == 0) .unusedField (.ok (.slli (fD x) (fA x) (fLo6 x) (fSc x)))
  | 0x09 => need (fB x == 0) .unusedField (.ok (.srli (fD x) (fA x) (fLo6 x) (fSc x)))
  | 0x0A => need (fB x == 0) .unusedField (.ok (.srai (fD x) (fA x) (fLo6 x) (fSc x)))
  | 0x0B => need (fieldFits (fB x) (fLo6 x)) .reservedValue (.ok (.ext (fD x) (fA x) (fB x) (fLo6 x) (fSc x)))
  | 0x0C => need (fieldFits (fB x) (fLo6 x)) .reservedValue (.ok (.exts (fD x) (fA x) (fB x) (fLo6 x) (fSc x)))
  | 0x0D => need (fieldFits (fB x) (fLo6 x)) .reservedValue (.ok (.ins (fD x) (fA x) (fB x) (fLo6 x) (fSc x)))
  | 0x0E => .ok (.lui (fD x) (fImm18 x) (fSc x))
  | 0x0F => need (fImm18Hi x == 0) .unusedField (.ok (.lsi (fD x) (fImm16 x) (fSc x)))
  | 0x10 => decodeMem .b x
  | 0x11 => decodeMem .h x
  | 0x12 => decodeMem .w x
  | 0x13 => decodeMem .d x
  | 0x14 => decodeMem .q x
  | 0x15 => .ok (.ldDLong (fD x) (fA x) (fImm12 x) (fSc x))
  | 0x16 => .ok (.stDLong (fD x) (fA x) (fImm12 x) (fSc x))
  | 0x18 => decodeAtomic .d x
  | 0x19 => decodeAtomic .w x
  | 0x1A => need (fOrder x == 0) .reservedMinor (need (!isPort (fD x)) .badRegister (withScope x fun s => .ok (.casD (fD x) (fA x) (fB x) s (fSc x))))
  | 0x1B => need (fOrder x == 0) .reservedMinor (need (isPair (fD x)) .badRegister (need (isPair (fB x)) .badRegister (withScope x fun s => .ok (.casQ (fD x) (fA x) (fB x) s (fSc x)))))
  | 0x1C => .ok (.beq (fD x) (fA x) (fImm12 x) (fSc x))
  | 0x1D => .ok (.bne (fD x) (fA x) (fImm12 x) (fSc x))
  | 0x1E => .ok (.blt (fD x) (fA x) (fImm12 x) (fSc x))
  | 0x1F => .ok (.bge (fD x) (fA x) (fImm12 x) (fSc x))
  | 0x20 => .ok (.j (fOff24 x) (fSc x))
  | 0x21 => .ok (.jal (fOff24 x) (fSc x))
  | 0x22 => .ok (.jalr (fD x) (fA x) (fImm12 x) (fSc x))
  | 0x23 => .ok (.spawn (fD x) (fImm18 x) (fSc x))
  | 0x24 => need (fD x == 0) .unusedField (.ok (.spawnf (fImm18 x) (fSc x)))
  | 0x25 => decodeTask x
  | 0x26 => decodePool x
  | 0x28 => decodeFp .f64 x
  | 0x29 => decodeFp .f32 x
  | 0x2A => need (fB x == 0) .unusedField (need (fcvtLegal (fFnHi x) (fFnLo x)) .reservedMinor (.ok (.fcvt (fFnHi x) (fFnLo x) (fD x) (fA x) (fSc x))))
  | 0x2B => decodeWide x
  | 0x30 => decodeMapA .f64 x
  | 0x31 => decodeMapA .f32 x
  | 0x32 => decodeMapA .bf16 x
  | 0x33 => decodeMapA .f16 x
  | 0x34 => decodeMapB x
  | 0x35 => need (fVfn4 x == 0) .unusedField (need (vcvtLegal (fVb x) (fVc x) (fPart x) (fSat x)) .reservedMinor (.ok (.vcvt (fVb x) (fVc x) (fPart x) (fSat x) (fVd x) (fVa x) (fM x) (fSc x))))
  | 0x36 => decodeMapC x
  | 0x37 => decodeVecMem x
  | 0x38 => decodeReedbed x
  | 0x39 => decodeHeron x
  | 0x3A => decodeLode x
  | 0x3B => decodePage x
  | 0x3C => decodeFence x
  | 0x3D => decodeCsr x
  | 0x3E => decodeSystem x
  | _ => .error .reservedMajor

/-- The word of four bytes, the least significant at the lowest address (R2, R89). -/
def wordOfBytes (b0 b1 b2 b3 : Byte) : BitVec 32 := b3 ++ b2 ++ b1 ++ b0

/-- Decoding of any bytes: the first instruction and the bytes after it, or why the bytes name none. -/
def decode : List Byte → Except Reject (Instr × List Byte)
  | b0 :: b1 :: b2 :: b3 :: rest =>
    match decodeWord (wordOfBytes b0 b1 b2 b3) with
    | .ok i => .ok (i, rest)
    | .error why => .error why
  | _ => .error .truncated

/-- A word whose bits are w, numbered as the opcode table numbers them; the row's bits are the whole word (R89). -/
def decodeTableWord (nbits w : Nat) : Option Instr :=
  match decodeWord (BitVec.ofNat 32 (w % 2 ^ nbits)) with
  | .ok i => some i
  | .error _ => none

/-! ## The encoder, from the same tables -/
def packR (op d a b fn : BitVec 6) (sc : BitVec 2) : BitVec 32 := op ++ d ++ a ++ b ++ fn ++ sc
def packI (op d a : BitVec 6) (imm : BitVec 12) (sc : BitVec 2) : BitVec 32 := op ++ d ++ a ++ imm ++ sc
def packL (op d : BitVec 6) (imm : BitVec 18) (sc : BitVec 2) : BitVec 32 := op ++ d ++ imm ++ sc
def packJ (op : BitVec 6) (off : BitVec 24) (sc : BitVec 2) : BitVec 32 := op ++ off ++ sc
def packM (op d a b : BitVec 6) (scope order : BitVec 3) (sc : BitVec 2) : BitVec 32 :=
  op ++ d ++ a ++ b ++ scope ++ order ++ sc
def packV (op : BitVec 6) (vd va vb vc : BitVec 4) (m : BitVec 3) (fn : BitVec 5) (sc : BitVec 2) : BitVec 32 :=
  op ++ vd ++ va ++ vb ++ vc ++ m ++ fn ++ sc
def packC (op : BitVec 6) (e : BitVec 3) (cmd : BitVec 5) (a b : BitVec 6) (eng : BitVec 4) (sc : BitVec 2) : BitVec 32 :=
  op ++ e ++ cmd ++ a ++ b ++ eng ++ sc
def packS (op d a : BitVec 6) (csrOp : BitVec 2) (csr : BitVec 10) (sc : BitVec 2) : BitVec 32 :=
  op ++ d ++ a ++ csrOp ++ csr ++ sc
/-- The vb and vc fields that hold ws (R109). -/
def wsHi (ws : Reg) : BitVec 4 := (ws.extractLsb' 4 2).setWidth 4
def wsLo (ws : Reg) : BitVec 4 := ws.extractLsb' 0 4

/-- The word of an instruction; an event has none. -/
def encode : Instr → Option (BitVec 32)
  | .add d a b sc => some (packR 1 d a b 0 sc)
  | .sub d a b sc => some (packR 1 d a b 1 sc)
  | .and d a b sc => some (packR 1 d a b 2 sc)
  | .or d a b sc => some (packR 1 d a b 3 sc)
  | .xor d a b sc => some (packR 1 d a b 4 sc)
  | .sll d a b sc => some (packR 1 d a b 5 sc)
  | .srl d a b sc => some (packR 1 d a b 6 sc)
  | .sra d a b sc => some (packR 1 d a b 7 sc)
  | .rol d a b sc => some (packR 1 d a b 8 sc)
  | .ror d a b sc => some (packR 1 d a b 9 sc)
  | .slt d a b sc => some (packR 1 d a b 10 sc)
  | .sltu d a b sc => some (packR 1 d a b 11 sc)
  | .min d a b sc => some (packR 1 d a b 12 sc)
  | .max d a b sc => some (packR 1 d a b 13 sc)
  | .minu d a b sc => some (packR 1 d a b 14 sc)
  | .maxu d a b sc => some (packR 1 d a b 15 sc)
  | .mul d a b sc => some (packR 1 d a b 16 sc)
  | .mulh d a b sc => some (packR 1 d a b 17 sc)
  | .mulhu d a b sc => some (packR 1 d a b 18 sc)
  | .div d a b sc => some (packR 1 d a b 19 sc)
  | .divu d a b sc => some (packR 1 d a b 20 sc)
  | .rem d a b sc => some (packR 1 d a b 21 sc)
  | .remu d a b sc => some (packR 1 d a b 22 sc)
  | .clz d a sc => some (packR 1 d a 0 23 sc)
  | .ctz d a sc => some (packR 1 d a 0 24 sc)
  | .cpop d a sc => some (packR 1 d a 0 25 sc)
  | .sextB d a sc => some (packR 1 d a 0 26 sc)
  | .sextH d a sc => some (packR 1 d a 0 27 sc)
  | .sextW d a sc => some (packR 1 d a 0 28 sc)
  | .zextB d a sc => some (packR 1 d a 0 29 sc)
  | .zextH d a sc => some (packR 1 d a 0 30 sc)
  | .zextW d a sc => some (packR 1 d a 0 31 sc)
  | .addi d a imm sc => some (packI 2 d a imm sc)
  | .andi d a imm sc => some (packI 3 d a imm sc)
  | .ori d a imm sc => some (packI 4 d a imm sc)
  | .xori d a imm sc => some (packI 5 d a imm sc)
  | .slti d a imm sc => some (packI 6 d a imm sc)
  | .sltiu d a imm sc => some (packI 7 d a imm sc)
  | .slli d a sh sc => some (packR 8 d a 0 sh sc)
  | .srli d a sh sc => some (packR 9 d a 0 sh sc)
  | .srai d a sh sc => some (packR 10 d a 0 sh sc)
  | .ext d a pos len1 sc => some (packR 11 d a pos len1 sc)
  | .exts d a pos len1 sc => some (packR 12 d a pos len1 sc)
  | .ins d a pos len1 sc => some (packR 13 d a pos len1 sc)
  | .lui d imm sc => some (packL 14 d imm sc)
  | .lsi d imm sc => some (packL 15 d (imm.setWidth 18) sc)
  | .ld sz d a imm6 sc => some (packM (16 + sz.code) d a imm6 0 0 sc)
  | .ldU sz d a imm6 sc => some (packM (16 + sz.code) d a imm6 0 1 sc)
  | .ldAcq sz d a imm6 scope sc => some (packM (16 + sz.code) d a imm6 scope.bits 2 sc)
  | .ldS sz d a imm6 sc => some (packM (16 + sz.code) d a imm6 0 3 sc)
  | .ldDLong d a imm sc => some (packI 0x15 d a imm sc)
  | .st sz d a imm6 sc => some (packM (16 + sz.code) d a imm6 0 4 sc)
  | .stRel sz d a imm6 scope sc => some (packM (16 + sz.code) d a imm6 scope.bits 5 sc)
  | .stClr sz d a imm6 sc => some (packM (16 + sz.code) d a imm6 0 6 sc)
  | .stDLong d a imm sc => some (packI 0x16 d a imm sc)
  | .aadd wd d a b scope sc => some (packM (24 + wd.code) d a b scope.bits 0 sc)
  | .aswap wd d a b scope sc => some (packM (24 + wd.code) d a b scope.bits 1 sc)
  | .aand wd d a b scope sc => some (packM (24 + wd.code) d a b scope.bits 2 sc)
  | .aor wd d a b scope sc => some (packM (24 + wd.code) d a b scope.bits 3 sc)
  | .axor wd d a b scope sc => some (packM (24 + wd.code) d a b scope.bits 4 sc)
  | .amax wd d a b scope sc => some (packM (24 + wd.code) d a b scope.bits 5 sc)
  | .amin wd d a b scope sc => some (packM (24 + wd.code) d a b scope.bits 6 sc)
  | .amaxu wd d a b scope sc => some (packM (24 + wd.code) d a b scope.bits 7 sc)
  | .casD d a b scope sc => some (packM 0x1A d a b scope.bits 0 sc)
  | .casQ d a b scope sc => some (packM 0x1B d a b scope.bits 0 sc)
  | .beq a b off sc => some (packI 28 a b off sc)
  | .bne a b off sc => some (packI 29 a b off sc)
  | .blt a b off sc => some (packI 30 a b off sc)
  | .bge a b off sc => some (packI 31 a b off sc)
  | .j off sc => some (packJ 32 off sc)
  | .jal off sc => some (packJ 33 off sc)
  | .jalr d a imm sc => some (packI 0x22 d a imm sc)
  | .spawn d imm sc => some (packL 0x23 d imm sc)
  | .spawnf imm sc => some (packL 0x24 0 imm sc)
  | .tdone sc => some (packR 37 0 0 0 0 sc)
  | .tabort sc => some (packR 37 0 0 0 1 sc)
  | .tyield sc => some (packR 37 0 0 0 2 sc)
  | .spawnr a b sc => some (packR 37 0 a b 3 sc)
  | .spawnfr a sc => some (packR 37 0 a 0 4 sc)
  | .crdeclD a b sc => some (packR 38 0 a b 0 sc)
  | .crdeclF32 a b sc => some (packR 38 0 a b 1 sc)
  | .crdeclF64 a b sc => some (packR 38 0 a b 2 sc)
  | .cradd a b sc => some (packR 38 0 a b 3 sc)
  | .poolget d a sc => some (packR 38 d a 0 4 sc)
  | .poolgetNf d a sc => some (packR 38 d a 0 5 sc)
  | .poolput a b sc => some (packR 38 0 a b 6 sc)
  | .fadd f d a b sc => some (packR (40 + f.code) d a b 0 sc)
  | .fsub f d a b sc => some (packR (40 + f.code) d a b 1 sc)
  | .fmul f d a b sc => some (packR (40 + f.code) d a b 2 sc)
  | .fdiv f d a b sc => some (packR (40 + f.code) d a b 3 sc)
  | .fsqrt f d a sc => some (packR (40 + f.code) d a 0 4 sc)
  | .fmin f d a b sc => some (packR (40 + f.code) d a b 5 sc)
  | .fmax f d a b sc => some (packR (40 + f.code) d a b 6 sc)
  | .fmadd f d a b sc => some (packR (40 + f.code) d a b 7 sc)
  | .fmsub f d a b sc => some (packR (40 + f.code) d a b 8 sc)
  | .fnmadd f d a b sc => some (packR (40 + f.code) d a b 9 sc)
  | .feq f d a b sc => some (packR (40 + f.code) d a b 10 sc)
  | .flt f d a b sc => some (packR (40 + f.code) d a b 11 sc)
  | .fle f d a b sc => some (packR (40 + f.code) d a b 12 sc)
  | .fclass f d a sc => some (packR (40 + f.code) d a 0 13 sc)
  | .fneg f d a sc => some (packR (40 + f.code) d a 0 14 sc)
  | .fabs f d a sc => some (packR (40 + f.code) d a 0 15 sc)
  | .fcvt dst src d a sc => some (packR 0x2A d a 0 (dst ++ src) sc)
  | .waclr d sc => some (packR 43 d 0 0 0 sc)
  | .wadd d a b sc => some (packR 43 d a b 1 sc)
  | .waddv d va vb sc => some (packR 0x2B d (va.setWidth 6) (vb.setWidth 6) 2 sc)
  | .wsgn d a sc => some (packR 43 d a 0 3 sc)
  | .wrnd d a sc => some (packR 43 d a 0 4 sc)
  | .vaddFp f vd va vb m sc => some (packV (48 + f.code) vd va vb 0 m 0 sc)
  | .vsubFp f vd va vb m sc => some (packV (48 + f.code) vd va vb 0 m 1 sc)
  | .vmulFp f vd va vb m sc => some (packV (48 + f.code) vd va vb 0 m 2 sc)
  | .vfma f vd va vb vc m sc => some (packV (48 + f.code) vd va vb vc m 3 sc)
  | .vfms f vd va vb vc m sc => some (packV (48 + f.code) vd va vb vc m 4 sc)
  | .vdiv f vd va vb m sc => some (packV (48 + f.code) vd va vb 0 m 5 sc)
  | .vsqrt f vd va m sc => some (packV (48 + f.code) vd va 0 0 m 6 sc)
  | .vminFp f vd va vb m sc => some (packV (48 + f.code) vd va vb 0 m 7 sc)
  | .vmaxFp f vd va vb m sc => some (packV (48 + f.code) vd va vb 0 m 8 sc)
  | .vabsFp f vd va m sc => some (packV (48 + f.code) vd va 0 0 m 9 sc)
  | .vnegFp f vd va m sc => some (packV (48 + f.code) vd va 0 0 m 10 sc)
  | .vcmpeqFp f md va vb m sc => some (packV (48 + f.code) (md.setWidth 4) va vb 0 m 11 sc)
  | .vcmpltFp f md va vb m sc => some (packV (48 + f.code) (md.setWidth 4) va vb 0 m 12 sc)
  | .vcmple f md va vb m sc => some (packV (48 + f.code) (md.setWidth 4) va vb 0 m 13 sc)
  | .vredsumFp f vd va m sc => some (packV (48 + f.code) vd va 0 0 m 14 sc)
  | .vredmin f vd va m sc => some (packV (48 + f.code) vd va 0 0 m 15 sc)
  | .vredmax f vd va m sc => some (packV (48 + f.code) vd va 0 0 m 16 sc)
  | .vaddInt sz vd va vb m sc => some (packV 52 vd va vb sz.bits m 0 sc)
  | .vsubInt sz vd va vb m sc => some (packV 52 vd va vb sz.bits m 1 sc)
  | .vmulInt sz vd va vb m sc => some (packV 52 vd va vb sz.bits m 2 sc)
  | .vminInt sz vd va vb m sc => some (packV 52 vd va vb sz.bits m 3 sc)
  | .vmaxInt sz vd va vb m sc => some (packV 52 vd va vb sz.bits m 4 sc)
  | .vminu sz vd va vb m sc => some (packV 52 vd va vb sz.bits m 5 sc)
  | .vmaxu sz vd va vb m sc => some (packV 52 vd va vb sz.bits m 6 sc)
  | .vand sz vd va vb m sc => some (packV 52 vd va vb sz.bits m 7 sc)
  | .vor sz vd va vb m sc => some (packV 52 vd va vb sz.bits m 8 sc)
  | .vxor sz vd va vb m sc => some (packV 52 vd va vb sz.bits m 9 sc)
  | .vsll sz vd va vb m sc => some (packV 52 vd va vb sz.bits m 10 sc)
  | .vsrl sz vd va vb m sc => some (packV 52 vd va vb sz.bits m 11 sc)
  | .vsra sz vd va vb m sc => some (packV 52 vd va vb sz.bits m 12 sc)
  | .vcmpeqInt sz md va vb m sc => some (packV 52 (md.setWidth 4) va vb sz.bits m 13 sc)
  | .vcmpltInt sz md va vb m sc => some (packV 52 (md.setWidth 4) va vb sz.bits m 14 sc)
  | .vcmpltu sz md va vb m sc => some (packV 52 (md.setWidth 4) va vb sz.bits m 15 sc)
  | .vredsumInt sz vd va m sc => some (packV 52 vd va 0 sz.bits m 16 sc)
  | .vabsInt sz vd va m sc => some (packV 52 vd va 0 sz.bits m 17 sc)
  | .vnegInt sz vd va m sc => some (packV 52 vd va 0 sz.bits m 18 sc)
  | .vcvt src dst part sat vd va m sc => some (packV 0x35 vd va src dst m (0#1 ++ part ++ BitVec.ofBool sat) sc)
  | .vshufD vd va vb m sc => some (packV 0x36 vd va vb 0 m 0 sc)
  | .vshufW vd va vb m sc => some (packV 0x36 vd va vb 0 m 1 sc)
  | .vshufB vd va vb m sc => some (packV 0x36 vd va vb 0 m 2 sc)
  | .vselD vd va vb m sc => some (packV 0x36 vd va vb 0 m 3 sc)
  | .vselW vd va vb m sc => some (packV 0x36 vd va vb 0 m 4 sc)
  | .vbcastD vd ws m sc => some (packV 0x36 vd 0 (wsHi ws) (wsLo ws) m 5 sc)
  | .vbcastW vd ws m sc => some (packV 0x36 vd 0 (wsHi ws) (wsLo ws) m 6 sc)
  | .vextD ws va k sc => some (packV 0x36 k va (wsHi ws) (wsLo ws) 0 7 sc)
  | .vextW ws va k sc => some (packV 0x36 k va (wsHi ws) (wsLo ws) 0 8 sc)
  | .vinsD vd ws k sc => some (packV 0x36 vd k (wsHi ws) (wsLo ws) 0 9 sc)
  | .vinsW vd ws k sc => some (packV 0x36 vd k (wsHi ws) (wsLo ws) 0 10 sc)
  | .vmand md ma mb sc => some (packV 0x36 (md.setWidth 4) (ma.setWidth 4) (mb.setWidth 4) 0 0 11 sc)
  | .vmor md ma mb sc => some (packV 0x36 (md.setWidth 4) (ma.setWidth 4) (mb.setWidth 4) 0 0 12 sc)
  | .vmxor md ma mb sc => some (packV 0x36 (md.setWidth 4) (ma.setWidth 4) (mb.setWidth 4) 0 0 13 sc)
  | .vmnot md ma sc => some (packV 0x36 (md.setWidth 4) (ma.setWidth 4) 0 0 0 14 sc)
  | .vmput md ws sc => some (packV 0x36 (md.setWidth 4) 0 (wsHi ws) (wsLo ws) 0 15 sc)
  | .vmget ws ma sc => some (packV 0x36 0 (ma.setWidth 4) (wsHi ws) (wsLo ws) 0 16 sc)
  | .vmov vd va m sc => some (packV 0x36 vd va 0 0 m 17 sc)
  | .vld vd ws sc => some (packV 0x37 vd 0 (wsHi ws) (wsLo ws) 0 0 sc)
  | .vstD vd ws m sc => some (packV 0x37 vd 0 (wsHi ws) (wsLo ws) m 1 sc)
  | .vstW vd ws m sc => some (packV 0x37 vd 0 (wsHi ws) (wsLo ws) m 2 sc)
  | .vstB vd ws m sc => some (packV 0x37 vd 0 (wsHi ws) (wsLo ws) m 3 sc)
  | .mlease e sc => some (packC 56 e 0 0 0 0 sc)
  | .mrel e sc => some (packC 56 e 1 0 0 0 sc)
  | .mfmt e a b set sc => some (packC 56 e 2 a b (set.setWidth 4) sc)
  | .mgeo e a set sc => some (packC 56 e 3 a 0 (set.setWidth 4) sc)
  | .mloadw e a b set sc => some (packC 56 e 4 a b (set.setWidth 4) sc)
  | .mswap e sc => some (packC 56 e 5 0 0 0 sc)
  | .mstream e a b src sc => some (packC 56 e 6 a b src.bits sc)
  | .mdrain e sc => some (packC 56 e 7 0 0 0 sc)
  | .gather e a b src sc => some (packC 57 e 0 a b src.bits sc)
  | .scatter e a b src sc => some (packC 57 e 1 a b src.bits sc)
  | .scatterAdd e a b src sc => some (packC 57 e 2 a b src.bits sc)
  | .hset a h sc => some (packC 57 0 3 a 0 (2#2 ++ h) sc)
  | .hget a h sc => some (packC 57 0 4 a 0 (2#2 ++ h) sc)
  | .hld e a b h sc => some (packC 57 e 5 a b (2#2 ++ h) sc)
  | .hst e a b h sc => some (packC 57 e 6 a b (2#2 ++ h) sc)
  | .cpy e a b set sc => some (packC 58 e 0 a b (set.setWidth 4) sc)
  | .cpy2 e a b set sc => some (packC 58 e 1 a b (set.setWidth 4) sc)
  | .cpy3 e a b set sc => some (packC 58 e 2 a b (set.setWidth 4) sc)
  | .fwait e sc => some (packC 58 e 8 0 0 0 sc)
  | .ftest e a sc => some (packC 58 e 9 a 0 0 sc)
  | .fcancel e sc => some (packC 58 e 10 0 0 0 sc)
  | .fpassRead e a sc => some (packC 58 e 11 a 0 0 sc)
  | .fpassWrite e a sc => some (packC 58 e 12 a 0 0 sc)
  | .spmap e a b sc => some (packC 59 e 0 a b 0 sc)
  | .spfree e a b sc => some (packC 59 e 1 a b 0 sc)
  | .sppin e a b sc => some (packC 59 e 2 a b 0 sc)
  | .spmig e a sc => some (packC 59 e 3 a 0 0 sc)
  | .spflush e a b sc => some (packC 59 e 4 a b 0 sc)
  | .sbind port a b sc => some (packC 59 (port.setWidth 3) 8 a b 0 sc)
  | .sfree port sc => some (packC 59 (port.setWidth 3) 9 0 0 0 sc)
  | .qbind a sc => some (packC 59 0 10 a 0 0 sc)
  | .fence scope sc => some (packM 0x3C 0 0 0 scope.bits 0 sc)
  | .fenceX scope sc => some (packM 0x3C 0 0 0 scope.bits 1 sc)
  | .bar scope a sc => some (packM 0x3C 0 a 0 scope.bits 2 sc)
  | .barjoin scope a sc => some (packM 0x3C 0 a 0 scope.bits 3 sc)
  | .barleave scope a sc => some (packM 0x3C 0 a 0 scope.bits 4 sc)
  | .wait scope a b sc => some (packM 0x3C 0 a b scope.bits 5 sc)
  | .publish scope a sc => some (packM 0x3C 0 a 0 scope.bits 6 sc)
  | .csrr d csr sc => some (packS 0x3D d 0 0 csr sc)
  | .csrw csr a sc => some (packS 0x3D 0 a 1 csr sc)
  | .csrs csr a sc => some (packS 0x3D 0 a 2 csr sc)
  | .csrc csr a sc => some (packS 0x3D 0 a 3 csr sc)
  | .nop sc => some (packR 62 0 0 0 0 sc)
  | .eret sc => some (packR 62 0 0 0 1 sc)
  | .trap a sc => some (packR 62 0 a 0 2 sc)
  | .wpsw d a sc => some (packR 62 d a 0 3 sc)
  | .sleep sc => some (packR 62 0 0 0 4 sc)
  | .brk sc => some (packR 62 0 0 0 5 sc)
  | .systemTrapEnter _ => none
  | .resultArrive _ _ => none
  | .fwdDepositLand _ _ _ => none
  | .queueDwordLand _ _ _ _ => none
  | .streamElementArrive _ _ _ => none
  | .workspaceMoveDone _ _ => none
  | .taskDispatch _ => none
  | .taskRecordArrive _ _ => none
  | .inboundRecordAdmit _ => none
  | .spillReplay _ => none
  | .balance _ => none
  | .sluiceSample => none
  | .sluiceBroadcast _ _ => none
  | .budgetPeriod => none
  | .wispRepair _ => none
  | .pageInDone _ _ => none
  | .pagePullDone _ _ => none
  | .blockMove _ => none
  | .ticketRegister _ _ => none
  | .commandComplete _ _ => none
  | .promiseDue _ _ => none
  | .leaseGrant _ => none
  | .leaseRearbitrate _ => none
  | .sliceExpiry _ _ => none
  | .preempt _ _ => none
  | .tilePowerGate _ => none
  | .tileWake _ => none
  | .powerInterval _ => none
  | .lqctlMap _ => none
  | .lqctlUnmap _ => none
  | .lqnotify _ _ => none
  | .launchStart _ => none
  | .hfgo => none
  | .hostFenceDone => none
  | .xinvc _ _ => none
  | .xinvDone _ => none
  | .atreqGo => none
  | .attestDone => none
  | .spcfgApply _ => none
  | .registerWrite _ _ => none
  | .hostRead _ _ _ => none
  | .hostWrite _ _ _ => none
  | .hostAtomicop _ _ _ _ _ _ => none
  | .cxlMemAccess _ _ _ => none
  | .cxlSnoop _ _ => none
  | .atomicopCompletion _ _ _ => none
  | .reads _ _ => none
  | .readx _ _ => none
  | .upgrade _ _ => none
  | .writeback _ _ => none
  | .fwddata _ _ => none
  | .fwdnone _ _ => none
  | .invack _ _ => none
  | .dataS _ _ => none
  | .dataE _ _ => none
  | .dataM _ _ => none
  | .upgack _ _ => none
  | .inv _ _ => none
  | .fwds _ _ => none
  | .fwdx _ _ => none
  | .wback _ _ => none
  | .invRetryTimeout _ => none
  | .causewayTimeout _ => none
  | .remoteSpawnArrive _ _ _ => none
  | .remoteSpawnAck _ => none
  | .remoteSpawnRefuse _ _ => none
  | .powerOnReset => none
  | .packageReset => none
  | .fullServiceStart => none
  | .tileRetire _ => none
  | .bridgeFailure _ _ => none
  | .tcsUncorrectable _ _ => none
  | .hbmUncorrectable _ => none
  | .l2Uncorrectable _ _ => none
  | .l1Uncorrectable _ _ _ => none
  | .frameUncorrectable _ _ => none
  | .remoteAccessArrive _ _ _ => none
  | .dieLinkFailure _ _ => none
  | .storeAcknowledge _ => none
  | .publishComplete _ _ => none
  | .crdeclInForce _ _ => none
  | .cxlOperationChange _ => none

end Sys2Proof
end

