-- ==== Sys2Proof/Config.lean ====
section
/-!
DEFINITION. What the spec leaves open: free values. Each constant has no body, so nothing can be proved about its value;
each is applied to a counter of State (`fresh`), to the operands it depends on, or to a byte's place in a report.
-/
namespace Sys2Proof.Config

/-- A latency the spec gives as "about" or does not give, in cycles (R25, R59, R165; log 2). -/
opaque latency : Nat → Nat
/-- A choice the spec leaves to the device: a victim, an order, one of several children (R167, R201, R237; log 17, 18, 19). -/
opaque choice : Nat → Nat
/-- A byte read from another package over Causeway (R301; log 11). -/
opaque remoteByte : Nat → Nat → Byte
/-- The firmware image that the boot ROM verifies is signed by a certified key (R306; log 12). -/
opaque firmwareVerified : Nat → Bool
/-- Byte i of the identity certificate (R306; log 12). -/
opaque certificateByte : Nat → Byte
/-- Byte i of the serial number (R307; log 12). -/
opaque serialByte : Nat → Byte
/-- Byte i of the SHA-384 of the running firmware image (R307; log 12). -/
opaque firmwareDigest : Nat → Byte
/-- Byte i of the SHA-384 of the fuse state and the retired-tile map, which it depends on (R307; log 12). -/
opaque fuseDigest : List Nat → Nat → Byte
/-- Byte i of the ECDSA signature over the report bytes (R307; log 12). -/
opaque signatureByte : Nat → List Byte → Nat → Byte
/-- The node number that firmware sets when it configures the fabric, from the one it finds (R19; log 12). -/
opaque nodeNumber : Nat → Nat → Nat
/-- An island's projected power in W at a clock step, from its reported current (R304; log 20). -/
opaque projectedPower : Nat → Nat → Nat

/-- The current that an island reports for an interval (R304; log 20). -/
opaque reportedCurrent : Nat → Nat → Nat

end Sys2Proof.Config
end

