-- ==== Sys2Proof/Machine/State.lean ====
section
/-!
DEFINITION. The state of the ZR9 as plain data: every piece of state the spec names (INVENTORY.md, "## State"), the
faults and refusals of the model, and the state after reset.
-/
namespace Sys2Proof.Machine

/-- A finite map from numbers: a list of pairs with rising keys (kept by `AMap.set` and `AMap.erase` of Ops). -/
abbrev AMap (α : Type) := List (Nat × α)

/-- Why the machine stops: it never does. No rule of the spec stops the package; every trap, wait and machine check is a
next state (log 51). -/
inductive Fault
deriving DecidableEq, Repr

/-- Why an instruction has no meaning. -/
inductive Refusal
  /-- Raised by an arm of exec that has no meaning yet. Safe. -/
  | notModelled (mnemonic : String)
deriving DecidableEq, Repr

/-! ## Contexts -/

/-- Why a slot is Waiting (R67). Every reason but sleep and the last seven is met by trying the instruction again (R165: "the
instruction is replayed"); fwdEmpty, qinEmpty, qoutFull, barrier and sleep are the sleep of R62. A system context that runs no
handler is idle, or serving while Peat or the spill service keeps it awake. -/
inductive Wait
  | scoreboard | entry
  | fwdEmpty | fwdFull | qinEmpty | qoutFull
  | page | store | line | speculative | memWord | ticket | fence | resource | undo | killKey
  | barrier | sleep
  | atomicOp | remote | publish | crdecl
  | deferred
  | idle
  | serving
deriving DecidableEq, Repr

/-- Slot states (R67). -/
inductive Status
  | free
  | ready
  | waiting (why : Wait)
  | halted
deriving DecidableEq, Repr

/-- A trap to take: cause, trap word and second value (R274), and the marks of R280. -/
structure TrapInfo where
  cause : Nat
  word  : Word
  val2  : Word
  held  : Bool
  eng   : Bool
  dfr   : Bool
  /-- Taken at the supervisor vector whatever its cause (R276). -/
  sup   : Bool
  /-- What epc addresses: the instruction, or the one after it (R274). -/
  after : Bool
deriving DecidableEq, Repr

/-- One level of trap state (R280). -/
structure TrapState where
  cause   : Word
  epc     : Word
  epsw    : Word
  word    : Word
  val2    : Word
  scratch : Word
deriving DecidableEq, Repr


/-- Where an access lands: a physical address, or an offset of a block's scratchpad space. -/
inductive Loc
  | mem (pa : Nat)
  | scr (blk off : Nat)
deriving DecidableEq, Repr

/-- A fetched-ahead stream element (R81): its port, address, place and value, or the trap its fetch met (R437). It can be popped
from the cycle `ready` on (R301); one of memory type 3 is read only by its pop (R219). -/
structure AheadElt where
  port  : Nat
  addr  : Word
  loc   : Option Loc
  val   : Word
  trap  : Option TrapInfo
  ready : Nat
  atPop : Bool
  /-- A younger read has made its value too old to pop: it is fetched again (R213, R218). -/
  stale : Bool
deriving DecidableEq, Repr

/-- A variable-latency result that has not arrived (R68, R71). -/
structure PendResult where
  reg : RegRef
  val : BitVec 512
deriving DecidableEq, Repr

/-- A fixed-latency result: its register is empty until the cycle named (R70). -/
structure BusyResult where
  reg   : RegRef
  until_ : Nat
deriving DecidableEq, Repr

/-- A context: its workspace (R72), its full/empty bits (R71), its trap state (R280) and what its task keeps. -/
structure Ctx where
  /-- Scalar registers w0..w63 (R72, R79). -/
  w        : Vector Word 64
  /-- Vector registers (R79). -/
  v        : Vector Line 16
  /-- Mask registers (R72, R79). -/
  m        : Vector Word 8
  /-- Ticket registers (R79). -/
  e        : Vector Word 8
  /-- Handle registers (R79). -/
  h        : Vector Line 4
  /-- Symbolic tag of each scalar register (R73). -/
  tag      : Vector (BitVec 3) 64
  /-- Program counter, a code offset (R72). -/
  pc       : BitVec 24
  /-- Program status word (R74). -/
  psw      : Word
  /-- Port bindings of the context (R75). -/
  ctxf     : Word
  /-- Trap word (R72). -/
  trapWord : Word
  /-- State of stream ports s0..s3 (R75). -/
  stream   : Vector (BitVec 128) 4
  /-- User trap state: tcause, tepc, tepsw, tword, tval2, tscratch (R280). -/
  user     : TrapState
  /-- Supervisor trap state: scause, sepc, sepsw, sword, sval2, sscratch (R280). -/
  sup      : TrapState
  /-- Variable-latency results that have not arrived (the empty registers) (R68, R71). -/
  results  : List PendResult
  /-- Fixed-latency results with the cycle in which each is readable (R70, R71). -/
  busy     : List BusyResult
  /-- Slot state (R67). -/
  status   : Status
  /-- Earliest next issue (R69). -/
  next     : Nat
  /-- Instruction fetch buffer (R86). -/
  fetchBuf : List (Nat × BitVec 32)
  /-- Stream elements fetched ahead (R81). -/
  ahead    : List AheadElt
  /-- Wake event pending (R444). -/
  wake     : Bool
  /-- Barrier registrations (R224). -/
  regs     : List Word
  /-- Generation observed by a BAR whose arrival is counted (R355). -/
  barGen   : Option (Word × BitVec 32)
  /-- Held fault of an ordered task (R202). -/
  heldFault : Option TrapInfo
  /-- The ticket that an FWAIT of the context waits on (R254). -/
  waitOn : Option Word
  /-- The cycle of the task's dispatch or resumption (R65). -/
  dispatched : Nat
  /-- The start of the slice count (R286). -/
  sliceStart : Nat
  /-- The slice has run out and a task waits for the slot (R287). -/
  preempt : Bool
  /-- The cycle in which the context's accumulator operations are complete (R148). -/
  accDone : Nat
  /-- What a load of several dwords has read, the rest still to be performed (R322, R484). -/
  got : List Byte
  /-- The task in the slot; for the system context, the launch and block its handler works for (R502). -/
  task     : TaskRec
deriving DecidableEq, Repr

/-! ## Speculation -/

/-- A half-open set of lines of a memory (by ASID) or of a block's scratchpad, locked by an engine command (R230). -/
structure LockRange where
  scratch : Bool
  /-- The ASID of a memory range, the block of a scratchpad range. -/
  space   : Nat
  firstLine : Nat
  lastLine  : Nat
  write   : Bool
deriving DecidableEq, Repr

/-- An undo entry (R187). -/
structure UndoEntry where
  kind  : Nat
  place : Nat
  val   : Word
  /-- The virtual address of the write, for the range-lock check of a restore (R231); for kind 3 the whole pool descriptor, of
  which `place` holds the 52 bits that fit (DESIGN CHOICE, log 94). -/
  va    : Word
deriving DecidableEq, Repr

/-- An operand of a constraint or of a symbolic record: a symbol plus a constant, or an untagged value (R192). -/
inductive SymVal
  | sym (j : Nat) (c : Word)
  | val (x : Word)
deriving DecidableEq, Repr

/-- The comparisons of R192. -/
inductive SymCmp | eq | ne | lt | ge | ltu
deriving DecidableEq, Repr

structure SymLoad where
  va   : Word
  loc  : Loc
  size : Nat
  val  : Word
deriving DecidableEq, Repr

structure SymCons where
  cmp : SymCmp
  l   : SymVal
  r   : SymVal
  out : Bool
deriving DecidableEq, Repr

structure SymStore where
  va   : Word
  loc  : Loc
  size : Nat
  sym  : Nat
  c    : Word
deriving DecidableEq, Repr

/-- What the repair under way has done of a symbolic spawn: nothing, killed the old child, sent the new one (R196). -/
inductive SpawnStep | idle | killed | sent
deriving DecidableEq, Repr

/-- A symbolic spawn (R194): the record as sent, and its timestamp and a0..a3 as symbols or values. -/
structure SymSpawn where
  rec_ : TaskRec
  hint : Word
  ts   : SymVal
  args : List SymVal
  step : SpawnStep
deriving DecidableEq, Repr

/-- Commutative-range formats (R206). -/
inductive CrFmt | i64 | f32 | f64
deriving DecidableEq, Repr

/-- An operation held until commit (R205). -/
inductive HeldOp
  | spawnf (child : TaskRec) (hint : Word)
  | poolput (elem desc : Word)
  | crdecl (fmt : CrFmt) (base len : Word)
  | cradd (va val : Word)
deriving DecidableEq, Repr

/-- Where an uncommitted ordered task with a signature slot stands (R51, R181). -/
inductive SpecSt | running | queued | finished
deriving DecidableEq, Repr

/-- An uncommitted ordered task: its signature slot with everything the slot holds (R181). -/
structure Spec where
  /-- Its record (R46). -/
  task    : TaskRec
  /-- Its address space (R158). -/
  asid    : Nat
  /-- The tile that holds it (R181). -/
  tile    : Nat
  /-- Its state (R51). -/
  st      : SpecSt
  /-- Its signature slot (R181). -/
  slot    : Nat
  /-- Order of its slot among the tile's (R199). -/
  since   : Nat
  /-- Read signature (R179). -/
  rsig    : BitVec 2048
  /-- Write signature (R179). -/
  wsig    : BitVec 1024
  /-- Undo log, in program order (R187). -/
  undo    : List UndoEntry
  /-- Undo pool elements it holds (R187, R188). -/
  elems   : List Word
  /-- Entries used of its newest element (R187). -/
  used    : Nat
  /-- Dwords that the log records once (R187). -/
  plain   : List Nat
  /-- Symbolic loads (R190, R195). -/
  syms    : List SymLoad
  /-- Constraints (R192, R195). -/
  cons    : List SymCons
  /-- Symbolic stores (R193, R195). -/
  sstores : List SymStore
  /-- Symbolic spawns (R194, R195). -/
  sspawns : List SymSpawn
  /-- Operations held until commit (R205). -/
  held    : List HeldOp
  /-- The earliest task runs without a log (R189). -/
  unlogged : Bool
  /-- A repair is under way (R197). -/
  repairing : Bool
  /-- A repair is asked for (R197). -/
  pending  : Bool
  /-- Eligible for repair (psw.elig of its workspace) (R190, R281). -/
  elig     : Bool
deriving DecidableEq, Repr

/-- A kill key (R201): every child of Concat(ts, tb), or one child with the fields named. -/
structure KillKey where
  /-- The launch (R201). -/
  lq   : Nat
  /-- The parent's timestamp (R201). -/
  ts   : Word
  /-- The parent's tiebreaker (R201). -/
  tb   : BitVec 32
  /-- A key for one child: its timestamp and arguments (R201). -/
  one  : Option (Word × List Word)
  /-- The package cycle of the kill, then of the key's broadcast (R201). -/
  at_  : Nat
  /-- A one-child key that has taken its child (R201). -/
  used : Bool
  /-- The children that the key means have lower numbers: it was sent for the spawns made before the kill (log 19). -/
  before : Nat
  /-- A one-child key sent again for the child already chosen, which could not be aborted yet (R201). -/
  only : Option Nat
deriving DecidableEq, Repr

/-! ## Launches and blocks -/

/-- A declared commutative range (R207); `live` once it is in force at every slice (R371). -/
structure CrRange where
  fmt  : CrFmt
  base : Word
  len  : Nat
  live : Bool
deriving DecidableEq, Repr

/-- A declared publication region (R232, R233). -/
structure PubRegion where
  desc  : Word
  base  : Word
  len   : Nat
  scope : Nat
  /-- The context that closes the current phase, with its stall count and the register that names the descriptor (R235). -/
  closer : Option (Nat × Stall × Reg)
  /-- The contexts whose PUBLISH waits for its turn, in arrival order (R235). -/
  queue  : List (Nat × Stall × Reg)
deriving DecidableEq, Repr

/-- One entry of a domain map (R43). -/
structure DomEntry where
  domain : Nat
  scope  : Nat
  first  : Nat
  count  : Nat
deriving DecidableEq, Repr

/-- The values a Sluice round carries for a launch (R59, R201). -/
structure RoundSum where
  minvt  : Nat
  tsent  : BitVec 64
  trecv  : BitVec 64
  qsent  : BitVec 64
  qrecv  : BitVec 64
  eng    : Nat
  idle   : Bool
  asleep : Bool
  anyAsleep : Bool
  oldsend : Nat
deriving DecidableEq, Repr

/-- A Sluice round on its way (R59): its number, sample cycle, sums by launch queue, and the kill keys it carries. -/
structure Round where
  no    : Nat
  at_   : Nat
  sums  : AMap RoundSum
  kills : List KillKey
  /-- One-child keys that a tile reports used up. -/
  spent : List KillKey
deriving DecidableEq, Repr

/-- A running launch (R38..R45). -/
structure Launch where
  /-- Its launch queue (R34). -/
  lq      : Nat
  /-- Address space (R38). -/
  asid    : Nat
  /-- Repair is enabled (R38). -/
  rep     : Bool
  /-- psw.chk of its tasks (R38, R71). -/
  chk     : Bool
  /-- Address of the code (R38). -/
  code    : Word
  /-- Size of the code (R38). -/
  codesz  : Nat
  /-- Pages of each block's scratchpad (R38, R160). -/
  sppages : Nat
  /-- Least resident pages (R38, R54). -/
  minres  : Nat
  /-- Spill pool descriptor (R38, R57). -/
  spill   : Word
  /-- Undo pool descriptor (R38, R187). -/
  undo    : Word
  /-- Allocation pool descriptor (R38, R113). -/
  alloc   : Word
  /-- Peat area (R38, R163). -/
  peat    : Nat
  /-- User vector table (R277). -/
  uvec    : List (BitVec 32)
  /-- Supervisor vector table (R277). -/
  svec    : List (BitVec 32)
  /-- Activity budgets (R38, R40, R56). -/
  budget  : Word
  /-- Time slice (R286). -/
  slice   : Nat
  /-- The slice was below 96 (R286). -/
  clamp   : Bool
  /-- Where the done word goes (R38, R40). -/
  done    : Nat
  /-- Where the status word stands (R40). -/
  statusAt : Nat
  /-- Domain map (R43). -/
  dmap    : List DomEntry
  /-- Priority in force (R41, R54). -/
  prio    : Nat
  /-- Order in which launches started (R41). -/
  started : Nat
  /-- Tile set (R42). -/
  tiles   : List Nat
  /-- Context cap of a tile (R43, R54). -/
  cap     : Nat
  /-- Its block numbers (R41, R50). -/
  blocks  : List Nat
  /-- The round before (R61). -/
  prev    : Option Round
  /-- The last cycle in which a task or queue message of the launch was sent, or a task dispatched (R61). -/
  lastSent : Nat
  /-- The all-asleep trap may be raised (R64). -/
  trapArmed : Bool
  /-- Commutative ranges (R207). -/
  ranges  : List CrRange
  /-- Publication regions (R232, R233). -/
  regions : List PubRegion
  /-- Activity charged in the period (R56). -/
  spent   : List Nat
  /-- Remote spawns not yet acknowledged (R302). -/
  remoteOut : Nat
deriving DecidableEq, Repr

/-- Block states (R53). -/
inductive BlockSt | resident | draining | stopping | moving
deriving DecidableEq, Repr

/-- Page states (R164). -/
inductive PageSt | unmapped | framed | parked
deriving DecidableEq, Repr

/-- A page of a block: its page-table entry (R164). -/
structure Page where
  /-- State (R164). -/
  st    : PageSt
  /-- Locked (R164). -/
  lock  : Bool
  /-- Pinned (R164, R170). -/
  pin   : Bool
  /-- Dirty (R164). -/
  dirty : Bool
  /-- A workspace (R161, R164). -/
  ws    : Bool
  /-- Tile of its frame (R164). -/
  tile  : Nat
  /-- Frame index on that tile (R164). -/
  frame : Nat
deriving DecidableEq, Repr

/-- A block (R50, R53). -/
structure Block where
  /-- Its launch (R50). -/
  lq     : Nat
  /-- Index in the launch (R50). -/
  idx    : Nat
  /-- The tile where it stands (R42, R53). -/
  tile   : Nat
  /-- State (R53). -/
  st     : BlockSt
  /-- Target of its move (R168). -/
  target : Nat
  /-- The cycle in which it began to stop (R85). -/
  stopAt : Nat
  /-- Execute boundary (R75, R87). -/
  xb     : Nat
  /-- Page-table entries (R164). -/
  pages  : AMap Page
  /-- Remote pages in the order of their pulls (R168). -/
  pulls  : List Nat
deriving DecidableEq, Repr

/-! ## Engines -/

/-- The engine and page commands (R111). -/
inductive CmdOp
  | mlease | mrel | mfmt | mgeo | mloadw | mswap | mstream | mdrain
  | gather | scatter | scatterAdd | hld | hst
  | cpy | cpy2 | cpy3
  | spmap | spfree | sppin | spunpin | spmig | spflush
deriving DecidableEq, Repr

/-- An outstanding command: what it captured at issue (R245), its ticket (R250) and its locks (R230). -/
structure Cmd where
  /-- The command (R111). -/
  op     : CmdOp
  /-- Register a as captured (R245). -/
  a      : Word
  /-- Register b as captured (R245). -/
  b      : Word
  /-- The parameter set as captured (R245, R246). -/
  params : List Word
  /-- The handle as captured (R266). -/
  handle : Option Line
  /-- Address space (R245). -/
  asid   : Nat
  /-- Block (R245). -/
  blk    : Nat
  /-- Launch (R245). -/
  lq     : Nat
  /-- The model's own: the task that issued it. -/
  uid    : Nat
  /-- The slot that issued it (R251). -/
  slot   : Nat
  /-- Ticket register (R111). -/
  treg   : BitVec 3
  /-- Its ticket (R250). -/
  ticket : Word
  /-- Issue cycle (R252). -/
  issued : Nat
  /-- Promise (R250, R252). -/
  due    : Nat
  /-- Generation of its entry (R250). -/
  gen    : Nat
  /-- Order of issue on the tile (R249). -/
  seq    : Nat
  /-- Registration is done (R251). -/
  registered : Bool
  /-- The address of its request to another package that is not answered, and the cycle in which it was sent (R301). -/
  asked  : Option (Word × Nat)
  /-- The cycle in which its cancellation was requested (R253, R256). -/
  cancel : Option Nat
  /-- Promise-missed has been raised for it (R254). -/
  missed : Bool
  /-- Its range locks (R230). -/
  ranges : List LockRange
deriving DecidableEq, Repr

/-- A ticket that completed as faulted and has not been delivered (R255). -/
structure FaultedTicket where
  /-- The ticket (R255). -/
  ticket : Word
  /-- Cause of the fault (R255). -/
  cause  : Nat
  /-- Index of the fault (R255). -/
  index  : Nat
deriving DecidableEq, Repr

/-- A Reedbed lease, held or requested (R257). -/
structure Lease where
  /-- Its tile (R257). -/
  tile : Nat
  /-- The model's own: the task that holds or has requested it. -/
  uid  : Nat
  /-- Its launch (R257). -/
  lq   : Nat
  /-- It has been granted and not released: no other lease of the tile is granted meanwhile (R257, R258). -/
  granted : Bool
  /-- Its task has left Running; the lease is released once the task's commands are complete (R257). -/
  leaving : Bool
deriving DecidableEq, Repr

/-- A plane of the Reedbed (R262, R263). -/
structure Plane where
  /-- Loaded by an MLOADW (R263). -/
  loaded : Bool
  /-- The tile that loaded it (R262). -/
  tile   : Nat
  /-- Weight format (R259). -/
  wfmt   : Nat
  /-- Activation format (R259). -/
  afmt   : Nat
  /-- Weights carry block scales (R259). -/
  wsc    : Bool
  /-- Activations carry block scales (R259). -/
  asc    : Bool
  /-- Reduction rows (R260). -/
  k      : Nat
  /-- Columns (R260). -/
  n      : Nat
  /-- Weights (R262). -/
  weights : List Nat
  /-- Block scales (R262). -/
  scales  : List Nat
  /-- Zero flags (R262, R264). -/
  zeros   : List Bool
deriving DecidableEq, Repr

structure ClusterS where
  /-- Active plane (R262). -/
  active : Plane
  /-- Shadow plane (R262). -/
  shadow : Plane
  /-- Lease requests in order (R257). -/
  leaseQ : List Lease
  /-- The lease in force (R257). -/
  holder : Option Lease
  /-- Cycle of the grant (R258). -/
  grantAt : Nat
  /-- Commands since the grant (R258). -/
  count  : Nat
  /-- The commands that were running when re-arbitration fell due and complete first (R258). -/
  ending : List Nat
  /-- The tasks whose repair the cluster's Wisp has been asked for, in order of request (R197). -/
  repairs : List Nat
deriving DecidableEq, Repr

/-! ## Tiles -/

/-- What a tile keeps for one launch (R48, R55, R59, R60). -/
structure TileLaunch where
  /-- Tiebreaker counter (R48). -/
  ctr      : Nat
  /-- Tasks to which the tile gave a tiebreaker (R48). -/
  numbered : List Nat
  /-- Whether the last dispatch was ordered (R55). -/
  lastKind : Option Bool
  /-- Gvt as last broadcast (R60, R113). -/
  gvt      : Nat
  /-- The model's own: the rank below which the tile's tasks may commit, Gvt but where that is all ones (log 7). -/
  front    : Nat
  /-- Task messages sent (R59). -/
  tsent    : BitVec 64
  /-- Task messages received (R59). -/
  trecv    : BitVec 64
  /-- Network-queue messages sent (R59). -/
  qsent    : BitVec 64
  /-- Network-queue messages received (R59). -/
  qrecv    : BitVec 64
deriving DecidableEq, Repr

/-- A record spilled to a pool element (R57). -/
structure Spilled where
  rec_ : TaskRec
  elem : Word
deriving DecidableEq, Repr

/-- An L1 line (R153): ASID, virtual line, physical line and spec bit (R154). -/
structure L1Line where
  asid  : Nat
  vline : Nat
  pline : Nat
  spec  : Bool
deriving DecidableEq, Repr

/-- An accumulator operation in a tile's adder: the bytes of its block that it touches and the cycles in which it starts and
completes (R148). -/
structure AccRun where
  blk    : Nat
  first  : Nat
  last   : Nat
  start  : Nat
  until_ : Nat
deriving DecidableEq, Repr

/-- A trap aimed at a system context (R285), with the launch and block it belongs to (R502). -/
structure SysTrap where
  info : TrapInfo
  lq   : Nat
  blk  : Nat
  /-- The tile that it comes from (R285). -/
  source : Nat
  /-- The model's own: the task whose held operation raised it, or 0. -/
  uid  : Nat
  /-- The cycle in which it found the queue full (R285). -/
  since : Nat
deriving DecidableEq, Repr

structure TileS where
  /-- Slot that issued last (R69). -/
  last     : Nat
  /-- Earliest next issue of a slot that a task has left (R69). -/
  slotNext : AMap Nat
  /-- Thread-context store entries of yielded and pre-empted tasks, each with its launch, the most recently used first
  (R22, R78). -/
  tcs      : List (Nat × Nat)
  /-- Slots to whose forward-in a deposit is in flight (R82). -/
  coming   : List Nat
  /-- Task queue (R31, R57). -/
  queue    : List TaskRec
  /-- Records waiting at the inbound port; a message, with the cycle in which it was sent, counts as received when it
  enters (R57, R200, R201). -/
  inbound  : List (TaskRec × Option Nat)
  /-- Records in spill pool elements (R57). -/
  spilled  : List Spilled
  /-- Spilled records are coming back, one per cycle (R57). -/
  replaying : Bool
  /-- The cycle of the last record that came back (R57). -/
  replayed : Nat
  /-- The earliest task for which room is being made (R65). -/
  roomFor  : Option Nat
  /-- What the tile keeps for each launch (R48, R59). -/
  perLaunch : AMap TileLaunch
  /-- Kill table (R201). -/
  kills    : List KillKey
  /-- Inbound network queues (R83). -/
  inq      : Vector (List (Word × Nat)) 4
  /-- Completion table with the range locks of R230 (R250, R251). -/
  cmds     : AMap Cmd
  /-- Generation of each entry (R250). -/
  gens     : AMap Nat
  /-- Faulted tickets not yet delivered (R255). -/
  faulted  : List FaultedTicket
  /-- The model's own: commands issued, for their order (R249). -/
  cmdSeq   : Nat
  /-- Reedbed parameter sets (R261). -/
  reed     : Vector (Vector Word 4) 8
  /-- rbstat.lost (R261). -/
  lost     : Bool
  /-- Heron parameter sets (R269). -/
  heron    : Vector (Vector Word 3) 8
  /-- Lode parameter sets (R271). -/
  lode     : Vector (Vector Word 6) 8
  /-- Format word of the format context (R258, R259). -/
  fmtWord  : Word
  /-- Activation-scale address (R258). -/
  scaleAddr : Word
  /-- Reduction rows (R258, R260). -/
  geoK     : Nat
  /-- Columns (R258, R260). -/
  geoN     : Nat
  /-- spcfg.req (R151). -/
  spReq    : BitVec 2
  /-- spcfg.cur (R151). -/
  spCur    : BitVec 2
  /-- L1 lines with their spec bits (R153, R154). -/
  l1       : List L1Line
  /-- Scratchpad translation buffer (R162). -/
  stlb     : List (Nat × Nat × Nat)
  /-- Frames by their last use, the most recent first (R167). -/
  used     : List Nat
  /-- Queue of the system context (R285). -/
  trapQ    : List SysTrap
  /-- Traps that found the queue full (R285). -/
  trapWait : List SysTrap
  /-- Committed tasks with the held operations that wait to be carried out (R205, R285). -/
  carry    : List (TaskRec × List HeldOp)
  /-- Operations in the adder of the wide accumulator (R148). -/
  adder    : List AccRun
  /-- Power-gated (R88). -/
  gated    : Bool
  /-- Since when every context is Free or asleep (R88). -/
  idleSince : Nat
  /-- Records waiting in the mesh for the spill pool's handler (R57). -/
  spillWait : List (TaskRec × Option Nat)
  /-- The occupancy sampled at the last balancing exchange (R58). -/
  sample : Nat
  /-- The first cycle in which a vector instruction may issue under power mode 1 (R304). -/
  vecNext : Nat
deriving DecidableEq, Repr

/-! ## Coherence -/

/-- Die L2 line states (R237). -/
inductive L2St | i | s | e | o | m | p | is_ | im | sm | mi
deriving DecidableEq, Repr

/-- Requests a home serves (R238). -/
inductive HomeReq | reads | readx | upgrade
deriving DecidableEq, Repr

/-- Stable states of a home directory line (R238). -/
inductive HomeSt | i | s | x | o | p
deriving DecidableEq, Repr

/-- A request being served in B, or retried in F (R238, R241). -/
structure Busy where
  req    : HomeReq
  die    : Nat
  acks   : List Nat
  needData : Bool
  /-- The owner answered in M or O (R238: O if the owner was M). -/
  ownerDirty : Bool
  /-- A WriteBack has served as the forward's response (R334). -/
  served : Bool
  /-- The owner answered FwdNone. -/
  absent : Bool
  /-- The home is in F (R241). -/
  retry  : Bool
deriving DecidableEq, Repr

structure HomeLine where
  /-- Stable state (R238). -/
  st    : HomeSt
  /-- Owner (R238). -/
  owner : Nat
  /-- Sharers (R238). -/
  mask  : List Nat
  /-- The request in B or F, with what is still awaited (R238, R241). -/
  busy  : Option Busy
  /-- Requests that wait (R238). -/
  queue : List (HomeReq × Nat)
  /-- Dies whose next FwdData is dropped (R238, R240). -/
  drops : List Nat
deriving DecidableEq, Repr

/-- A translation buffer entry of a tile's L2 slice (R157). -/
structure TlbEntry where
  /-- The tile whose slice holds it (R157). -/
  tile  : Nat
  /-- Address space (R157). -/
  asid  : Nat
  /-- Virtual page (R157). -/
  vpn   : Nat
  /-- Page size (R158). -/
  size  : Nat
  /-- The leaf entry (R158). -/
  pte   : Word
deriving DecidableEq, Repr

/-- The speculative-access vector of a line on a die and its spec-die bit (R182). -/
structure SpecVec where
  /-- Die (R182). -/
  die   : Nat
  /-- Line (R182). -/
  line  : Nat
  /-- Tiles named (R182). -/
  tiles : List Nat
  /-- The vector turned into a cluster mask at the fifth tile. -/
  broad : List Nat
  /-- The line left its slice; its checks go to every tile of the die. -/
  away  : Bool
deriving DecidableEq, Repr

/-- A private line of a publication region (R234): die, line, and the bytes written. -/
structure PrivLine where
  /-- Die (R234). -/
  die   : Nat
  /-- Line (R234). -/
  line  : Nat
  /-- The launch and the descriptor of the region. -/
  lq    : Nat
  /-- Descriptor of the region (R234). -/
  desc  : Word
  /-- The bytes written (R234). -/
  bytes : List (Nat × Byte)
deriving DecidableEq, Repr

/-- An exact partial of one element of a line in state P (R208): an integer scaled by the format's least subnormal,
with the flags for NaN, +∞ and −∞. `slice` is 24·y + x on `die`; `atHome` marks the home's own partial. -/
structure Partial where
  /-- Die (R208). -/
  die    : Nat
  /-- L2 slice (R208). -/
  slice  : Nat
  /-- The home's own partial (R208). -/
  atHome : Bool
  /-- The element (R208). -/
  pa     : Nat
  /-- Format (R206). -/
  fmt    : CrFmt
  /-- The partial sum (R208). -/
  sum    : Int
  /-- NaN flag (R208). -/
  nan    : Bool
  /-- +∞ flag (R208). -/
  pinf   : Bool
  /-- −∞ flag (R208). -/
  ninf   : Bool
deriving DecidableEq, Repr

/-- Where a store goes (R210). -/
inductive StoreTo | memory | scratch | uncached
deriving DecidableEq, Repr

/-- A store issued and not yet performed (R210): its bytes by physical address, or by block and offset. -/
structure PendStore where
  /-- The model's own: order of issue. -/
  id    : Nat
  /-- The model's own: its task, whose context wrote it (R210). -/
  uid   : Nat
  /-- Its tile (R210). -/
  tile  : Nat
  /-- Its launch (R210). -/
  lq    : Nat
  /-- Of an ordered task (R186). -/
  ord   : Bool
  /-- Where it goes (R210). -/
  into  : StoreTo
  /-- Block of a scratchpad store (R160). -/
  blk   : Nat
  /-- Virtual address (R231). -/
  va    : Word
  /-- The bytes by address (R210). -/
  bytes : List (Nat × Byte)
  /-- An ST.CLR (R462). -/
  clear : Bool
  /-- Its instruction, for a late fault (R275). -/
  epc   : Nat
  /-- The out-bound stream port it came from (R81). -/
  port  : Option Nat
  /-- The other package will not acknowledge it (R301). -/
  lost  : Bool
  /-- The device L2 holds the line for this store's write (R237: "the waiting write"). -/
  ready : Bool
  /-- The node and the address there to which a store through the Causeway window goes (R300). -/
  target : Option (Nat × Nat)
deriving DecidableEq, Repr

/-- A WAIT under way (R494): its task, the address and the value it read at issue, where the dword stands, and whether a write
to its line has been performed since its last load. -/
structure Watch where
  uid : Nat
  va  : Word
  val : Word
  loc : Loc
  due : Bool
deriving DecidableEq, Repr

/-- A request outstanding outside the package: a PCI Express AtomicOp or a Causeway access (R299, R301). -/
structure OutReq where
  /-- The model's own: its number. -/
  id     : Nat
  /-- Its context (R299). -/
  ctx    : Nat
  /-- The model's own: its task. -/
  uid    : Nat
  /-- Address (R299, R301). -/
  pa     : Nat
  /-- Destination registers, in order, and the operand registers to pop at completion. -/
  regs   : List RegRef
  /-- Operand registers to pop at completion (R299). -/
  reads  : List Reg
  /-- The access (R299, R301). -/
  what   : RemoteOp
  /-- Sign-extend (R301). -/
  signed : Bool
  /-- A PCI Express AtomicOp (R299); otherwise a Causeway access (R301). -/
  toHost : Bool
  /-- The virtual address of a load that becomes a symbol of its task at its answer (R190). -/
  sym    : Option Word
  /-- For an AtomicOp: the bytes of host memory when it was sent, and the writes of them since, oldest first (R299). -/
  base   : List Byte
  since  : List (Nat × List Byte)
deriving DecidableEq, Repr

/-- What the device sends outside (R297, R299, R301, R302). -/
inductive Out
  | completion (status : HostStatus) (poisoned : Bool) (data : List Byte)
  | msix (vector : Nat)
  | remoteSpawn (node : Nat) (rec_ : TaskRec)
  | spawnAck (node lq : Nat) (accepted : Bool)
  | request (node : Option Nat) (id pa : Nat) (data : List Byte)
  | response (node : Nat) (data : List Byte)
  | snoopReply (line : Nat) (hadData : Bool)
  | backInval (line : Nat)
deriving DecidableEq, Repr

/-! ## Host requests -/

/-- What a host request asks for (R242, R293, R298, R323). -/
inductive HostWhat
  | read (bar : HostBar) (off width : Nat)
  | write (bar : HostBar) (off : Nat) (data : List Byte)
  | atomic (bar : HostBar) (op : HostAtomic) (off width value cmp : Nat)
  | cxl (pa width : Nat) (data : Option Nat)
  | snoop (line : Nat) (excl : Bool)
  /-- An access that another package makes here (R301). -/
  | remote (node pa : Nat) (op : RemoteOp)
deriving DecidableEq, Repr

/-- A host request that waits: its number, and the server whose requests stay in order (a service core of R27 is 0..31). -/
structure HostReq where
  /-- Order of arrival (R242). -/
  id   : Nat
  /-- Its service core (R27, R242). -/
  core : Nat
  /-- What it asks for, less what has been done of it (R242, R293, R322). -/
  what : HostWhat
  /-- What a read has got so far (R322). -/
  got  : List Byte
  /-- The cycle after the last in which an AtomicOp was tried (R347). -/
  tried : Nat
deriving DecidableEq, Repr

/-! ## Launch queues and registers -/

structure LaunchQ where
  /-- lqring.base (R34). -/
  base    : Nat
  /-- lqring.lgsize (R34). -/
  lgsize  : Nat
  /-- lqctl.map (R34). -/
  map     : Bool
  /-- lqctl.en (R34). -/
  en      : Bool
  /-- lqctl.prio (R34). -/
  prio    : Nat
  /-- lqsave has been written, or the queue mapped, since reset: lqctl's en and prio are then the save area's while it is
  unmapped (R37; log 101). -/
  named   : Bool
  /-- A launch runs (R34, R40). -/
  run     : Bool
  /-- Head (R34). -/
  head    : BitVec 16
  /-- Tail (R34). -/
  tail    : BitVec 16
  /-- lqsave.addr (R34, R36). -/
  save    : Nat
  /-- lqstat.started (R34). -/
  started : BitVec 32
  /-- lqstat.refused (R34). -/
  refused : BitVec 16
  /-- lqstat.badn (R34, R37). -/
  badn    : Bool
  /-- lqstat.wait (R34). -/
  wait    : Bool
  /-- The last notify stored while the queue was unmapped: its cycle, its tail, and the saved tail dword before it (R289). -/
  noted   : Option (Nat × BitVec 16 × Word)
deriving DecidableEq, Repr

structure Inval where
  /-- The value written to xinvc (R295). -/
  value : Word
  /-- xinvr's count and first page as the write found them (R159). -/
  count : Nat
  first : Nat
deriving DecidableEq, Repr

structure WalkWin where
  /-- The invalidation is done (R296). -/
  done  : Bool
  /-- xinvc.all (R296). -/
  all   : Bool
  /-- xinvc.asid (R296). -/
  asid  : Nat
  /-- xinvr count (R296). -/
  count : Nat
  /-- xinvr first page (R296). -/
  first : Nat
  /-- The writes of xinvc that start when those before them are done, oldest first (R296). -/
  held  : List Inval
  /-- Stores issued before the invalidation started have lower numbers (R159). -/
  mark  : Nat
  /-- Requests sent outside before the invalidation started have lower numbers (R159). -/
  outMark : Nat
deriving DecidableEq, Repr

/-! ## Events to come -/

/-- An event that the model itself schedules: the rows of the opcode table without a word that follow from the state. The
rows that come from outside (host requests, resets, hardware faults) are given to exec only. -/
inductive Event
  | resultArrive (uid : Nat) (reg : RegRef)
  | fwdDepositLand (tile slot : Nat) (val : Word)
  | queueDwordLand (tile dir : Nat) (val : Word) (lq : Nat)
  | streamElementArrive (tile slot port : Nat)
  | workspaceMoveDone (tile slot : Nat)
  | taskRecordArrive (tile : Nat) (rec_ : TaskRec) (sent : Nat)
  | balance (tile : Nat)
  | sluiceSample
  | sluiceBroadcast (round tile : Nat)
  | budgetPeriod
  | wispRepair (uid : Nat)
  | pageInDone (blk page : Nat)
  | pagePullDone (blk page : Nat)
  | blockMove (blk : Nat)
  | ticketRegister (tile entry : Nat)
  | doneTicket (tile entry : Nat) (cmd : Cmd)
  | commandComplete (tile entry : Nat)
  | promiseDue (tile slot : Nat)
  | leaseGrant (cluster : Nat)
  | leaseRearbitrate (cluster : Nat)
  | tilePowerGate (tile : Nat)
  | tileWake (tile : Nat)
  | powerInterval
  | hostServe
  | hostFenceDone
  | xinvDone (die : Nat)
  | attestDone
  | reads (die line : Nat)
  | readx (die line : Nat)
  | upgrade (die line : Nat)
  | writeback (die line : Nat)
  | fwddata (die line : Nat)
  | fwdnone (die line : Nat)
  | invack (die line : Nat)
  | dataS (die line : Nat)
  | dataE (die line : Nat)
  | dataM (die line : Nat)
  | upgack (die line : Nat)
  | inv (die line : Nat)
  | fwds (die line : Nat)
  | fwdx (die line : Nat)
  | wback (die line : Nat)
  | invRetryTimeout (line : Nat)
  | causewayTimeout (req : Nat)
  | storeAcknowledge (id : Nat)
  | publishComplete (tile slot : Nat)
  | crdeclInForce (lq base : Nat)
deriving DecidableEq, Repr

/-! ## The package -/

structure State where
  /-- Package cycle counter (R4, R113). -/
  cycle   : Nat
  /-- Causeway node number (R19). -/
  node    : Nat
  /-- Retired tiles (R32). -/
  retired : List Nat
  /-- devstat.full (R306, R33). -/
  full    : Bool
  /-- The firmware runs (R306). -/
  fwRun   : Bool
  /-- devstat.atdone (R307). -/
  atdone  : Bool
  /-- ASID root table base (R295). -/
  asidrtBase : Nat
  /-- ASID root table enable (R295). -/
  asidrtEn : Bool
  /-- cwbase base (R300). -/
  cwBase  : Nat
  /-- cwbase enable (R300). -/
  cwEn    : Bool
  /-- pctl.mode (R304). -/
  pctlMode : Nat
  /-- pctl.budget (R304). -/
  pctlBudget : Nat
  /-- Power mode in force on each island (R305). -/
  modeNow : List Nat
  /-- Clock step of each island (R304). -/
  islandStep : List Nat
  /-- atreq.addr (R306). -/
  atreqAddr : Nat
  /-- Buffer addresses of the reports under way, oldest first (R307). -/
  atreqBusy : List Nat
  /-- Report counter (R307). -/
  reportCount : Nat
  /-- hfence.seq (R243). -/
  seq     : BitVec 32
  /-- Host fences that run or wait to run, each with the number of the first request that came after its go write. -/
  fences  : List Nat
  /-- Host requests that have arrived and are not performed (R56, R184, R242). -/
  hostQ   : List HostReq
  /-- CXL operation (R292, R298). -/
  cxlOn   : Bool
  /-- Lines of device memory that the host caches through CXL.mem (R298). -/
  hostHeld : List Nat
  /-- Failed bridge links (R11, R241). -/
  linksDown : List (Nat × Nat)
  /-- Walk engine windows (R296). -/
  walk    : AMap WalkWin
  /-- Launch queues (R34). -/
  queues  : AMap LaunchQ
  /-- Memory (R150, R292). -/
  mem     : List Host.Cell
  /-- Poisoned lines (R173). -/
  poison  : List Nat
  /-- Scratchpad frames (R21, R151). -/
  frames  : List Host.Cell
  /-- Frames with an uncorrectable error (R165). -/
  frameBad : List (Nat × Nat)
  /-- L2 line states (R237). -/
  l2      : AMap L2St
  /-- Home directory (R238). -/
  home    : AMap HomeLine
  /-- Commutative partials (R208). -/
  parts   : List Partial
  /-- Private lines (R234). -/
  priv    : List PrivLine
  /-- Speculative-access vectors (R182). -/
  specVec : List SpecVec
  /-- Translation buffers (R157). -/
  tlb     : List TlbEntry
  /-- Tiles (R67). -/
  tiles   : AMap TileS
  /-- Clusters (R256). -/
  clusters : AMap ClusterS
  /-- Blocks (R50). -/
  blocks  : AMap Block
  /-- Running launches (R40). -/
  launches : AMap Launch
  /-- Uncommitted ordered tasks (R181). -/
  specs   : AMap Spec
  /-- Contexts (R67). -/
  ctxs    : AMap Ctx
  /-- What a task keeps outside its workspace page while it is Queued after TYIELD or pre-emption (R224, R280), by uid. -/
  kept    : AMap Ctx
  /-- Stores not yet performed (R210). -/
  stores  : List PendStore
  /-- The WAIT instructions that wait for their line (R494). -/
  watches : List Watch
  /-- Requests outside the package (R299, R301). -/
  remote  : List OutReq
  /-- What the device has sent outside (R297, R302). -/
  outbox  : List Out
  /-- Sluice rounds in flight (R59). -/
  rounds  : AMap Round
  /-- Kill keys on their way to the root (R201). -/
  killsUp : List KillKey
  /-- Launches started so far (R41). -/
  oldestStart : Nat
  /-- The model's own: events to come, by due cycle, first to come first. -/
  agenda  : List (Nat × Event)
  /-- The model's own: tiles that have still to take their issue turn in this cycle. -/
  turn    : List Nat
  /-- The model's own: inbound queues, by tile and direction, of the dwords popped in this cycle (R85). -/
  popped  : List (Nat × Nat)
  /-- The model's own: contexts, with their launches, that a task has left in this cycle (R85). -/
  left    : List (Nat × Nat)
  /-- The model's own: the context whose instruction exec runs, 32·tile + slot. -/
  cur     : Nat
  /-- The model's own: the instruction word that exec runs, for the trap word of R274. -/
  word    : BitVec 32
  /-- The model's own: whether an instruction is only looked at for the trap that it would raise, and that trap (R275). Outside a
  step it is none. -/
  probe   : Option (Option TrapInfo)
  /-- The model's own: counter of the free values of Config. -/
  fresh   : Nat
  /-- The model's own: next task number. -/
  nextUid : Nat
  /-- The model's own: next store number. -/
  nextStore : Nat
  /-- The model's own: next number of an outside request. -/
  nextReq : Nat
deriving DecidableEq, Repr

/-- What a meaning answers. -/
abbrev Result := Host.Outcome State Fault Refusal

/-! ## Reset -/

def TrapState.zero : TrapState := { cause := 0, epc := 0, epsw := 0, word := 0, val2 := 0, scratch := 0 }

def noTask : TaskRec :=
  { entry := 0, blk := 0, lq := 0, ord := false, pin := false, dir := false, res := false, ts := 0, tb := 0, ptb := 0,
    pts := 0, args := [0, 0, 0, 0], uid := 0 }

/-- A context that holds no task: every register zero but m0, which is all ones (R72). DESIGN CHOICE, log 3. -/
def Ctx.reset : Ctx :=
  { w := Vector.replicate 64 0, v := Vector.replicate 16 0,
    m := (Vector.replicate 8 0).set 0 (BitVec.allOnes 64), e := Vector.replicate 8 0, h := Vector.replicate 4 0,
    tag := Vector.replicate 64 0, pc := 0, psw := 0, ctxf := 0, trapWord := 0, stream := Vector.replicate 4 0,
    user := .zero, sup := .zero, results := [], busy := [], status := .free, next := 0, fetchBuf := [], ahead := [],
    wake := false, regs := [], barGen := none, heldFault := none, waitOn := none, dispatched := 0, sliceStart := 0, preempt := false, got := [], accDone := 0, task := noTask }

/-- An idle system context (R502): psw.sys is 1. -/
def Ctx.system : Ctx := { Ctx.reset with psw := 0x1000, status := .waiting .idle }

/-- A tile after reset (R69, R151, R258, R261). -/
def TileS.reset : TileS :=
  { last := 16, slotNext := [], tcs := [], coming := [], replaying := false, replayed := 0, roomFor := none, queue := [], inbound := [], spilled := [], perLaunch := [], kills := [],
    inq := Vector.replicate 4 [], cmds := [], gens := [], faulted := [], cmdSeq := 0,
    reed := Vector.replicate 8 (Vector.replicate 4 0), lost := false,
    heron := Vector.replicate 8 (Vector.replicate 3 0), lode := Vector.replicate 8 (Vector.replicate 6 0),
    fmtWord := 0x2200, scaleAddr := 0, geoK := 128, geoN := 128, spReq := 1, spCur := 1, l1 := [],
    stlb := [], used := [], trapQ := [], trapWait := [], carry := [], adder := [], gated := false, idleSince := 0, spillWait := [], sample := 0, vecNext := 0 }

/-- A plane that nothing has loaded (R263: every weight is treated as zero). Its K of 128, its BF16 activations and its lack of
block scales are the model's choice: by them an MSTREAM through it reads and locks its rows (DESIGN CHOICE, log 99). -/
def Plane.empty : Plane :=
  { loaded := false, tile := 0, wfmt := 2, afmt := 2, wsc := false, asc := false, k := 128, n := 128, weights := [],
    scales := [], zeros := [] }

def ClusterS.reset : ClusterS :=
  { active := .empty, shadow := .empty, leaseQ := [], holder := none, grantAt := 0, count := 0, ending := [], repairs := [] }

def LaunchQ.reset : LaunchQ :=
  { base := 0, lgsize := 0, map := false, en := false, prio := 0, named := false, run := false, head := 0, tail := 0, save := 0,
    started := 0, refused := 0, badn := false, wait := false, noted := none }

def WalkWin.reset : WalkWin := { done := true, all := false, asid := 0, count := 0, first := 0, held := [], mark := 0, outMark := 0 }

/-- What a number that names no running launch reads as. -/
def Launch.none : Launch :=
  { lq := 64, asid := 0, rep := false, chk := false, code := 0, codesz := 0, sppages := 0, minres := 0, spill := 0,
    undo := 0, alloc := 0, peat := 0, uvec := [], svec := [], budget := 0, slice := 0, clamp := false, done := 0,
    statusAt := 0, dmap := [], prio := 0, started := 0, tiles := [], cap := 16, blocks := [], prev := Option.none,
    lastSent := 0, trapArmed := true, ranges := [], regions := [], spent := [0, 0, 0, 0], remoteOut := 0 }

/-- What a number that names no block reads as. -/
def Block.none : Block :=
  { lq := 64, idx := 0, tile := 0, st := .resident, target := 0, stopAt := 0, xb := 0, pages := [], pulls := [] }

def Page.unmapped : Page :=
  { st := .unmapped, lock := false, pin := false, dirty := false, ws := false, tile := 0, frame := 0 }

def HomeLine.idle : HomeLine := { st := .i, owner := 0, mask := [], busy := Option.none, queue := [], drops := [] }

def TileLaunch.start : TileLaunch :=
  { ctr := 0, numbered := [], lastKind := none, gvt := 0, front := 0, tsent := 0, trecv := 0, qsent := 0, qrecv := 0 }

/-- The machine right after power-on reset: reduced service (R33, R306), no launch, translation disabled (R295). -/
def State.reset : State :=
  { cycle := 0, node := 0, retired := [], full := false, fwRun := true, atdone := false, asidrtBase := 0,
    asidrtEn := false, cwBase := 0, cwEn := false, pctlMode := 0, pctlBudget := 2400,
    modeNow := List.replicate 36 0, islandStep := List.replicate 36 0, atreqAddr := 0, atreqBusy := [],
    reportCount := 0, seq := 0, fences := [], hostQ := [], cxlOn := false, hostHeld := [], linksDown := [], walk := [], queues := [], mem := [],
    poison := [], frames := [], frameBad := [], l2 := [], home := [], parts := [], priv := [], specVec := [],
    tlb := [], tiles := [], clusters := [], blocks := [], launches := [], specs := [], ctxs := [], kept := [], stores := [],
    watches := [], remote := [], outbox := [], rounds := [], killsUp := [], oldestStart := 0, agenda := [], turn := [], popped := [], left := [],
    cur := 0, word := 0, probe := none, fresh := 0, nextUid := 1, nextStore := 1, nextReq := 1 }

end Sys2Proof.Machine
end

