-- ==== Sys2Proof/Machine/Bits.lean ====
section
/-!
DEFINITION. Bit fields, sign extension, byte order (R2, R8), and finite maps and lists as the operations use them.
-/
namespace Sys2Proof.Machine

/-! ## Patterns -/

/-- SignExtend(x, n) of R8 on the low n bits of a pattern of any width. -/
def signExtend {k : Nat} (x : BitVec k) (n : Nat) : Word :=
  BitVec.ofInt 64 ((BitVec.ofNat n x.toNat).toInt)

/-- ZeroExtend(x, n) of R8. -/
def zeroExtend {k : Nat} (x : BitVec k) (n : Nat) : Word := BitVec.ofNat 64 (x.toNat % 2 ^ n)

/-- x[h:l] as a number, h = l + n − 1 (R2). -/
def bits {k : Nat} (x : BitVec k) (l n : Nat) : Nat := x.toNat >>> l % 2 ^ n

/-- x with x[l+n−1:l] replaced. -/
def setBits {k : Nat} (x : BitVec k) (l n : Nat) (v : Nat) : BitVec k :=
  let mask := (2 ^ n - 1) <<< l
  BitVec.ofNat k ((x.toNat &&& ((2 ^ k - 1) ^^^ mask)) ||| ((v % 2 ^ n) <<< l))

def bit {k : Nat} (x : BitVec k) (i : Nat) : Bool := x.toNat.testBit i

def setBit {k : Nat} (x : BitVec k) (i : Nat) (b : Bool) : BitVec k := setBits x i 1 b.toNat

/-- The k bytes of a number, least significant first (R2). -/
def leBytes : Nat → Nat → List Byte
  | 0, _ => []
  | k + 1, n => BitVec.ofNat 8 n :: leBytes k (n / 256)

/-- The number whose bytes these are, least significant first (R2). -/
def leNat : List Byte → Nat
  | [] => 0
  | b :: bs => b.toNat + 256 * leNat bs

/-- Element i of width n of a pattern (R79). -/
def elem {k : Nat} (x : BitVec k) (n i : Nat) : Nat := bits x (n * i) n

/-- A pattern from its elements of width n, element 0 lowest. -/
def ofElems (k n : Nat) (xs : List Nat) : BitVec k :=
  BitVec.ofNat k (xs.foldr (fun x acc => x % 2 ^ n + 2 ^ n * acc) 0)

/-! ## Lists -/

/-- Insert an event behind every event of the same or an earlier cycle. -/
def insertDue (t : Nat) (i : Event) : List (Nat × Event) → List (Nat × Event)
  | [] => [(t, i)]
  | (u, j) :: rest => if t < u then (t, i) :: (u, j) :: rest else (u, j) :: insertDue t i rest

def removeNat (x : Nat) (xs : List Nat) : List Nat := xs.filter (· != x)

/-- Insert into a rising list of numbers without repeats. -/
def insertNat (x : Nat) : List Nat → List Nat
  | [] => [x]
  | y :: ys => if x < y then x :: y :: ys else if x == y then y :: ys else y :: insertNat x ys

/-- The least number from `from_` upward that a list does not hold, among `fuel` candidates. -/
def leastFree (used : List Nat) (from_ : Nat) : Nat → Option Nat
  | 0 => none
  | k + 1 => if used.contains from_ then leastFree used (from_ + 1) k else some from_

/-- Insertion sort by a Boolean order. -/
def insertBy {α : Type} (lt : α → α → Bool) (x : α) : List α → List α
  | [] => [x]
  | y :: ys => if lt x y then x :: y :: ys else y :: insertBy lt x ys

def sortBy {α : Type} (lt : α → α → Bool) : List α → List α
  | [] => []
  | x :: xs => insertBy lt x (sortBy lt xs)

/-- The first least element by a Boolean order. -/
def leastBy {α : Type} (lt : α → α → Bool) : List α → Option α
  | [] => none
  | x :: xs => match leastBy lt xs with
    | none => some x
    | some y => if lt y x then some y else some x

/-! ## Finite maps -/
namespace AMap
variable {α : Type}

/-- The value at a key. -/
def get? : AMap α → Nat → Option α
  | [], _ => none
  | (k, v) :: m, x => if x == k then some v else get? m x

/-- The map with a value at a key; keys stay in rising order. -/
def set : AMap α → Nat → α → AMap α
  | [], x, a => [(x, a)]
  | (k, v) :: m, x, a => if x < k then (x, a) :: (k, v) :: m else if x == k then (x, a) :: m else (k, v) :: set m x a

/-- The map without a key. -/
def erase : AMap α → Nat → AMap α
  | [], _ => []
  | (k, v) :: m, x => if x == k then m else (k, v) :: erase m x

def keys (m : AMap α) : List Nat := m.map (·.1)
def vals (m : AMap α) : List α := m.map (·.2)
def mapVals (m : AMap α) (f : Nat → α → α) : AMap α := m.map fun (k, v) => (k, f k v)

end AMap

/-! ## Byte memories: canonical lists of cells (unlisted bytes read zero, log 1) -/
namespace Cells

/-- The byte at an address. -/
def read : List Host.Cell → Nat → Byte
  | [], _ => 0
  | (k, b) :: m, x => if x == k then b else if x < k then 0 else read m x

/-- The memory with a byte at an address: rising addresses, no zero entry. -/
def write : List Host.Cell → Nat → Byte → List Host.Cell
  | [], x, b => if b == 0 then [] else [(x, b)]
  | (k, c) :: m, x, b =>
    if x < k then (if b == 0 then (k, c) :: m else (x, b) :: (k, c) :: m)
    else if x == k then (if b == 0 then m else (x, b) :: m)
    else (k, c) :: write m x b

def readN (m : List Host.Cell) (x : Nat) : Nat → List Byte
  | 0 => []
  | n + 1 => read m x :: readN m (x + 1) n

def writeN (m : List Host.Cell) (x : Nat) : List Byte → List Host.Cell
  | [] => m
  | b :: bs => writeN (write m x b) (x + 1) bs

/-- The entries with addresses in lo..lo+n−1, shifted to `to`. -/
def range (m : List Host.Cell) (lo n : Nat) : List Host.Cell := m.filter fun (k, _) => lo ≤ k && k < lo + n

def clear (m : List Host.Cell) (lo n : Nat) : List Host.Cell := m.filter fun (k, _) => k < lo || lo + n ≤ k

/-- Write every listed cell. -/
def writeCells (m : List Host.Cell) : List Host.Cell → List Host.Cell
  | [] => m
  | (k, b) :: cs => writeCells (write m k b) cs

/-- The canonical form: rising addresses and no entry equal to what an unlisted address reads as. -/
def wf : List Host.Cell → Bool
  | [] => true
  | (k, b) :: m => b != 0 && (match m with | [] => true | (k', _) :: _ => decide (k < k')) && wf m

end Cells

/-- Memory's canonical form. -/
def Memory.wf (m : List Host.Cell) : Bool := Cells.wf m

end Sys2Proof.Machine
end

