-- ==== Sys2Proof/Machine/Place.lean ====
section
/-!
DEFINITION. Reading and updating the parts of State, scheduling events, waiting and retiring (R67..R70), and where
things are: tiles, clusters, dies, quadrants, meshes (R11..R18), live tiles (R32, R308) and the placement of hints (R42).
-/
namespace Sys2Proof.Machine

/-- The key of a context: its tile and slot, slot 16 being the system context (R67). -/
def ctxKey (t slot : Nat) : Nat := 32 * t + slot

namespace State

/-! ## Parts of the state -/

def tile (s : State) (t : Nat) : TileS := (s.tiles.get? t).getD TileS.reset
def setTile (s : State) (t : Nat) (x : TileS) : State := { s with tiles := s.tiles.set t x }
def onTile (s : State) (t : Nat) (f : TileS → TileS) : State := s.setTile t (f (s.tile t))

def ctx (s : State) (k : Nat) : Ctx := (s.ctxs.get? k).getD (if k % 32 == 16 then Ctx.system else Ctx.reset)
def setCtx (s : State) (k : Nat) (c : Ctx) : State := { s with ctxs := s.ctxs.set k c }
def onCtx (s : State) (k : Nat) (f : Ctx → Ctx) : State := s.setCtx k (f (s.ctx k))

/-- The context whose instruction runs. -/
def cx (s : State) : Ctx := s.ctx s.cur
def setCx (s : State) (c : Ctx) : State := s.setCtx s.cur c
def onCx (s : State) (f : Ctx → Ctx) : State := s.onCtx s.cur f

/-- The tile and slot whose instruction runs. -/
def here (s : State) : Nat := s.cur / 32
def slot (s : State) : Nat := s.cur % 32
def inSystem (s : State) : Bool := s.slot == 16

def cluster (s : State) (c : Nat) : ClusterS := (s.clusters.get? c).getD ClusterS.reset
def setCluster (s : State) (c : Nat) (x : ClusterS) : State := { s with clusters := s.clusters.set c x }

def launch (s : State) (lq : Nat) : Launch := (s.launches.get? lq).getD Launch.none
def onLaunch (s : State) (lq : Nat) (f : Launch → Launch) : State :=
  match s.launches.get? lq with
  | none => s
  | some l => { s with launches := s.launches.set lq (f l) }

def block (s : State) (b : Nat) : Block := (s.blocks.get? b).getD Block.none
def onBlock (s : State) (b : Nat) (f : Block → Block) : State :=
  match s.blocks.get? b with
  | none => s
  | some x => { s with blocks := s.blocks.set b (f x) }
def page (s : State) (b p : Nat) : Page := ((s.block b).pages.get? p).getD Page.unmapped
def setPage (s : State) (b p : Nat) (x : Page) : State := s.onBlock b fun y => { y with pages := y.pages.set p x }

def onSpec (s : State) (u : Nat) (f : Spec → Spec) : State :=
  match s.specs.get? u with
  | none => s
  | some y => { s with specs := s.specs.set u (f y) }

/-- What a tile keeps for a launch (R48, R55, R59, R60). -/
def tileLaunch (s : State) (t lq : Nat) : TileLaunch := ((s.tile t).perLaunch.get? lq).getD TileLaunch.start
def onTileLaunch (s : State) (t lq : Nat) (f : TileLaunch → TileLaunch) : State :=
  s.onTile t fun x => { x with perLaunch := x.perLaunch.set lq (f ((x.perLaunch.get? lq).getD TileLaunch.start)) }

def queue (s : State) (q : Nat) : LaunchQ := (s.queues.get? q).getD LaunchQ.reset
def onQueue (s : State) (q : Nat) (f : LaunchQ → LaunchQ) : State := { s with queues := s.queues.set q (f (s.queue q)) }

/-- The launch, block and ASID the running context works for (R46, R502). -/
def task (s : State) : TaskRec := s.cx.task
def myLaunch (s : State) : Launch := s.launch s.cx.task.lq
def myBlock (s : State) : Block := s.block s.cx.task.blk
def asid (s : State) : Nat := s.myLaunch.asid

/-! ## Time -/

/-- Cycles of 10 µs on the package cycle counter (R56, R308). -/
def period (s : State) : Nat := if s.full then 24000 else 10000

/-- An event a fixed number of cycles on. -/
def after (s : State) (d : Nat) (i : Event) : State := { s with agenda := insertDue (s.cycle + d) i s.agenda }

/-- An event after a latency the spec leaves open, at least one cycle (R25, R71; log 2). -/
def later (s : State) (i : Event) : State :=
  { s with agenda := insertDue (s.cycle + 1 + Config.latency s.fresh) i s.agenda, fresh := s.fresh + 1 }

/-- An event after at least n cycles, a latency that a busy mesh lengthens by an open amount (R25; log 2). -/
def laterBy (s : State) (n : Nat) (i : Event) : State :=
  { s with agenda := insertDue (s.cycle + n + Config.latency s.fresh) i s.agenda, fresh := s.fresh + 1 }

/-- A free choice among n, as a number below n (log 17). -/
def choose (s : State) (n : Nat) : Nat := Config.choice s.fresh % n
def tick (s : State) : State := { s with fresh := s.fresh + 1 }

/-- A gated tile wakes (R88). -/
def wakeTile (s : State) (t : Nat) : State := if (s.tile t).gated then s.after 0 (.tileWake t) else s

/-- Leave the instruction for another try from the next cycle on (R69, R165: "the instruction is replayed"); the tile's
turn goes to the next slot of the scan. -/
def wait (s : State) (why : Wait) : State :=
  { (s.onCx fun c => { c with status := .waiting why, next := s.cycle + 1 }) with turn := s.here :: s.turn }

/-- The wait of an instruction that has issued; it is tried again from the next cycle on. -/
def hold (s : State) (why : Wait) : State :=
  (s.onCx fun c => { c with status := .waiting why, next := s.cycle + 1 }).onTile s.here fun x => { x with last := s.slot }

end State

/-- StallCycles (R69). -/
def stallCycles (sc : Stall) : Nat := 4 + match sc.toNat with | 0 => 0 | 1 => 4 | 2 => 8 | _ => 20

def dieOf (t : Nat) : Nat := t / 512
/-- The cluster of a tile, package-wide: 32 · die + clu (R16). -/
def clusterOf (t : Nat) : Nat := t / 16
def tileX (t : Nat) : Nat := 4 * (t / 16 % 32 % 6) + t % 4
def tileY (t : Nat) : Nat := 4 * (t / 16 % 32 / 6) + t % 16 / 4
/-- The tile at a mesh position (R16). -/
def tileAt (die x y : Nat) : Nat := 512 * die + 16 * (6 * (y / 4) + x / 4) + 4 * (y % 4) + x % 4
/-- The package quadrant number, which is the island's and the service core's (R17). -/
def quadrantOf (t : Nat) : Nat := 4 * dieOf t + 2 * (tileY t / 8) + tileX t / 12
/-- Hops between two positions of a mesh (R15). -/
def hops (t u : Nat) : Nat :=
  let d := fun (a b : Nat) => max a b - min a b
  d (tileX t) (tileX u) + d (tileY t) (tileY u)

/-! ## Clocks (R304) -/

/-- The clock of an island's step, in units of 100 MHz: 2.4, 2.2, 2.0, 1.8, 1.6 and 1.2 GHz. -/
def stepRate (step : Nat) : Nat := match step with | 0 => 24 | 1 => 22 | 2 => 20 | 3 => 18 | 4 => 16 | _ => 12

namespace State

/-- A tile's clock, where the package counter's is 24 (R304); under the reduced service both are one clock (R308). -/
def rate (s : State) (t : Nat) : Nat := if s.full then stepRate (s.islandStep.getD (quadrantOf t) 0) else 24

/-- The cycles that a tile's clock has made at a package cycle, at its step. -/
def clockAt (s : State) (t c : Nat) : Nat := c * s.rate t / 24

/-- The package cycles until a tile's clock has made n more cycles: counts are in the clock of the tile that does the work
(R304). A count under way at an interval boundary ends as it was begun (DESIGN CHOICE, log 103). -/
def span (s : State) (t n : Nat) : Nat :=
  if s.rate t == 24 then n else ((s.clockAt t s.cycle + n) * 24 + s.rate t - 1) / s.rate t - s.cycle

/-- The tile's clock ticks in this package cycle. -/
def ticks (s : State) (t : Nat) : Bool := s.rate t == 24 || s.clockAt t s.cycle != s.clockAt t (s.cycle - 1)

/-- An event after n cycles of a tile. -/
def afterOn (s : State) (t n : Nat) (e : Event) : State := s.after (s.span t n) e

/-- An event after at least n cycles of a tile, a latency lengthened by an open amount (R25; log 2). -/
def laterOn (s : State) (t n : Nat) (e : Event) : State := s.laterBy (s.span t n) e

end State

/-- NextPc, in the 24 bits of pc (R72). -/
def nextPc (pc : BitVec 24) : BitVec 24 := pc + 4

namespace State

/-- Issue: the slot issued last, its next issue follows the stall count, and it goes on at `pc` (R69). -/
def goTo (s : State) (pc : BitVec 24) (sc : Stall) : State :=
  (s.onCx fun c => { c with pc := pc, status := .ready, next := s.cycle + s.span s.here (stallCycles sc) }).onTile s.here
    fun x => { x with last := s.slot }

/-- Complete the instruction and go on at the next one. -/
def retire (s : State) (sc : Stall) : State := s.goTo (nextPc s.cx.pc) sc

/-- The wait of a context that has issued and that an event will end; it is not tried again meanwhile. The stall of its issue
counts from now (R69). -/
def park (s : State) (why : Wait) (sc : Stall) : State :=
  (s.onCx fun c => { c with status := .waiting why, next := s.cycle + s.span s.here (stallCycles sc) }).onTile s.here fun x => { x with last := s.slot }

/-- The event that a parked context has waited for: it goes on at the next instruction, where its issue left it (R69), or stands
there while Wisp repairs its task (R196). -/
def proceed (s : State) : State :=
  let held := (s.specs.get? s.cx.task.uid).any fun y => y.repairing
  s.onCx fun c => { c with pc := nextPc c.pc, status := if held then .halted else .ready }

end State

/-! ## Where things are -/

/-- The tile numbers that name a tile (R18). -/
def isTile (t : Nat) : Bool := t < 4096 && t / 16 % 32 < 24

/-- Every tile number in rising order (R16). -/
def allTiles : List Nat :=
  (List.range 8).flatMap fun d => (List.range 384).map fun i => 512 * d + i

/-- Directions 0 north, 1 east, 2 south, 3 west (R75). -/
def opposite (d : Nat) : Nat := (d + 2) % 4

namespace State

def live (s : State) (t : Nat) : Bool := isTile t && !s.retired.contains t && (s.full || dieOf t == 0)

/-- Live tiles in rising order; under the reduced service those of C0 (R32, R308). -/
def liveTiles (s : State) : List Nat := allTiles.filter s.live

/-- The mesh neighbour of a tile, if it is a live tile (R14, R83). -/
def neighbour (s : State) (t dir : Nat) : Option Nat :=
  let x := tileX t
  let y := tileY t
  let d := dieOf t
  let n : Option Nat := match dir with
    | 0 => if y == 0 then none else some (tileAt d x (y - 1))
    | 1 => if x == 23 then none else some (tileAt d (x + 1) y)
    | 2 => if y == 15 then none else some (tileAt d x (y + 1))
    | _ => if x == 0 then none else some (tileAt d (x - 1) y)
  n.filter s.live

/-- The tile on which a block sits (R50). -/
def blockTile (s : State) (b : Nat) : Nat := (s.block b).tile

/-- The tile to which records of a block go: the target while the block is Moving (R42, R169). -/
def recordTile (s : State) (b : Nat) : Nat :=
  let x := s.block b
  if x.st == .moving then x.target else x.tile

end State

/-- Place (R42). -/
def place (key n : Nat) : Nat :=
  let m := key % 2 ^ 62 * 0x9E3779B97F4A7C15 % 2 ^ 64
  let m := m ^^^ (m >>> 32)
  (m >>> 32 * n) >>> 32

/-- The fields of a hint (R42). -/
def hintPin (h : Word) : Bool := bit h 63
def hintDir (h : Word) : Bool := bit h 62
def hintKey (h : Word) : Nat := h.toNat % 2 ^ 62

end Sys2Proof.Machine
end

