-- ==== Sys2Proof/Machine/Domains.lean ====
section
/-!
DEFINITION. Domain maps (R43..R45): the live domains of each kind, their indices, and the tile set of a launch.
-/
namespace Sys2Proof.Machine

/-- The domain of a kind that a tile lies in: 2 tile, 3 cluster, 4 die; 5 and 6 are the package itself (R43). -/
def domainOf (kind t : Nat) : Nat :=
  match kind with
  | 2 => t
  | 3 => clusterOf t
  | 4 => dieOf t
  | _ => 0

/-- A rising list without neighbours that repeat. -/
def dedup : List Nat → List Nat
  | [] => []
  | x :: xs => match dedup xs with
    | [] => [x]
    | y :: ys => if x == y then y :: ys else x :: y :: ys

/-- The domains of a kind among tiles listed in rising order. -/
def domainsIn (kind : Nat) (tiles : List Nat) : List Nat := dedup (tiles.map (domainOf kind))

namespace State

/-- The index of a tile's domain at an entry, counted among live tiles of the next outer listed level (R44, R45). -/
def levelIndex (s : State) (outer : Option DomEntry) (e : DomEntry) (t slot : Nat) : Nat :=
  match e.domain with
  | 1 => slot
  | 5 => 0
  | 6 => s.node
  | kind =>
    let inside := match outer with
      | none => s.liveTiles
      | some o => s.liveTiles.filter fun u => domainOf o.domain u == domainOf o.domain t
    (domainsIn kind inside).findIdx fun d => d == domainOf kind t

def levelIndices (s : State) (t slot : Nat) : Option DomEntry → List DomEntry → List Nat
  | _, [] => []
  | outer, e :: es => s.levelIndex outer e t slot :: s.levelIndices t slot (some e) es

/-- The CSR lvl (R45): four bits per level for levels 0..7, saturating at 15. -/
def lvl (s : State) (lq t slot : Nat) : Word :=
  ofElems 64 4 (((s.levelIndices t slot none (s.launch lq).dmap).take 8).map fun i => min i 15)

/-- The domain sets that a map selects, entry by entry: none where a level exceeds its live domains (R44). A context level counts
the user contexts of every live tile in the next outer listed domain. -/
def selectDomains (s : State) : List DomEntry → List (List Nat) → Option (List (List Nat))
  | [], sets => some sets
  | e :: es, sets =>
    match e.domain with
    | 1 => if sets.any fun ts => 16 * ts.length < e.first + e.count then none else s.selectDomains es sets
    | 6 => if e.first + e.count ≤ 2 ^ 21 then s.selectDomains es sets else none
    | 5 => if e.first + e.count ≤ 1 then s.selectDomains es sets else none
    | kind =>
      if sets.any fun ts => (domainsIn kind ts).length < e.first + e.count then none
      else s.selectDomains es (sets.flatMap fun ts =>
        (((domainsIn kind ts).drop e.first).take e.count).map fun d => ts.filter fun t => domainOf kind t == d)

/-- A system level includes the launching package (R44). -/
def includesHere (s : State) (es : List DomEntry) : Bool :=
  es.all fun e => e.domain != 6 || (e.first ≤ s.node && s.node < e.first + e.count)

/-- The tile set of a map in rising order, or none where the map is not valid for the live tiles (R44, R45). -/
def tileSet (s : State) (dmap : List DomEntry) : Option (List Nat) :=
  (s.selectDomains dmap [s.liveTiles]).map fun sets => sortBy (fun a b => decide (a < b)) sets.flatten

end State

/-- One entry of a map (R43). -/
def domEntry (x : Word) : DomEntry :=
  { domain := bits x 0 3, scope := bits x 3 3, first := bits x 32 32, count := bits x 8 24 }

/-- The least scope of a domain (R44). -/
def scopeOfDomain (d : Nat) : Nat := d - 1

/-- The entries of a well-formed map, or none (R43, R44): levels up to the first entry with domain 0, every later entry
zero, domains strictly falling, no reserved code, scopes wide enough. Bits that must be zero are checked before (R39 code 1). A count
of 0, which R43 excludes and for which R39 names no code, is refused as a map that breaks R44, code 4 (DESIGN CHOICE, log 91). -/
def domEntries (xs : List Word) : Option (List DomEntry) :=
  let used := xs.takeWhile fun x => bits x 0 3 != 0
  let rest := xs.drop (used.length + 1)
  let es := used.map domEntry
  let falling := (es.zip (es.drop 1)).all fun (a, b) => decide (b.domain < a.domain)
  let good := es.all fun e => e.domain ≤ 6 && e.scope ≤ 5 && 1 ≤ e.count && scopeOfDomain e.domain ≤ e.scope
  if es.isEmpty || !falling || !good || !(rest.all fun x => x == 0) then none else some es

/-- The cap of user contexts per tile (R45). -/
def contextCap (es : List DomEntry) : Nat := ((es.find? fun e => e.domain == 1).map fun e => min e.count 16).getD 16

/-- The cap that a record's entries name, whether or not they form a valid map (R39 code 3, R160). -/
def capOf (xs : List Word) : Nat := contextCap ((xs.takeWhile fun x => bits x 0 3 != 0).map domEntry)

end Sys2Proof.Machine
end

