-- ==== Sys2Proof/Machine/Fp.lean ====
section
/-!
DEFINITION. Number formats and their arithmetic (05): decoding to exact values (R124..R126, R130), rounding once
under a mode (R133, R136), and add, subtract, multiply, divide, fused multiply-add, square root, compare, minimum,
maximum, classify and convert. A finite value is sign, mantissa and binary exponent: (−1)^neg · m · 2^e.
-/
namespace Sys2Proof.Machine

/-- How an all-ones exponent field reads (R126). -/
inductive FKind | ieee | e4m3 | e2m1
deriving DecidableEq, Repr

/-- A floating-point format (R125): exponent and fraction widths and bias. -/
structure FFmt where
  ew   : Nat
  fw   : Nat
  bias : Nat
  kind : FKind
deriving DecidableEq, Repr

/-- An exact value (R378). -/
inductive FVal
  | nan
  | inf (neg : Bool)
  | fin (neg : Bool) (m : Nat) (e : Int)
deriving DecidableEq, Repr

def fp64 : FFmt := { ew := 11, fw := 52, bias := 1023, kind := .ieee }
def fp32 : FFmt := { ew := 8, fw := 23, bias := 127, kind := .ieee }
def fpBf16 : FFmt := { ew := 8, fw := 7, bias := 127, kind := .ieee }
def fp16 : FFmt := { ew := 5, fw := 10, bias := 15, kind := .ieee }
def fpE5m2 : FFmt := { ew := 5, fw := 2, bias := 15, kind := .ieee }
def fpE4m3 : FFmt := { ew := 4, fw := 3, bias := 7, kind := .e4m3 }
def fpE2m1 : FFmt := { ew := 2, fw := 1, bias := 1, kind := .e2m1 }

namespace FFmt

/-- Width in bits. -/
def width (f : FFmt) : Nat := 1 + f.ew + f.fw

/-- The pattern of the largest finite magnitude (R125, R126). -/
def maxPat (f : FFmt) : Nat :=
  match f.kind with
  | .ieee => 2 ^ (f.ew + f.fw) - 2 ^ f.fw - 1
  | .e4m3 => 0x7E
  | .e2m1 => 0x7

/-- The canonical NaN (R126); E2M1 has none and takes +0 (R136). -/
def nanPat (f : FFmt) : Nat :=
  match f.kind with
  | .ieee => (2 ^ f.ew - 1) * 2 ^ f.fw + 2 ^ (f.fw - 1)
  | .e4m3 => 0x7F
  | .e2m1 => 0

/-- The pattern of infinity without its sign; in E4M3 the NaN code, in E2M1 the largest finite (R136). -/
def infPat (f : FFmt) : Nat :=
  match f.kind with
  | .ieee => (2 ^ f.ew - 1) * 2 ^ f.fw
  | .e4m3 => 0x7F
  | .e2m1 => 0x7

def signed (f : FFmt) (neg : Bool) (mag : Nat) : Nat := (if neg then 2 ^ (f.ew + f.fw) else 0) + mag

/-- The value of a pattern (R124, R126). -/
def decode (f : FFmt) (p : Nat) : FVal :=
  let neg := p.testBit (f.ew + f.fw)
  let e := p / 2 ^ f.fw % 2 ^ f.ew
  let fr := p % 2 ^ f.fw
  let special : Bool := match f.kind with
    | .ieee => e == 2 ^ f.ew - 1
    | .e4m3 => e == 15 && fr == 7
    | .e2m1 => false
  if special then
    (if f.kind == .ieee && fr == 0 then .inf neg else .nan)
  else if e == 0 then .fin neg fr (1 - (f.bias : Int) - f.fw)
  else .fin neg (2 ^ f.fw + fr) ((e : Int) - f.bias - f.fw)

/-- What an overflow becomes: infinity or the largest finite, by mode and sign (R133). -/
def overflowToInf (rm : Nat) (neg : Bool) : Bool :=
  match rm with
  | 0 => true
  | 1 => false
  | 2 => !neg
  | _ => neg

/-- Round (−1)^neg · m · 2^e once; `sticky` says that the exact magnitude lies a little above m · 2^e (R133). Zero
magnitudes keep the sign given. -/
def round (f : FFmt) (rm : Nat) (sat : Bool) (neg : Bool) (m : Nat) (e : Int) (sticky : Bool) : Nat :=
  if m == 0 && !sticky then f.signed neg 0
  else
    -- one more low bit holds the sticky part, so that every discarded bit is looked at in one place
    let m2 := 2 * m + sticky.toNat
    let e2 := e - 1
    let len : Int := m2.log2 + 1
    let q : Int := max (e2 + len - (f.fw + 1)) (1 - (f.bias : Int) - f.fw)
    let sh := q - e2
    let kept : Nat := if sh ≤ 0 then m2 <<< (-sh).toNat else m2 >>> sh.toNat
    let rest : Nat := if sh ≤ 0 then 0 else m2 % 2 ^ sh.toNat
    let half : Nat := if sh ≤ 0 then 1 else 2 ^ (sh.toNat - 1)
    let up : Bool := match rm with
      | 0 => decide (rest > half) || (rest == half && sh > 0 && kept % 2 == 1)
      | 1 => false
      | 2 => rest != 0 && !neg
      | _ => rest != 0 && neg
    let k := if up then kept + 1 else kept
    -- a carry out of the fraction falls into the exponent field by itself
    let lowest : Int := 1 - (f.bias : Int) - f.fw
    let mag : Nat := if k < 2 ^ f.fw then k else ((q - lowest).toNat + 1) * 2 ^ f.fw + (k - 2 ^ f.fw)
    if mag > f.maxPat then
      (if sat then f.signed neg f.maxPat
       else if overflowToInf rm neg then f.signed neg f.infPat else f.signed neg f.maxPat)
    else f.signed neg mag

/-- RoundFp of R378, with VCVT's saturation where `sat` (R136). -/
def ofValS (f : FFmt) (rm : Nat) (sat : Bool) : FVal → Nat
  | .nan => f.nanPat
  | .inf neg => if sat then f.signed neg f.maxPat else f.signed neg f.infPat
  | .fin neg m e => f.round rm sat neg m e false

def ofVal (f : FFmt) (rm : Nat) (v : FVal) : Nat := f.ofValS rm false v

end FFmt

/-! ## Exact operations -/

def FVal.isNaN : FVal → Bool
  | .nan => true
  | _ => false

/-- m · 2^e as an integer multiple of 2^low, for low ≤ e. -/
def scaled (neg : Bool) (m : Nat) (e low : Int) : Int :=
  let k : Int := (m <<< (e - low).toNat : Nat)
  if neg then -k else k

/-- The exact sum; an exact zero sum of opposite signs is +0, or −0 rounding down (R133, R383). -/
def FVal.add (rm : Nat) : FVal → FVal → FVal
  | .nan, _ => .nan
  | _, .nan => .nan
  | .inf a, .inf b => if a == b then .inf a else .nan
  | .inf a, .fin _ _ _ => .inf a
  | .fin _ _ _, .inf b => .inf b
  | .fin a m e, .fin b n g =>
    let low := min e g
    let x := scaled a m e low + scaled b n g low
    if x == 0 then
      (if m == 0 && n == 0 && a == b then .fin a 0 low else .fin (rm == 3) 0 low)
    else .fin (decide (x < 0)) x.natAbs low

def FVal.neg : FVal → FVal
  | .nan => .nan
  | .inf a => .inf (!a)
  | .fin a m e => .fin (!a) m e

def FVal.sub (rm : Nat) (x y : FVal) : FVal := FVal.add rm x y.neg

/-- The exact product (R135, R383). -/
def FVal.mul : FVal → FVal → FVal
  | .nan, _ => .nan
  | _, .nan => .nan
  | .inf a, .inf b => .inf (a != b)
  | .inf a, .fin b n _ => if n == 0 then .nan else .inf (a != b)
  | .fin a m _, .inf b => if m == 0 then .nan else .inf (a != b)
  | .fin a m e, .fin b n g => .fin (a != b) (m * n) (e + g)

/-- The quotient rounded once (R135): enough quotient bits, then a sticky bit. -/
def FFmt.div (f : FFmt) (rm : Nat) (x y : FVal) : Nat :=
  match x, y with
  | .nan, _ => f.nanPat
  | _, .nan => f.nanPat
  | .inf _, .inf _ => f.nanPat
  | .inf a, .fin b _ _ => f.signed (a != b) f.infPat
  | .fin a _ _, .inf b => f.signed (a != b) 0
  | .fin a m e, .fin b n g =>
    if n == 0 then (if m == 0 then f.nanPat else f.signed (a != b) f.infPat)
    else if m == 0 then f.signed (a != b) 0
    else
      let sh := n.log2 + f.fw + 4
      let num := m <<< sh
      f.round rm false (a != b) (num / n) (e - g - sh) (num % n != 0)

/-- Integer square root by bits: the greatest r with r² ≤ n, from bit `k` down. -/
def isqrtBits (n : Nat) : Nat → Nat → Nat
  | 0, r => r
  | k + 1, r => let t := r + 2 ^ k; isqrtBits n k (if t * t ≤ n then t else r)

def isqrt (n : Nat) : Nat := isqrtBits n (n.log2 / 2 + 1) 0

/-- The square root rounded once (R135, R398). -/
def FFmt.sqrt (f : FFmt) (rm : Nat) (x : FVal) : Nat :=
  match x with
  | .nan => f.nanPat
  | .inf neg => if neg then f.nanPat else f.signed false f.infPat
  | .fin neg m e =>
    if m == 0 then f.signed neg 0
    else if neg then f.nanPat
    else
      let sh0 := 2 * (f.fw + 4)
      let sh := if (e - sh0) % 2 == 0 then sh0 else sh0 + 1
      let n := m <<< sh
      let r := isqrt n
      f.round rm false false r ((e - sh) / 2) (r * r != n)

/-- a·b + c, exactly (R395). -/
def FVal.fma (rm : Nat) (a b c : FVal) : FVal := FVal.add rm (FVal.mul a b) c

/-- Order on non-NaN values with −0 = +0 (R394): the comparison of two values as integers on a common scale. -/
def FVal.lt : FVal → FVal → Bool
  | .nan, _ => false
  | _, .nan => false
  | .inf a, .inf b => a && !b
  | .inf a, .fin _ _ _ => a
  | .fin _ _ _, .inf b => !b
  | .fin a m e, .fin b n g => let low := min e g; decide (scaled a m e low < scaled b n g low)

def FVal.eq : FVal → FVal → Bool
  | .nan, _ => false
  | _, .nan => false
  | .inf a, .inf b => a == b
  | .inf _, .fin _ _ _ => false
  | .fin _ _ _, .inf _ => false
  | .fin a m e, .fin b n g => let low := min e g; scaled a m e low == scaled b n g low

def FVal.le (x y : FVal) : Bool := FVal.lt x y || FVal.eq x y

def FVal.signBit : FVal → Bool
  | .nan => false
  | .inf a => a
  | .fin a _ _ => a

/-- x ranks below y, with −0 below +0 (R135). -/
def FVal.below (x y : FVal) : Bool := FVal.lt x y || (FVal.eq x y && x.signBit && !y.signBit)

/-- FMIN and FMAX on patterns (R396). -/
def FFmt.minMax (f : FFmt) (max_ : Bool) (p q : Nat) : Nat :=
  let x := f.decode p
  let y := f.decode q
  match x.isNaN, y.isNaN with
  | true, true => f.nanPat
  | true, false => q
  | false, true => p
  | false, false => if max_ then (if FVal.below x y then q else p) else (if FVal.below y x then q else p)

/-- The FCLASS bit of a pattern (R129, R389). -/
def FFmt.classBit (f : FFmt) (p : Nat) : Nat :=
  let neg := p.testBit (f.ew + f.fw)
  let e := p / 2 ^ f.fw % 2 ^ f.ew
  let fr := p % 2 ^ f.fw
  if e == 2 ^ f.ew - 1 then
    (if fr == 0 then (if neg then 0 else 7) else if fr.testBit (f.fw - 1) then 9 else 8)
  else if e == 0 then
    (if fr == 0 then (if neg then 3 else 4) else if neg then 2 else 5)
  else if neg then 1 else 6

/-- Round a finite value to an integer under a mode (R137). -/
def roundInt (rm : Nat) (neg : Bool) (m : Nat) (e : Int) : Int :=
  let sh := (-e).toNat
  let kept : Nat := if e ≥ 0 then m <<< e.toNat else m >>> sh
  let rest : Nat := if e ≥ 0 then 0 else m % 2 ^ sh
  let half : Nat := if e ≥ 0 then 1 else 2 ^ (sh - 1)
  let up : Bool := match rm with
    | 0 => decide (rest > half) || (rest == half && e < 0 && kept % 2 == 1)
    | 1 => false
    | 2 => rest != 0 && !neg
    | _ => rest != 0 && neg
  let k : Int := (if up then kept + 1 else kept : Nat)
  if neg then -k else k

def clampInt (lo hi x : Int) : Int := if x < lo then lo else if x > hi then hi else x

/-- FP to integer: rounded, then saturated to lo..hi; NaN gives 0 (R137). -/
def FVal.toInt (rm : Nat) (lo hi : Int) : FVal → Int
  | .nan => 0
  | .inf neg => if neg then lo else hi
  | .fin neg m e => clampInt lo hi (roundInt rm neg m e)

/-- An integer as an exact value. -/
def FVal.ofInt (x : Int) : FVal := .fin (decide (x < 0)) x.natAbs 0

/-- A TW8 weight (R130): two signed powers of two, an exact multiple of 2^−6; zero is +0. -/
def tw8 (p : Nat) : FVal :=
  let term := fun (t : Nat) => if t % 8 == 7 then (0 : Int) else
    let mag : Int := (2 ^ (6 - t % 8) : Nat)
    if t.testBit 3 then -mag else mag
  let x := term (p / 16 % 16) + term (p % 16)
  .fin (decide (x < 0)) x.natAbs (-6)

/-- An E8M0 scale (R132): the exponent of two, or none for NaN. -/
def e8m0 (c : Nat) : Option Int := if c == 255 then none else some ((c : Int) - 127)

/-- The format of an FP code of R108. -/
def fmtOfCode (c : Nat) : Option FFmt :=
  match c with
  | 0 => some fp64 | 1 => some fp32 | 2 => some fpBf16 | 3 => some fp16 | 4 => some fpE4m3 | 5 => some fpE5m2
  | 6 => some fpE2m1
  | _ => none

/-- The value of an element under a format code of R108: FP, TW8, or signed integer. -/
def valOfCode (c : Nat) (p : Nat) : FVal :=
  match fmtOfCode c with
  | some f => f.decode p
  | none =>
    match c with
    | 7 => tw8 p
    | 8 => FVal.ofInt (BitVec.ofNat 8 p).toInt
    | 9 => FVal.ofInt (BitVec.ofNat 32 p).toInt
    | _ => FVal.ofInt (BitVec.ofNat 64 p).toInt

/-- Convert of R479 between codes of R108, as a pattern of the destination's width (R136, R137). -/
def convertCode (rm : Nat) (sat : Bool) (src dst : Nat) (p : Nat) : Nat :=
  match fmtOfCode dst with
  | some f => f.ofValS rm sat (valOfCode src p)
  | none =>
    let w := vcvtWidth dst
    let lo : Int := -(2 ^ (w - 1) : Nat)
    let hi : Int := (2 ^ (w - 1) : Nat) - 1
    let keep : Bool := decide (8 ≤ src) && !sat
    let x : Int := if keep then (BitVec.ofNat (vcvtWidth src) p).toInt else (valOfCode src p).toInt rm lo hi
    (BitVec.ofInt w x).toNat

/-- FCVT (R104, R391). Codes 4..7 are .d, .du, .w, .wu. -/
def fcvtBits (rm : Nat) (dst src : Nat) (x : Word) : Word :=
  let v : FVal :=
    match fmtOfCode src with
    | some f => if src < 4 then f.decode (x.toNat % 2 ^ f.width)
                else if src == 4 then FVal.ofInt x.toInt
                else if src == 5 then FVal.ofInt (x.toNat : Int)
                else FVal.ofInt (x.setWidth 32).toInt
    | none => FVal.ofInt (x.toNat % 2 ^ 32 : Nat)
  match dst with
  | 4 => BitVec.ofInt 64 (v.toInt rm (-(2 ^ 63 : Nat)) ((2 ^ 63 : Nat) - 1))
  | 5 => BitVec.ofInt 64 (v.toInt rm 0 ((2 ^ 64 : Nat) - 1))
  | 6 => BitVec.ofInt 64 (v.toInt rm (-(2 ^ 31 : Nat)) ((2 ^ 31 : Nat) - 1))
  | 7 => BitVec.ofInt 64 (v.toInt rm 0 ((2 ^ 32 : Nat) - 1))
  | c => match fmtOfCode c with
    | some f => BitVec.ofNat 64 (f.ofVal rm v)
    | none => 0

/-- The pattern of +0 in a format of R108; in TW8, whose bytes have no zero pattern of their own, both terms absent (R130). -/
def zeroPattern (vfmt : Nat) : Nat := if vfmt == 7 then 0x77 else 0

/-! ## The wide accumulator (R144) -/

/-- A finite FP64 product as a multiple of 2^−2148 (R144, R492). -/
def wideProduct (x y : FVal) : Int :=
  match x, y with
  | .fin a m e, .fin b n g => scaled (a != b) (m * n) (e + g) (-2148)
  | _, _ => 0

/-- The 4,288-bit two's-complement pattern of an integer (R144). -/
def wideWrap (x : Int) : Nat := (x % (2 ^ 4288 : Nat)).toNat

/-- A 4,288-bit pattern as an integer (R144). -/
def wideInt (p : Nat) : Int := if p.testBit 4287 then (p : Int) - (2 ^ 4288 : Nat) else p

/-- WRND (R146, R492): A · 2^−2148 rounded once to FP64; zero gives +0. -/
def wideRound (rm : Nat) (a : Int) : Nat :=
  if a == 0 then 0 else fp64.round rm false (decide (a < 0)) a.natAbs (-2148) false

end Sys2Proof.Machine
end

