-- ==== Sys2Proof/Machine/Phys.lean ====
section
/-!
DEFINITION. Physical memory: the address regions (R292), the coherent image of device and host memory (log 4), the view
of the running launches' block page tables in it (R163, R164), poisoned lines (R173), L1 copies and spec bits (R153..R155),
the page-table walk with its translation buffers (R157, R158, R295), and what a die's L2 needs before a line may be read
or written (R237).
-/
namespace Sys2Proof.Machine

/-! ## Regions (R292) -/

def deviceEnd : Nat := 576000000000
def isDevice (pa : Nat) : Bool := pa < deviceEnd
def isHostMem (pa : Nat) : Bool := 0x8000000000000 ≤ pa && pa < 0xC000000000000
def isCauseway (pa : Nat) : Bool := 0xD000000000000 ≤ pa && pa < 0xE000000000000
def regBase : Nat := 0xF000000000000
def isRegister (pa : Nat) : Bool := regBase ≤ pa && pa < regBase + 0x4000000

/-- HomeBase (R150). -/
def homeBase (pa : Nat) : Nat := pa / 4096 % 12 / 3

/-! ## Block page tables in memory -/

/-- The bytes of a block's page table area, T of R163. -/
def tableBytes (sppages : Nat) : Nat := 2048 * ((8 * sppages + 2047) / 2048)
/-- A of R163. -/
def areaBytes (sppages : Nat) : Nat := tableBytes sppages + 2048 * sppages

/-- A block page table entry (R164). -/
def Page.entry (p : Page) : Word :=
  let st := match p.st with | .unmapped => 0 | .framed => 1 | .parked => 2
  BitVec.ofNat 64 (st * 2 ^ 62 + p.lock.toNat * 2 ^ 61 + p.pin.toNat * 2 ^ 60 + p.dirty.toNat * 2 ^ 59
    + p.ws.toNat * 2 ^ 58 + p.tile * 256 + p.frame)

namespace State

/-- The page-table entry that a byte of a running launch's Peat region belongs to (R163; log 14). -/
def tableEntryAt (s : State) (pa : Nat) : List (Nat × Launch) → Option Word
  | [] => none
  | (_, l) :: rest =>
    let a := areaBytes l.sppages
    if l.peat ≤ pa && pa < l.peat + a * l.tiles.length then
      let o := (pa - l.peat) % a
      if o < 8 * l.sppages then
        some (s.page (l.blocks.getD ((pa - l.peat) / a) 65536) (o / 8)).entry
      else none
    else s.tableEntryAt pa rest

/-- A byte of the coherent image. -/
def byteAt (s : State) (pa : Nat) : Byte :=
  match s.tableEntryAt pa s.launches with
  | some e => BitVec.ofNat 8 (e.toNat >>> (8 * (pa % 8)))
  | none => Cells.read s.mem pa

def bytesAt (s : State) (pa : Nat) : Nat → List Byte
  | 0 => []
  | n + 1 => s.byteAt pa :: s.bytesAt (pa + 1) n

/-- The dword at a physical address, little-endian (R2). -/
def dwordAt (s : State) (pa : Nat) : Word := BitVec.ofNat 64 (leNat (s.bytesAt pa 8))

def poisoned (s : State) (pa : Nat) : Bool := s.poison.contains (pa / 64)
def anyPoisoned (s : State) (pa n : Nat) : Bool :=
  (List.range ((pa + n - 1) / 64 - pa / 64 + 1)).any fun i => s.poison.contains (pa / 64 + i)

/-! ## L1 copies -/

/-- Remove every L1 copy of a physical line on the dies selected (R155). -/
def l1Drop (s : State) (line : Nat) (on : Nat → Bool) : State :=
  { s with tiles := s.tiles.mapVals fun t x =>
      if on t then { x with l1 := x.l1.filter (fun e => e.pline != line) } else x }

/-- S of R153: sets of the L1 size in force. -/
def l1Sets (x : TileS) : Nat := 128 * (x.spCur.toNat + 1)

/-- Keep the first eight lines of a set, most recent first (R154). -/
def l1Keep (sets set_ : Nat) : Nat → List L1Line → List L1Line
  | _, [] => []
  | n, e :: es =>
    if e.vline % sets == set_ then (if n == 0 then l1Keep sets set_ 0 es else e :: l1Keep sets set_ (n - 1) es)
    else e :: l1Keep sets set_ n es

/-- A load's L1 fill: any older copy of the line goes first; least recently used replacement (R154, R155). -/
def l1Fill (s : State) (t asid vline pline : Nat) (spec : Bool) : State :=
  s.onTile t fun x =>
    let old := x.l1.any fun e => e.pline == pline && e.asid == asid && e.vline == vline && e.spec
    let sets := l1Sets x
    let e : L1Line := { asid := asid, vline := vline, pline := pline, spec := spec || old }
    { x with l1 := l1Keep sets (vline % sets) 8 (e :: x.l1.filter (fun e => e.pline != pline)) }

/-- A write to a line has been performed: each WAIT on it loads once more (R494). -/
def notice (s : State) (hit : Loc → Bool) : State :=
  { s with watches := s.watches.map fun x => if hit x.loc then { x with due := true } else x }

/-- A physical location is on one of the lines that n bytes from pa touch. -/
def onLines (pa n : Nat) : Loc → Bool
  | .mem a => pa / 64 ≤ a / 64 && a / 64 ≤ (pa + n - 1) / 64
  | .scr _ _ => false

/-- Write bytes of the coherent image. Every L1 copy but the writer's own goes (R154, R155, R210). -/
def writeAt (s : State) (writer : Option Nat) (pa : Nat) (bs : List Byte) : State :=
  let s := { s with mem := Cells.writeN s.mem pa bs }.notice (onLines pa bs.length)
  (s.l1Drop (pa / 64) fun t => some t != writer).l1Drop ((pa + bs.length - 1) / 64) fun t => some t != writer

def writeDword (s : State) (writer : Option Nat) (pa : Nat) (x : Word) : State := s.writeAt writer pa (leBytes 8 x.toNat)

/-- Write separate bytes, each at its address. -/
def writeBytes (s : State) (writer : Option Nat) : List (Nat × Byte) → State
  | [] => s
  | (pa, b) :: rest => (s.writeAt writer pa [b]).writeBytes writer rest

end State

/-! ## Address classes and translation -/

/-- The classes of R149. -/
inductive VClass
  | scratch (off : Nat)
  | memory
  | nonCanonical
deriving DecidableEq, Repr

def vclass (va : Word) : VClass :=
  let hi := va.toNat >>> 24
  if hi == 2 ^ 40 - 1 then .scratch (va.toNat % 2 ^ 24)
  else
    let top := va.toNat >>> 57
    if top == (if bit va 56 then 2 ^ 7 - 1 else 0) then .memory else .nonCanonical

/-- What a translation gives: the physical address with the entry's rights, the fault's second value (R274), or a poisoned table
line. -/
inductive Translation
  | ok (pa mt : Nat) (rd w : Bool)
  | fault (level : Nat)
  | poison (pa : Nat)
deriving DecidableEq, Repr

/-- A leaf entry and its page size (log2), or what stands in its way: a fault or a poisoned table line. -/
inductive Walk
  | leaf (pte : Word) (size : Nat)
  | fault (level : Nat)
  | poison (pa : Nat)
deriving DecidableEq, Repr

/-- Index of a level: low VA bit and width (R158). -/
def levelLow (level : Nat) : Nat := match level with | 3 => 43 | 2 => 30 | 1 => 21 | _ => 16
def levelBits (level : Nat) : Nat := match level with | 3 => 14 | 2 => 13 | 1 => 9 | _ => 5
/-- Alignment (log2) of the table that an entry of this level points to. -/
def tableAlign (level : Nat) : Nat := match level with | 3 => 16 | 2 => 12 | _ => 8

def pteV (e : Word) : Bool := bit e 0
def pteLeaf (e : Word) : Bool := bit e 1
def pteRd (e : Word) : Bool := bit e 2
def pteW (e : Word) : Bool := bit e 3
def pteMt (e : Word) : Nat := bits e 5 2
def pteG (e : Word) : Bool := bit e 7
def ptePa (e : Word) : Nat := bits e 8 44 * 256

namespace State

/-! ## A die's L2 (R237) -/

def l2Key (die line : Nat) : Nat := 8 * line + die
def l2St (s : State) (die line : Nat) : L2St := (s.l2.get? (l2Key die line)).getD .i
def setL2 (s : State) (die line : Nat) (x : L2St) : State :=
  match x with
  | .i => { s with l2 := s.l2.erase (l2Key die line) }
  | y => { s with l2 := s.l2.set (l2Key die line) y }

def homeLine (s : State) (line : Nat) : HomeLine := (s.home.get? line).getD HomeLine.idle
def setHome (s : State) (line : Nat) (h : HomeLine) : State := { s with home := s.home.set line h }

/-- A load at a die: whether its L2 holds the line; if not, ReadS is sent to the home (R237). A line in P holds only
partials, so it asks as from I (R238, row P). -/
def l2Read (s : State) (die line : Nat) : State × Bool :=
  match s.l2St die line with
  | .s | .e | .o | .m => (s, true)
  | .i | .p => ((s.setL2 die line .is_).later (.reads die line), false)
  | .is_ | .im | .sm | .mi => (s, false)

/-- A store or atomic at a die: whether its L2 holds the line in M, from E silently; if not, ReadX or Upgrade is sent
(R237). -/
def l2Write (s : State) (die line : Nat) : State × Bool :=
  match s.l2St die line with
  | .m => (s, true)
  | .e => (s.setL2 die line .m, true)
  | .s | .o => ((s.setL2 die line .sm).later (.upgrade die line), false)
  | .i | .p => ((s.setL2 die line .im).later (.readx die line), false)
  | .is_ | .im | .sm | .mi => (s, false)

/-! ## The walk (R157, R158, R295) -/

/-- How a walk reaches a table line: the state that the attempt leaves, and whether the line can be read. -/
abbrev Look := State → Nat → State × Bool

/-- A walk of a die's walk engine reads each entry through the die's L2, as a load does; host memory's lines are held there only
in CXL operation (R157, R237, R295). -/
def walkLook (die : Nat) : Look := fun s line =>
  if isDevice (64 * line) || (s.cxlOn && isHostMem (64 * line)) then s.l2Read die line else (s, true)

/-- One entry of a walk: the dword at an address, through the line that holds it; no walk while that line is not at hand. -/
def walkEntry (s : State) (look : Look) (at_ : Nat) (k : State → Word → State × Option Walk) : State × Option Walk :=
  if !s.full && isDevice at_ then (s, some (.fault 4))
  else match look s (at_ / 64) with
    | (s, false) => (s, none)
    | (s, true) => if s.poisoned at_ then (s, some (.poison at_)) else k s (s.dwordAt at_)

/-- One level of the walk from a table address (R158). -/
def walkFrom (s : State) (look : Look) (va : Nat) : Nat → Nat → State × Option Walk
  | level, table =>
    s.walkEntry look (table + 8 * (va >>> levelLow level % 2 ^ levelBits level)) fun s e =>
      let leaf := pteLeaf e
      if !pteV e || (level == 0 && !leaf) || (level == 3 && leaf) || bits e 52 10 != 0 || bit e 4 then (s, some (.fault level))
      else if leaf then (s, some (if ptePa e % 2 ^ levelLow level != 0 then .fault level else .leaf e (levelLow level)))
      else if ptePa e % 2 ^ tableAlign level != 0 then (s, some (.fault level))
      else match level with
        | 0 => (s, some (.fault 0))
        | l + 1 => s.walkFrom look va l (ptePa e)

/-- The walk from the ASID root table (R295). -/
def walkTable (s : State) (look : Look) (asid va : Nat) : State × Option Walk :=
  if !s.asidrtEn then (s, some (.fault 3))
  else s.walkEntry look (s.asidrtBase * 2 ^ 19 + 8 * asid) fun s e =>
    if !bit e 0 || bits e 1 16 != 0 || bits e 52 12 != 0 then (s, some (.fault 3))
    else s.walkFrom look va 3 (bits e 17 35 * 2 ^ 17)

/-- The region tests of R158, R292 and R308 on the line an access reaches. -/
def regionFault (s : State) (mt pa : Nat) : Option (Option Nat) :=
  match mt with
  | 0 => if !isDevice pa then some none else if !s.full then some (some 4) else none
  | 1 => if isHostMem pa && s.cxlOn && s.full then none else some none
  | 2 => if isHostMem pa || (isCauseway pa && s.full) then none else some none
  | _ => if isRegister pa then none else some none

def tlbHit (s : State) (t asid va : Nat) : Option TlbEntry :=
  s.tlb.find? fun e => e.tile == t && (e.asid == asid || pteG e.pte) && e.vpn * 2 ^ 16 / 2 ^ e.size == va / 2 ^ e.size

/-- A translation buffer of 1,024 entries; which entry a full buffer gives up is a free choice (R157; log 17). -/
def tlbFill (s : State) (e : TlbEntry) : State :=
  let mine := s.tlb.filter fun x => x.tile == e.tile
  if mine.length < 1024 then { s with tlb := s.tlb ++ [e] }
  else
    let victim := mine.getD (s.choose 1024) e
    { s with tlb := s.tlb.erase victim ++ [e], fresh := s.fresh + 1 }

def ofLeaf (s : State) (va : Nat) (pte : Word) (size : Nat) : Translation :=
  let pa := ptePa pte / 2 ^ size * 2 ^ size + va % 2 ^ size
  match s.regionFault (pteMt pte) pa with
  | some (some v) => .fault v
  | some none => .fault (match size with | 16 => 0 | 21 => 1 | _ => 2)
  | none => .ok pa (pteMt pte) (pteRd pte) (pteW pte)

/-- Translate a memory-class address at a tile's translation buffer, filling it after a walk; nothing yet while the walk waits
for a table line (R157). -/
def translate (s : State) (look : Look) (t asid : Nat) (va : Word) : State × Option Translation :=
  let v := va.toNat % 2 ^ 57
  match s.tlbHit t asid v with
  | some e => (s, some (s.ofLeaf v e.pte e.size))
  | none =>
    match s.walkTable look asid v with
    | (s, none) => (s, none)
    | (s, some (.fault l)) => (s, some (.fault l))
    | (s, some (.poison pa)) => (s, some (.poison pa))
    | (s, some (.leaf pte size)) =>
      (s.tlbFill { tile := t, asid := asid, vpn := v / 2 ^ 16, size := size, pte := pte }, some (s.ofLeaf v pte size))

/-- Translate without a buffer and without a die's L2: the reads of the launch queue, the Peat service and the device's own
operations, which no tile makes (R39, R166, R501; DEDUCED, log 104). Its walk always has its line. -/
def translateNow (s : State) (asid : Nat) (va : Word) : Translation :=
  let v := va.toNat % 2 ^ 57
  match ((s.walkTable (fun s _ => (s, true)) asid v).2).getD (.fault 3) with
  | .fault l => .fault l
  | .poison pa => .poison pa
  | .leaf pte size => s.ofLeaf v pte size

end State

end Sys2Proof.Machine
end

