-- ==== Sys2Proof/Machine/Home.lean ====
section
/-!
DEFINITION. A line between its home and the dies: the bridges (R11), the exact partials of a commutative range and their
combination (R206..R209), eviction from an L2 slice (R156, R182, R208, R237), and the transactions of R237 and R238 that an
engine or the host makes at once (log 61).
-/
namespace Sys2Proof.Machine

/-! ## Exact partials (R206, R208, R209) -/

def CrFmt.bytes : CrFmt → Nat
  | .f32 => 4
  | .i64 | .f64 => 8

def crFp : CrFmt → FFmt
  | .f32 => fp32
  | .i64 | .f64 => fp64

/-- The exponent of the least subnormal, the unit of an exact partial (R208). -/
def crUnit : CrFmt → Int
  | .f32 => -149
  | .i64 => 0
  | .f64 => -1074

/-- One addend as an exact partial at a place (R208). -/
def addendOf (fmt : CrFmt) (die slice pa : Nat) (x : Word) : Partial :=
  let p : Partial := ⟨die, slice, false, pa, fmt, 0, false, false, false⟩
  match fmt with
  | .i64 => { p with sum := x.toInt }
  | .f32 | .f64 =>
    match (crFp fmt).decode (x.toNat % 2 ^ (8 * CrFmt.bytes fmt)) with
    | .nan => { p with nan := true }
    | .inf neg => { p with pinf := !neg, ninf := neg }
    | .fin neg m e => { p with sum := scaled neg m e (crUnit fmt) }

/-- Exact addition of partials; an INT64 partial is kept modulo 2^64 (R208). -/
def Partial.plus (a b : Partial) : Partial :=
  { a with sum := (if a.fmt == .i64 then (a.sum + b.sum) % (2 ^ 64 : Int) else a.sum + b.sum), nan := a.nan || b.nan
           pinf := a.pinf || b.pinf, ninf := a.ninf || b.ninf }

/-- The element's new bits from memory's and the partials (R209). -/
def combined (fmt : CrFmt) (old : Nat) (ps : List Partial) : Nat :=
  let first := addendOf fmt 0 0 0 (BitVec.ofNat 64 old)
  let t := ps.foldl Partial.plus first
  match fmt with
  | .i64 => (t.sum % (2 ^ 64 : Int)).toNat
  | .f32 | .f64 =>
    let f := crFp fmt
    if t.nan || (t.pinf && t.ninf) then f.nanPat
    else if t.pinf then f.signed false f.infPat
    else if t.ninf then f.signed true f.infPat
    else if t.sum == 0 then 0
    else f.round 0 false (decide (t.sum < 0)) t.sum.natAbs (crUnit fmt) false

/-- Slice(pa) (R156): the position index, skipping retired tiles of the die. -/
def sliceOf (retired : List Nat) (die pa : Nat) : Nat :=
  let at_ := fun (i : Nat) => tileAt die (i % 384 % 24) (i % 384 / 24)
  let s0 := pa / 64 % 384
  match (List.range 384).find? fun k => !retired.contains (at_ (s0 + k)) with
  | some k => (s0 + k) % 384
  | none => s0

/-- The home of a line: a base die, or the host's own home (R150, R298). -/
def homeOf (line : Nat) : Nat := if isHostMem (64 * line) then 4 else homeBase (64 * line)

/-- The routes between two base dies, each the bridges it crosses: for adjacent dies the bridge and then the way round, for
opposite ones the two routes in either order (R11). -/
def routes (a b order : Nat) : List (List (Nat × Nat)) :=
  let ring := fun (x : Nat) => match x with | 0 => 1 | 1 => 3 | 3 => 2 | _ => 0
  let link := fun (x y : Nat) => (min x y, max x y)
  let round := fun (x : Nat) => [link x (ring x), link (ring x) (ring (ring x))]
  if a == b then [[]]
  else if a + b == 3 then (if order == 0 then [round a, round b] else [round b, round a])
  else if ring a == b then [[link a b], round b ++ [link (ring (ring b)) a]]
  else [[link a b], round a ++ [link (ring (ring a)) b]]

def isTransient (x : L2St) : Bool := x == .is_ || x == .im || x == .sm || x == .mi
def isStable (x : L2St) : Bool := x == .s || x == .e || x == .m || x == .o || x == .p

namespace State

/-- A route with no failed bridge. -/
def routeUp (s : State) (route : List (Nat × Nat)) : Bool := !route.any s.linksDown.contains

/-- A home's route to a base die and its alternate route: whether each is up (R11, R241). Which of two equal routes is
tried first is a free choice. -/
def routesUp (s : State) (line die : Nat) : Bool × Bool :=
  if homeOf line == 4 then (true, true)
  else
    let rs := (routes (homeOf line) (die / 2) (s.choose 2)).map s.routeUp
    (rs.getD 0 true, rs.getD 1 (rs.getD 0 true))

/-- Combine a line: partials in ascending die and slice number, then the home's, added exactly and rounded once; the line
leaves P on every die and at its home (R209, R238). -/
def combine (s : State) (line : Nat) : State :=
  match s.parts.find? fun p => p.pa / 64 == line with
  | none => s
  | some p0 =>
    let n := CrFmt.bytes p0.fmt
    let key := fun (p : Partial) => (if p.atHome then 8 * 384 else 384 * p.die + p.slice)
    let mine := sortBy (fun a b => key a < key b) (s.parts.filter fun p => p.pa / 64 == line)
    let s := (List.range (64 / n)).foldl (fun s i =>
      let pa := 64 * line + n * i
      let old := leNat (s.bytesAt pa n)
      s.writeAt none pa (leBytes n (combined p0.fmt old (mine.filter fun p => p.pa == pa)))) s
    let s := { s with parts := s.parts.filter fun p => p.pa / 64 != line }
    let s := (List.range 8).foldl (fun s d => if s.l2St d line == .p then s.setL2 d line .i else s) s
    let h := s.homeLine line
    if h.st == .p then s.setHome line { h with st := .i, mask := [] } else s

/-! ## Eviction from an L2 slice (R156, R182, R208, R237) -/

/-- The lines that share a slice's set with a line. -/
def setMates (s : State) (die line : Nat) : List (Nat × L2St) :=
  (s.l2.filter fun (k, _) => k % 8 == die && k / 8 != line && k / 8 / 384 % 256 == line / 384 % 256
    && sliceOf s.retired die (k / 8 * 64) == sliceOf s.retired die (line * 64)).map fun (k, x) => (k / 8, x)

/-- A slice's partials of a line are added into the home's (R208). -/
def partsHome (s : State) (die line : Nat) : State :=
  let mine := s.parts.filter fun p => p.die == die && !p.atHome && p.pa / 64 == line
  let add := fun (ps : List Partial) (p : Partial) => match ps.find? fun q => q.atHome && q.pa == p.pa with
    | some q => q.plus p :: ps.filter fun r => !(r.atHome && r.pa == p.pa)
    | none => { p with atHome := true } :: ps
  { s with parts := mine.foldl add (s.parts.filter fun p => !(p.die == die && !p.atHome && p.pa / 64 == line)) }

/-- A line leaves a die's L2: silently from S or E, by WriteBack from M or O, its partials going home from P; its L1 copies
on the die go, and a vector that is not empty makes its die broad. -/
def evictLine (s : State) (die line : Nat) : State :=
  let s := (s.l1Drop line fun t => dieOf t == die)
  let s := { s with specVec := s.specVec.map (fun (v : SpecVec) => if v.die == die && v.line == line then { v with away := true } else v) }
  match s.l2St die line with
  | .s | .e => s.setL2 die line .i
  | .m | .o => (s.setL2 die line .mi).later (.writeback die line)
  | .p => (s.partsHome die line).setL2 die line .i
  | .i | .is_ | .im | .sm | .mi => s

/-- A line that comes into a full set of 16 ways takes the place of another, a free choice (log 18). -/
def makeWay (s : State) (die line : Nat) : State :=
  let mates := s.setMates die line
  if mates.length < 16 then s
  else
    let xs := mates.filter fun e => isStable e.2
    match xs[s.choose xs.length]? with
    | none => s
    | some e => s.tick.evictLine die e.1

/-- The line comes into the L2 of a die, in a state. -/
def install (s : State) (die line : Nat) (x : L2St) : State := (s.makeWay die line).setL2 die line x

/-- The line leaves the die, with its L1 copies (R155). -/
def leave (s : State) (die line : Nat) (x : L2St) : State := (s.l1Drop line fun t => dieOf t == die).setL2 die line x

/-- Before a die is granted X or O, the host's copy is invalidated (R298). -/
def backInval (s : State) (line : Nat) : State :=
  if s.hostHeld.contains line then { s with hostHeld := removeNat line s.hostHeld, outbox := s.outbox ++ [Out.backInval line] } else s

/-! ## Transactions made at once (R236..R238; log 61) -/

/-- A request or an answer about the line is under way (R237, R238). -/
def lineBusy (s : State) (line : Nat) : Bool :=
  let h := s.homeLine line
  h.busy.isSome || !h.queue.isEmpty || (List.range 8).any fun d => isTransient (s.l2St d line)

/-- The owner gives its copy to a reader: O if it was M or O, S if it was E; an owner that let the line go holds nothing
(R237, R238). The dies that hold the line then, and whether the owner keeps it in O. -/
def ownerShares (s : State) (line : Nat) : State × List Nat × Bool :=
  let h := s.homeLine line
  match s.l2St h.owner line with
  | .m => (s.setL2 h.owner line .o, h.mask, true)
  | .o => (s, h.mask, true)
  | .e => (s.setL2 h.owner line .s, insertNat h.owner h.mask, false)
  | .i | .s | .p | .is_ | .im | .sm | .mi => (s, h.mask, false)

/-- The line becomes readable in a die's L2: ReadS with its answer (R237, R238); none while the line is under way. -/
def shareNow (s : State) (die line : Nat) : Option State :=
  match s.l2St die line with
  | .s | .e | .o | .m => some s
  | .i | .p | .is_ | .im | .sm | .mi =>
    if s.lineBusy line then none
    else
      let s := s.combine line
      let h := s.homeLine line
      match h.st with
      | .i | .p => some (((s.backInval line).setHome line { h with st := .x, owner := die, mask := [] }).install die line .e)
      | .s => some ((s.setHome line { h with mask := insertNat die h.mask }).install die line .s)
      | .x | .o =>
        match s.ownerShares line with
        | (s, mask, true) =>
          some (((s.backInval line).setHome line { h with st := .o, mask := insertNat die mask }).install die line .s)
        | (s, [], false) => some (((s.backInval line).setHome line { h with st := .x, owner := die, mask := [] }).install die line .e)
        | (s, mask, false) => some ((s.setHome line { h with st := .s, mask := insertNat die mask }).install die line .s)

/-- Every copy of the line but one die's is invalidated. -/
def invalidateOthers (s : State) (line : Nat) (but : Option Nat) : State :=
  (List.range 8).foldl (fun s d => if some d == but || s.l2St d line == .i then s else s.leave d line .i) s

/-- The sharers, but one die, to which the home has no route up (R241). -/
def stuck (s : State) (line : Nat) (but : Option Nat) : List Nat :=
  let h := s.homeLine line
  match h.st with
  | .s | .o => h.mask.filter fun d => some d != but && s.routesUp line d == (false, false)
  | .i | .x | .p => []

/-- A write that would be made at once meets a sharer that no route reaches: the home enters F, the copies in its reach go, and
the write is tried again until the retries have run out and the line is poisoned (R241). A write for no die counts as die 8's. -/
def enterF (s : State) (line : Nat) (but : Option Nat) : State :=
  let lost := s.stuck line but
  if s.lineBusy line || lost.isEmpty then s
  else
    let h := s.homeLine line
    let near := (List.range 8).filter fun d => some d != but && !lost.contains d && s.l2St d line != .i
    let s := near.foldl (fun s d => s.leave d line .i) s
    let b : Busy := { req := .readx, die := but.getD 8, acks := lost, needData := false, ownerDirty := false, served := false,
                      absent := false, retry := true }
    (s.setHome line { h with busy := some b }).after (2 * s.period) (.invRetryTimeout line)

/-- The line becomes writable in a die's L2: ReadX or Upgrade with its answer (R237, R238); none while the line is under
way or a sharer is out of reach (R241). -/
def ownNow (s : State) (die line : Nat) : Option State :=
  match s.l2St die line with
  | .m => some s
  | .e => some (s.setL2 die line .m)
  | .i | .s | .o | .p | .is_ | .im | .sm | .mi =>
    if s.lineBusy line || !(s.stuck line (some die)).isEmpty then none
    else
      let s := (s.combine line).invalidateOthers line (some die)
      let there := s.l2St die line == .i
      let s := (s.backInval line).setHome line { s.homeLine line with st := .x, owner := die, mask := [] }
      some (if there then s.install die line .m else s.setL2 die line .m)

/-- A read at the home by the host or another package, which keeps no copy in a die: an owner answers as FwdS asks (R238,
R298). -/
def homeRead (s : State) (line : Nat) : Option State :=
  if s.lineBusy line then none
  else
    let s := s.combine line
    let h := s.homeLine line
    match h.st with
    | .i | .s | .p => some s
    | .x | .o =>
      match s.ownerShares line with
      | (s, mask, true) => some (s.setHome line { h with st := .o, mask := mask })
      | (s, [], false) => some (s.setHome line { h with st := .i, mask := [] })
      | (s, mask, false) => some (s.setHome line { h with st := .s, mask := mask })

/-- A write at the home by the host, another package or the device itself: every die's copy is invalidated first (R238, R298);
none while the line is under way or a sharer is out of reach (R241). -/
def homeWrite (s : State) (line : Nat) : Option State :=
  if s.lineBusy line || !(s.stuck line none).isEmpty then none
  else
    let s := (s.combine line).invalidateOthers line none
    some (s.setHome line { s.homeLine line with st := .i, mask := [] })

/-- A device line is held coherently by the die L2s; a host line is so in CXL operation (R236, R298). -/
def coherent (s : State) (pa : Nat) : Bool := isDevice pa || (s.cxlOn && isHostMem pa)

/-- A line that the device reads for itself at a die, as a load would (R237); one that is under way is read as it stands. -/
def deviceRead (s : State) (die pa : Nat) : State :=
  if s.coherent pa then (s.shareNow die (pa / 64)).getD s else s

/-- A line that the device writes for a task at a die, as a store would (R237); one that is under way is written as it stands. -/
def deviceOwn (s : State) (die pa : Nat) : State :=
  if s.coherent pa then (s.ownNow die (pa / 64)).getD (s.enterF (pa / 64) (some die)) else s

/-- A line that the device writes for itself at its home (R238); one that is under way is written as it stands. -/
def deviceAt (s : State) (pa : Nat) : State :=
  if s.coherent pa then (s.homeWrite (pa / 64)).getD (s.enterF (pa / 64) none) else s

/-- A write that the device makes for itself to memory, at the line's home (R236). -/
def deviceWrite (s : State) (pa : Nat) (bs : List Byte) : State := (s.deviceAt pa).writeAt none pa bs

end State

end Sys2Proof.Machine
end

