-- ==== Sys2Proof/Machine/Pages.lean ====
section
/-!
DEFINITION. Scratchpad pages (R160..R167): frames, slots and sources, page-in, eviction, and the bytes of a block's space
wherever a page's contents stand. The Peat service and the system context's part in it are one event per page (log 16).
-/
namespace Sys2Proof.Machine

/-- Scratchpad frames in force (R21, R151). -/
def frameCount (x : TileS) : Nat := match x.spCur.toNat with | 0 => 160 | 1 => 128 | 2 => 96 | _ => 64

/-- Where a frame's bytes stand in `frames`. -/
def frameBase (t f : Nat) : Nat := (t * 256 + f) * 2048

/-- Pages below the initial xb (R38, R87). -/
def codePages (l : Launch) : Nat := (l.codesz + 2047) / 2048

/-- The workspace pages at the top of the space, W of R160. -/
def workPages (l : Launch) : Nat := 2 * l.cap

/-- Why a page-in failed (R166): cause, trap word and second value. -/
structure PageFail where
  cause : Nat
  word  : Word
  val2  : Word
deriving DecidableEq, Repr

namespace State

/-! ## Budgets (R56) -/

def nextPeriod (s : State) : Nat := (s.cycle / s.period + 1) * s.period

/-- The launch's budget i (0 Sluice, 1 Peat, 2 Heron, 3 host service) is used up in this period. -/
def overBudget (s : State) (lq i : Nat) : Bool :=
  let l := s.launch lq
  let limit := bits l.budget (16 * i) 16
  limit != 0 && limit ≤ l.spent.getD i 0

/-- Charge a free number of cycles of service work (log 2). -/
def charge (s : State) (lq i : Nat) : State :=
  (s.onLaunch lq fun l => { l with spent := l.spent.set i (l.spent.getD i 0 + 1 + Config.latency s.fresh) }).tick

/-! ## Frames -/

/-- The pages that hold a frame of a tile, with their blocks. -/
def framedOn (s : State) (t : Nat) : List (Nat × Nat × Page) :=
  s.blocks.flatMap fun (b, x) => (x.pages.filter fun (_, p) => p.st == .framed && p.tile == t).map fun (n, p) => (b, n, p)

/-- The slot of a page in the launch's Peat region (R163). -/
def slotAt (s : State) (b p : Nat) : Nat :=
  let x := s.block b
  let l := s.launch x.lq
  l.peat + areaBytes l.sppages * x.idx + tableBytes l.sppages + 2048 * p

/-- Resident pages of a block (R164). -/
def residentPages (s : State) (b : Nat) : Nat :=
  let x := s.block b
  (x.pages.filter fun (_, p) => p.st == .framed && p.tile == x.tile).length

/-- A page may be a victim (R167). A Remote page is only pulled or freed, and a poisoned frame keeps its page until SPFREE
(R165). -/
def evictable (s : State) (e : Nat × Nat × Page) : Bool :=
  e.2.2.tile == (s.block e.1).tile && !e.2.2.pin && !e.2.2.lock && !e.2.2.ws && !s.frameBad.contains (e.2.2.tile, e.2.2.frame)

/-- Copy 2 KiB between the frames and the image; only the listed bytes move, so the target is cleared first. -/
def frameToMem (s : State) (frame pa : Nat) : State :=
  let cells := (Cells.range s.frames frame 2048).map fun (k, v) => (k - frame + pa, v)
  let s := { s with mem := Cells.writeCells (Cells.clear s.mem pa 2048) cells }
  { s with tiles := s.tiles.mapVals fun _ x => { x with l1 := x.l1.filter (fun e => !(pa / 64 ≤ e.pline && e.pline < pa / 64 + 32)) } }

def memToFrame (s : State) (pa frame : Nat) : State :=
  let cells := (Cells.range s.mem pa 2048).map fun (k, v) => (k - pa + frame, v)
  { s with frames := Cells.writeCells (Cells.clear s.frames frame 2048) cells }

/-- The frame of a page was used (R167). -/
def usedFrame (s : State) (t f : Nat) : State := s.onTile t fun x => { x with used := f :: removeNat f x.used }

/-- No scratchpad translation buffer names the page any longer (R162, R168). -/
def stlbDrop (s : State) (b p : Nat) : State :=
  { s with tiles := s.tiles.mapVals fun _ x => { x with stlb := x.stlb.filter fun e => !(e.1 == b && e.2.1 == p) } }

/-- Evict a page: a dirty page is written to its slot; a code page never is (R164, R165). -/
def evict (s : State) (b p : Nat) : State :=
  let x := s.page b p
  let s := if x.dirty && codePages (s.launch (s.block b).lq) ≤ p
           then s.frameToMem (frameBase x.tile x.frame) (s.slotAt b p) else s
  (s.stlbDrop b p).setPage b p { x with st := .parked, dirty := false, tile := 0, frame := 0 }

/-- The victim among some pages of a tile: the least recently used (R167). A frame that nothing has used since reset comes
first. -/
def oldest (s : State) (t : Nat) (cls : List (Nat × Nat × Page)) : Option (Nat × Nat × Page) :=
  match cls.find? fun e => !(s.tile t).used.contains e.2.2.frame with
  | some e => some e
  | none => (s.tile t).used.reverse.findSome? fun f => cls.find? fun e => e.2.2.frame == f

/-- A frame for an incoming page of block b on tile t (R167): a free one, else a victim of the first class that has one. -/
def takeFrame (s : State) (t b : Nat) : Option (State × Nat) :=
  let on := s.framedOn t
  match leastFree (on.map fun e => e.2.2.frame) 0 (frameCount (s.tile t)) with
  | some f => some (s.usedFrame t f, f)
  | none =>
    let cands := on.filter s.evictable
    let rich := cands.filter fun e => (s.launch (s.block e.1).lq).minres < s.residentPages e.1
    let own := cands.filter fun e => e.1 == b
    let cls := if !rich.isEmpty then rich else if !own.isEmpty then own else cands
    match s.oldest t cls with
    | none => none
    | some e => some ((s.evict e.1 e.2.1).usedFrame t e.2.2.frame, e.2.2.frame)

/-! ## Page-in (R165, R166) -/

/-- The first poisoned line of 2 KiB. -/
def poisonIn (s : State) (pa : Nat) : Option Nat :=
  ((List.range 32).find? fun i => s.poison.contains (pa / 64 + i)).map fun i => pa + 64 * i

/-- Where a Parked page's contents come from, or why they cannot be read (R164, R166). -/
def pageSource (s : State) (b p : Nat) : Nat ⊕ PageFail :=
  let l := s.launch (s.block b).lq
  let checked := fun (pa : Nat) => match s.poisonIn pa with
    | some bad => Sum.inr { cause := 0x0F, word := 1, val2 := BitVec.ofNat 64 bad }
    | none => Sum.inl pa
  if p < codePages l then
    let va := l.code + BitVec.ofNat 64 (2048 * p)
    match vclass va with
    | .memory =>
      match s.translateNow l.asid va with
      | .fault lev => .inr { cause := 0x06, word := va, val2 := BitVec.ofNat 64 lev }
      | .poison pa => .inr { cause := 0x0F, word := 1, val2 := BitVec.ofNat 64 pa }
      | .ok pa _ rd _ => if !rd then .inr { cause := 0x03, word := va, val2 := 0 } else checked pa
    | .scratch _ | .nonCanonical => .inr { cause := 0x06, word := va, val2 := 4 }
  else checked (s.slotAt b p)

/-- The failure that an access to this page would meet in place of the page, if any. -/
def pageFail (s : State) (b p : Nat) : Option PageFail :=
  match (s.page b p).st with
  | .parked => match s.pageSource b p with | .inl _ => none | .inr f => some f
  | .unmapped | .framed => none

/-- Bring a page Resident on its block's tile: none while no frame can be taken (R165, R167). The lock falls. -/
def bringIn (s : State) (b p : Nat) : Option State :=
  let x := s.page b p
  match x.st with
  | .framed => some (s.setPage b p { x with lock := false })
  | .unmapped =>
    match s.takeFrame (s.blockTile b) b with
    | none => none
    | some (s, f) =>
      let s := { s with frames := Cells.clear s.frames (frameBase (s.blockTile b) f) 2048 }
      some (s.setPage b p { x with st := .framed, lock := false, dirty := true, tile := s.blockTile b, frame := f })
  | .parked =>
    match s.pageSource b p with
    | .inr _ => some (s.setPage b p { x with lock := false })
    | .inl pa =>
      match s.takeFrame (s.blockTile b) b with
      | none => none
      | some (s, f) =>
        let s := s.memToFrame pa (frameBase (s.blockTile b) f)
        some (s.setPage b p { x with st := .framed, lock := false, dirty := false, tile := s.blockTile b, frame := f })

/-- The idle system context of a tile wakes for the Peat or the spill service (R67). -/
def wakeSystem (s : State) (t : Nat) : State :=
  if (s.ctx (ctxKey t 16)).status == .waiting .idle then s.onCtx (ctxKey t 16) fun c => { c with status := .waiting .serving } else s

/-- The system contexts that serve have nothing left to do and are idle again, but where a page of a block of their tile is still
locked (R67). -/
def restSystem (s : State) : State :=
  let locked := fun (t : Nat) => s.blocks.any fun (_, x) => x.tile == t && x.pages.any fun (_, p) => p.lock
  if s.ctxs.any fun (_, c) => c.status == .waiting .serving then
    { s with ctxs := s.ctxs.mapVals fun k c =>
        if c.status == .waiting .serving && !locked (k / 32) then { c with status := .waiting .idle } else c }
  else s

/-- A scratchpad page fault: the entry is locked and the system context is woken for the Peat service (R67, R165). -/
def pageFault (s : State) (b p : Nat) : State :=
  let x := s.page b p
  if x.lock then s else ((s.setPage b p { x with lock := true }).wakeSystem (s.blockTile b)).later (.pageInDone b p)

/-! ## Bytes of a block's space -/

/-- Where the byte at an offset stands, when its page is in a frame. -/
def frameAddr (s : State) (b off : Nat) : Option Nat :=
  let x := s.page b (off / 2048)
  match x.st with
  | .framed => some (frameBase x.tile x.frame + off % 2048)
  | .unmapped | .parked => none

def frameRead (s : State) (b off n : Nat) : List Byte :=
  match s.frameAddr b off with
  | some a => Cells.readN s.frames a n
  | none => List.replicate n 0

/-- A place of a block's space is on one of the lines that n bytes from an offset touch. -/
def onScratch (b off n : Nat) : Loc → Bool
  | .scr c o => c == b && off / 64 ≤ o / 64 && o / 64 ≤ (off + n - 1) / 64
  | .mem _ => false

/-- Write bytes of one page in its frame; the page becomes dirty (R164), and a WAIT on the line loads again (R494). -/
def frameWrite (s : State) (b off : Nat) (bs : List Byte) : State :=
  match s.frameAddr b off with
  | some a =>
    (({ s with frames := Cells.writeN s.frames a bs }).setPage b (off / 2048)
      { s.page b (off / 2048) with dirty := true }).notice (onScratch b off bs.length)
  | none => s

def frameWriteBytes (s : State) (b : Nat) : List (Nat × Byte) → State
  | [] => s
  | (o, x) :: rest => (s.frameWrite b o [x]).frameWriteBytes b rest

/-- The bytes at an offset wherever the page's contents stand: frame, slot or code image; an Unmapped page reads zero. -/
def blockRead (s : State) (b off n : Nat) : List Byte :=
  match (s.page b (off / 2048)).st with
  | .framed => s.frameRead b off n
  | .unmapped => List.replicate n 0
  | .parked => match s.pageSource b (off / 2048) with
    | .inl pa => s.bytesAt (pa + off % 2048) n
    | .inr _ => List.replicate n 0

/-- The device's own write to a page that need not be in a frame (undo restores, R165): it is brought in first, which charges
the launch's Peat budget (R56). An abort waits while a page of its restores cannot be (`restoreHeld`), so it is only at the end of
a launch, whose blocks go, that a write finds no frame and is lost. The tile of the frame wakes (R88). -/
def blockWrite (s : State) (b off : Nat) (bs : List Byte) : State :=
  let p := off / 2048
  match (s.page b p).st with
  | .framed => (s.frameWrite b off bs).wakeTile (s.page b p).tile
  | .unmapped | .parked =>
    match ((s.charge (s.block b).lq 1).wakeSystem (s.blockTile b)).bringIn b p with
    | some s => (s.frameWrite b off bs).wakeTile (s.page b p).tile
    | none => s

def blockDword (s : State) (b off : Nat) : Word := BitVec.ofNat 64 (leNat (s.blockRead b off 8))

/-- The frame of a page is poisoned (R165). -/
def frameIsBad (s : State) (b p : Nat) : Bool :=
  let x := s.page b p
  x.st == .framed && s.frameBad.contains (x.tile, x.frame)

/-- Make a page Unmapped: its contents are lost and its frame is released (R165 SPFREE). -/
def freePage (s : State) (b p : Nat) : State :=
  let x := s.page b p
  let s := { s with frameBad := if x.st == PageSt.framed then s.frameBad.filter (fun e => e != (x.tile, x.frame)) else s.frameBad }
  (s.stlbDrop b p).onBlock b fun y => { y with pages := y.pages.erase p, pulls := removeNat p y.pulls }

/-- An access to a page in a frame: it is the most recently used, and a Remote one moves to the front of the pull order
(R167, R168). -/
def touchPage (s : State) (b p : Nat) : State :=
  let x := s.page b p
  if x.st == .framed then
    let s := s.usedFrame x.tile x.frame
    if x.tile == (s.block b).tile then s
    else s.onBlock b fun y => if y.pulls.contains p then { y with pulls := p :: removeNat p y.pulls } else y
  else s

end State

end Sys2Proof.Machine
end

