-- ==== Sys2Proof/Machine/Regs.lean ====
section
/-!
DEFINITION. The register windows (R293): launch queue registers (R34..R37, R289), host fence (R243), global configuration
(R295, R300, R304, R306), walk-engine windows (R295, R296, R159), tile configuration (R151); their fields by access code
(R5) and the actions their writes start.
-/
namespace Sys2Proof.Machine

/-- Bits 63:52 and 7:4 reserved; base in 51:8 (R34). -/
def LaunchQ.ring (q : LaunchQ) : Word := BitVec.ofNat 64 (q.base * 256 + q.lgsize)
/-- en, prio and a run bit in their places (R34, R37). -/
def LaunchQ.ctl (q : LaunchQ) (map run : Bool) : Word :=
  BitVec.ofNat 64 (map.toNat * 2 ^ 15 + q.en.toNat * 2 ^ 14 + run.toNat * 2 ^ 13 + q.prio * 256)

namespace State

/-! ## Launch queues -/

/-- Device memory is absent under the reduced service (R33, R308): what the package itself would write there is lost, and a
queue whose save area lies there is neither mapped nor unmapped (DESIGN CHOICE, log 102). -/
def absentMemory (s : State) (pa : Nat) : Bool := !s.full && isDevice pa

/-- A write that the device makes for itself to memory, where that is present (R33). -/
def ownWrite (s : State) (pa : Nat) (bs : List Byte) : State := if s.absentMemory pa then s else s.deviceWrite pa bs

/-- A notify: stored while the queue is unmapped, ignored with badn when it runs too far ahead (R35, R289). No head record waits
any longer when it leaves none (R34). -/
def lqNotify (s : State) (q : Nat) (tail : BitVec 16) : State :=
  let x := s.queue q
  if !x.map then
    let old := match x.noted with
      | some (at_, _, old) => if at_ == s.cycle then old else s.dwordAt (x.save + 24)
      | none => s.dwordAt (x.save + 24)
    if s.absentMemory x.save then s
    else (s.deviceWrite (x.save + 24) (leBytes 8 tail.toNat)).onQueue q fun x => { x with noted := some (s.cycle, tail, old) }
  else if 2 ^ x.lgsize < (tail - x.head).toNat then s.onQueue q fun x => { x with badn := true }
  else s.onQueue q fun x => { x with tail := tail, wait := x.wait && tail != x.head }

/-- map := 1: the queue's state is loaded from its save area (R37); the saved tail is acted on under R35 (log 23). A notify of
the same cycle is applied after the load (R289). -/
def lqMap (s : State) (q : Nat) : State :=
  let x := s.queue q
  if s.absentMemory x.save then s else
  let same := x.noted.filter fun n => n.1 == s.cycle
  let ring := s.dwordAt x.save
  let ctl := s.dwordAt (x.save + 8)
  let head : BitVec 16 := (s.dwordAt (x.save + 16)).setWidth 16
  let saved : Word := match same with
    | some n => n.2.2
    | none => s.dwordAt (x.save + 24)
  let tail : BitVec 16 := saved.setWidth 16
  let far := 2 ^ bits ring 0 4 < (tail - head).toNat
  let s := s.onQueue q fun x => { x with
    base := bits ring 8 44, lgsize := bits ring 0 4, map := true, named := true, en := bit ctl 14, prio := bits ctl 8 5, head := head
    tail := if far then head else tail, badn := x.badn || far, wait := false, noted := none }
  match same with
  | some n => s.lqNotify q n.2.1
  | none => s

/-- map := 0: the queue's state is stored in its save area (R37); no head record waits any longer (R34). -/
def lqUnmap (s : State) (q : Nat) : State :=
  let x := s.queue q
  if s.absentMemory x.save then s else
  let s := s.deviceWrite x.save (leBytes 8 x.ring.toNat ++ leBytes 8 (x.ctl false x.run).toNat ++ leBytes 8 x.head.toNat
    ++ leBytes 8 x.tail.toNat ++ List.replicate 32 0)
  s.onQueue q fun x => { x with map := false, named := true, wait := false, noted := none }

/-- A write of lqctl: a change of map acts on map alone; en and prio are taken while map stays 1 (R37). -/
def lqCtl (s : State) (q : Nat) (v : Word) : State :=
  let x := s.queue q
  match x.map, bit v 15 with
  | false, true => s.lqMap q
  | true, false => s.lqUnmap q
  | true, true => s.onQueue q fun x => { x with en := bit v 14, prio := bits v 8 5 }
  | false, false => s

/-- A read of a queue's register. While the queue is unmapped, lqctl shows en and prio from the save area (R37), at their reset
values until lqsave or map has been written (R6, R34; DEDUCED, log 101), and run as 0, since R37 gives run only for a mapped queue
(DESIGN CHOICE, log 72). -/
def queueRead (s : State) (q off : Nat) : Word :=
  let x := s.queue q
  match off with
  | 0x00 => x.ring
  | 0x08 =>
    if x.map then x.ctl true x.run
    else if !x.named || s.absentMemory x.save then 0
    else BitVec.ofNat 64 ((s.dwordAt (x.save + 8)).toNat &&& 0x5F00)
  | 0x10 => x.head.setWidth 64
  | 0x20 => BitVec.ofNat 64 x.save
  | 0x28 => BitVec.ofNat 64 (x.started.toNat * 2 ^ 32 + x.refused.toNat * 2 ^ 16 + x.badn.toNat * 2 + x.wait.toNat)
  | _ => 0

def queueWrite (s : State) (q off : Nat) (v : Word) : State :=
  match off with
  | 0x00 => s.onQueue q fun x => { x with base := bits v 8 44, lgsize := bits v 0 4 }
  | 0x08 => s.lqCtl q v
  | 0x18 => s.lqNotify q (v.setWidth 16)
  | 0x20 => s.onQueue q fun x => { x with save := bits v 6 46 * 64, named := true }
  | 0x28 => s.onQueue q fun x => { x with badn := x.badn && !bit v 1 }
  | _ => s

/-! ## Host fence (R243) -/

/-- A go write; a fence already running finishes first. -/
def fenceGo (s : State) : State :=
  let s' := { s with fences := s.fences ++ [s.nextReq] }
  if s.fences.isEmpty then s'.later .hostFenceDone else s'

/-! ## Attestation (R307) -/

def reportGo (s : State) : State :=
  let s' := { s with atreqBusy := s.atreqBusy ++ [s.atreqAddr] }
  if s.atreqBusy.isEmpty then s'.later .attestDone else s'

/-! ## Translation invalidation (R159, R296) -/

def walkWin (s : State) (die : Nat) : WalkWin := (s.walk.get? die).getD WalkWin.reset
def setWalk (s : State) (die : Nat) (w : WalkWin) : State := { s with walk := s.walk.set die w }

/-- Start an invalidation: the translation buffer entries that overlap and the ASID's L1 lines in the range go; it is done
once the accesses translated before have been performed. -/
def xinvStart (s : State) (die : Nat) (q : Inval) (rest : List Inval) : State :=
  let all := bit q.value 16
  let asid := bits q.value 0 16
  let lo := q.first * 2 ^ 16
  let hi := (q.first + q.count) * 2 ^ 16
  let w := { s.walkWin die with all := all, asid := asid, done := q.count == 0, held := rest, mark := s.nextStore, outMark := s.nextReq }
  if q.count == 0 then s.setWalk die w
  else
    let meets := fun (e : TlbEntry) => (all || e.asid == asid || pteG e.pte)
      && e.vpn * 2 ^ 16 / 2 ^ e.size * 2 ^ e.size < hi && lo < (e.vpn * 2 ^ 16 / 2 ^ e.size + 1) * 2 ^ e.size
    let s := { s with
      tlb := s.tlb.filter fun e => !meets e
      tiles := s.tiles.mapVals fun _ x =>
        { x with l1 := x.l1.filter fun e => !((all || e.asid == asid) && lo ≤ e.vline * 64 && e.vline * 64 < hi) } }
    (s.setWalk die w).later (.xinvDone die)

/-- Start the first of these; one that invalidates nothing is done at once, and the next starts (R295, R296). -/
def xinvRun (s : State) (die : Nat) : List Inval → State
  | [] => s
  | q :: rest => let s := s.xinvStart die q rest; if q.count == 0 then s.xinvRun die rest else s

/-- A write of xinvc: held while an invalidation of the same die runs (R296). -/
def xinvWrite (s : State) (die : Nat) (v : Word) : State :=
  let w := s.walkWin die
  let q : Inval := { value := v, count := w.count, first := w.first }
  if w.done then s.xinvRun die (q :: w.held) else s.setWalk die { w with held := w.held ++ [q] }

/-! ## Global configuration -/

def clampBudget (n : Nat) : Nat := if n < 600 then 600 else if 2400 < n then 2400 else n

def globalRead (s : State) (off : Nat) : Word :=
  if 0x800 ≤ off && off < 0xC00 then
    BitVec.ofNat 64 (leNat ((List.range 8).map fun i => Config.certificateByte (off - 0x800 + i)))
  else match off with
  | 0x00 => BitVec.ofNat 64 ((3072 - s.retired.length) * 2 ^ 20 + s.atdone.toNat * 2 + s.full.toNat)
  | 0x08 => BitVec.ofNat 64 (s.asidrtBase * 2 ^ 19 + s.asidrtEn.toNat)
  | 0x10 => BitVec.ofNat 64 (s.cwBase * 2 ^ 15 + s.cwEn.toNat)
  | 0x18 => BitVec.ofNat 64 (s.pctlMode * 2 ^ 16 + s.pctlBudget)
  | 0x20 => BitVec.ofNat 64 (s.atreqAddr * 256)
  | _ => 0

def globalWrite (s : State) (off : Nat) (v : Word) : State :=
  match off with
  | 0x00 => { s with atdone := s.atdone && !bit v 1 }
  | 0x08 => { s with asidrtBase := bits v 19 33, asidrtEn := bit v 0 }
  | 0x10 => { s with cwBase := bits v 15 37, cwEn := bit v 0 }
  | 0x18 => { s with pctlMode := bits v 16 2, pctlBudget := clampBudget (bits v 0 12) }
  | 0x20 =>
    let s := { s with atreqAddr := bits v 8 44 }
    if bit v 0 then s.reportGo else s
  | _ => s

def frameCode (c : BitVec 2) : Nat := match c.toNat with | 0 => 160 | 1 => 128 | 2 => 96 | _ => 64

/-- The dword register at an offset of the windows; zero where no window lists one (R293). -/
def regRead (s : State) (off : Nat) : Word :=
  let o := off / 8 * 8
  if o < 0x1000 then s.queueRead (o / 0x40) (o % 0x40)
  else if o < 0x2000 then (if o == 0x1000 then s.seq.setWidth 64 else 0)
  else if o < 0x3000 then s.globalRead (o - 0x2000)
  else if 0x8000 ≤ o && o < 0x10000 then
    let w := s.walkWin ((o - 0x8000) / 0x1000)
    match o % 0x1000 with
    | 0x00 => BitVec.ofNat 64 (w.done.toNat * 2 ^ 63 + w.all.toNat * 2 ^ 16 + w.asid)
    | 0x08 => BitVec.ofNat 64 (w.count * 2 ^ 41 + w.first)
    | _ => 0
  else if 0x100000 ≤ o && o < 0x200000 then
    let t := (o - 0x100000) / 0x100
    if o % 0x100 == 0 && isTile t && !s.retired.contains t then
      let x := s.tile t
      BitVec.ofNat 64 (x.spReq.toNat * 2 ^ 16 + x.spCur.toNat * 2 ^ 14 + frameCode x.spCur)
    else 0
  else 0

/-- A write of a whole register: its fields by their access codes, and the action it starts (R5, R294). -/
def regWrite (s : State) (off : Nat) (v : Word) : State :=
  let o := off / 8 * 8
  if o < 0x1000 then s.queueWrite (o / 0x40) (o % 0x40) v
  else if o < 0x2000 then (if o == 0x1008 && bit v 0 then s.fenceGo else s)
  else if o < 0x3000 then s.globalWrite (o - 0x2000) v
  else if 0x8000 ≤ o && o < 0x10000 then
    let d := (o - 0x8000) / 0x1000
    match o % 0x1000 with
    | 0x00 => s.xinvWrite d v
    | 0x08 => s.setWalk d { s.walkWin d with count := bits v 41 23, first := bits v 0 41 }
    | _ => s
  else if 0x100000 ≤ o && o < 0x200000 then
    let t := (o - 0x100000) / 0x100
    if o % 0x100 == 0 && isTile t && !s.retired.contains t then
      s.onTile t fun x => { x with spReq := BitVec.ofNat 2 (bits v 16 2) }
    else s
  else s

/-- The value a register takes on a write that starts no action: the high half is written, the low half keeps what it
holds (R294). W1C bits lie in low halves and are written as zero. -/
def regWriteHigh (s : State) (off : Nat) (hi : Nat) : State :=
  let o := off / 8 * 8
  let v := BitVec.ofNat 64 (hi % 2 ^ 32 * 2 ^ 32 + (s.regRead o).toNat % 2 ^ 32)
  if o < 0x1000 then
    match o % 0x40 with
    | 0x00 => s.queueWrite (o / 0x40) 0x00 v
    | 0x20 => s.queueWrite (o / 0x40) 0x20 v
    | _ => s
  else if o == 0x2008 || o == 0x2010 then s.globalWrite (o - 0x2000) v
  else if o == 0x2020 then { s with atreqAddr := bits v 8 44 }
  else if 0x8000 ≤ o && o < 0x10000 && o % 0x1000 == 8 then s.regWrite o v
  else s

/-- A read of the windows by width (R294): a whole register, a half, or zero. -/
def windowRead (s : State) (off width : Nat) : Nat :=
  if width == 8 && off % 8 == 0 then (s.regRead off).toNat
  else if width == 4 && off % 4 == 0 then (s.regRead off).toNat >>> (8 * (off % 8)) % 2 ^ 32
  else 0

/-- A write of the windows by width (R294); a low-half write keeps the register's high half. -/
def windowWrite (s : State) (off width v : Nat) : State :=
  if width == 8 && off % 8 == 0 then s.regWrite off (BitVec.ofNat 64 v)
  else if width == 4 && off % 8 == 0 then
    s.regWrite off (BitVec.ofNat 64 ((s.regRead off).toNat / 2 ^ 32 * 2 ^ 32 + v % 2 ^ 32))
  else if width == 4 && off % 8 == 4 then s.regWriteHigh off v
  else s

/-! ## Physical accesses of every kind (R292) -/

/-- A read of the register windows: wider reads are dword reads (R294, R484). -/
def windowBytes (s : State) (off n : Nat) : List Byte :=
  if n ≤ 8 then leBytes n (s.windowRead off n)
  else (List.range (n / 8)).flatMap fun i => leBytes 8 (s.windowRead (off + 8 * i) 8)

/-- The Causeway window entry of an address: target node and remote address, or none where R300 refuses. -/
def window (s : State) (pa : Nat) : Option (Nat × Nat) :=
  let e := s.dwordAt (s.cwBase * 2 ^ 15 + 8 * (pa / 2 ^ 36 % 4096))
  if s.cwEn && bit e 63 && bits e 53 10 == 0 && bits e 16 16 == 0 && bits e 32 21 != s.node then
    some (bits e 32 21, bits e 0 16 * 2 ^ 36 + pa % 2 ^ 36)
  else none

/-- Where a request goes: an address of the host's, or the target node and its own address over Causeway (R300). -/
def outTarget (s : State) (pa : Nat) (toHost : Bool) : Option Nat × Nat :=
  if toHost then (none, pa)
  else match s.window pa with
    | some (node, a) => (some node, a)
    | none => (none, pa)

/-- Bytes at a physical address: a register's, another package's (free, log 11), or the coherent image's. -/
def physBytes (s : State) (pa n : Nat) : List Byte :=
  if isRegister pa then s.windowBytes (pa - regBase) n
  else if isCauseway pa then (List.range n).map (Config.remoteByte s.fresh)
  else s.bytesAt pa n

/-- A write of the register windows: a wider one is dword writes (R294, R322, R483). -/
def windowStore (s : State) (off : Nat) (bs : List Byte) : State :=
  if bs.length ≤ 8 then s.windowWrite off bs.length (leNat bs)
  else (List.range ((bs.length + 7) / 8)).foldl (fun s i =>
    let piece := (bs.drop (8 * i)).take 8
    s.windowWrite (off + 8 * i) piece.length (leNat piece)) s

/-- Bytes go to another package (R300). -/
def sendAway (s : State) (dest : Nat × Nat) (bs : List Byte) : State :=
  { s with outbox := s.outbox ++ [Out.request (some dest.1) 0 dest.2 bs] }.tick

/-- A write of host memory comes after the AtomicOps on their way as they found it when they were sent (R244, R299). -/
def noteHost (s : State) (pa : Nat) (bs : List Byte) : State :=
  if isHostMem pa then
    { s with remote := s.remote.map fun r => if r.toHost then { r with since := r.since ++ [(pa, bs)] } else r }
  else s

/-- Bytes by address as runs of consecutive bytes (R483). -/
def runsOf : List (Nat × Byte) → List (Nat × List Byte)
  | [] => []
  | (a, b) :: rest => match runsOf rest with
    | [] => [(a, [b])]
    | (c, bs) :: rs => if c == a + 1 then (a, b :: bs) :: rs else (a, [b]) :: (c, bs) :: rs

/-- Bytes of a store to an uncached target reach it, each run of consecutive bytes at its own address; `target` is where the first
byte goes in another package, as the Causeway window gave it at issue (R300). -/
def uncachedStore (s : State) (writer : Option Nat) (target : Option (Nat × Nat)) (bs : List (Nat × Byte)) : State :=
  let first := (bs.getD 0 (0, 0)).1
  (runsOf bs).foldl (fun s r =>
    if isRegister r.1 then s.windowStore (r.1 - regBase) r.2
    else if isCauseway r.1 then (match target with
      | some (node, a) => s.sendAway (node, a + (r.1 - first)) r.2
      | none => s)
    else (s.writeAt writer r.1 r.2).noteHost r.1 r.2) s

/-- Write bytes at a physical address: into a register, to another package, where R300 has an entry for it, or into the coherent
image, where a range line is combined first (R209). -/
def physWrite (s : State) (writer : Option Nat) (pa : Nat) (bs : List Byte) : State :=
  if isRegister pa then s.windowStore (pa - regBase) bs
  else if isCauseway pa then (match s.window pa with | some dest => s.sendAway dest bs | none => s)
  else ((s.combine (pa / 64)).writeAt writer pa bs).noteHost pa bs

end State

end Sys2Proof.Machine
end

