-- ==== Sys2Proof/Machine/Spec.lean ====
section
/-!
DEFINITION. Ordered tasks (07): ranks (R47), signatures (R178..R180), speculative-access vectors (R182), conflicts and the
exact check (R184, R185), pools (R174, R175), the undo log (R187..R189), and what the device does for a task by itself.
-/
namespace Sys2Proof.Machine

/-! ## Ranks (R47) -/

/-- The virtual time, or the queued rank while the record has no tiebreaker. -/
def rankOf (t : TaskRec) : Nat := t.ts.toNat * 2 ^ 32 + (if t.tb == 0 then t.ptb.toNat + 1 else t.tb.toNat)

/-- All ones in 96 bits: no unfinished ordered task (R59; log 7). -/
def noRank : Nat := 2 ^ 96 - 1

/-- Rank order among dispatched tasks: rank, then dispatch cycle, then tile (R47). -/
def Spec.before (x y : Spec) : Bool :=
  let a := rankOf x.task
  let b := rankOf y.task
  a < b || (a == b && (x.since < y.since || (x.since == y.since && x.tile < y.tile)))

/-! ## Signatures (R178, R179) -/

def sigKey : Loc → Nat
  | .mem pa => pa / 64
  | .scr b off => 2 ^ 46 + b * 2 ^ 18 + off / 64

/-- Gen of R179. -/
def gen (n : Nat) : Nat :=
  let m := (n + 1) * 0x9E3779B97F4A7C15 % 2 ^ 64
  m ^^^ (m >>> 31)

/-- The H3 hash: bits of `Gen` from `low` up, over the set bits of the key (R179). -/
def h3 (low first : Nat) (key : Nat) : Nat :=
  (List.range 47).foldl (fun h i => if key.testBit i then h ^^^ (gen (first + i) >>> low) else h) 0

def hashR (j key : Nat) : Nat := h3 55 (64 * j) key
def hashW (j key : Nat) : Nat := h3 56 (256 + 64 * j) key

def insertR (sig : BitVec 2048) (key : Nat) : BitVec 2048 :=
  BitVec.ofNat 2048 ((List.range 4).foldl (fun n j => n ||| 2 ^ (512 * j + hashR j key)) sig.toNat)
def insertW (sig : BitVec 1024) (key : Nat) : BitVec 1024 :=
  BitVec.ofNat 1024 ((List.range 4).foldl (fun n j => n ||| 2 ^ (256 * j + hashW j key)) sig.toNat)
def memberR (sig : BitVec 2048) (key : Nat) : Bool := (List.range 4).all fun j => bit sig (512 * j + hashR j key)
def memberW (sig : BitVec 1024) (key : Nat) : Bool := (List.range 4).all fun j => bit sig (256 * j + hashW j key)

/-! ## Overlap -/

def locAdd : Loc → Nat → Loc
  | .mem pa, n => .mem (pa + n)
  | .scr b off, n => .scr b (off + n)

def locOverlap (x : Loc) (n : Nat) (y : Loc) (m : Nat) : Bool :=
  match x, y with
  | .mem a, .mem b => a < b + m && b < a + n
  | .scr p a, .scr q b => p == q && a < b + m && b < a + n
  | .mem _, .scr _ _ => false
  | .scr _ _, .mem _ => false

/-- Where an undo entry's dword stands; none for the kinds that restore nothing (R187). -/
def UndoEntry.loc (u : UndoEntry) : Option Loc :=
  match u.kind with
  | 0 => some (.mem u.place)
  | 1 => some (.scr (u.place / 2 ^ 24) (u.place % 2 ^ 24 * 8))
  | _ => none

/-! ## Range locks -/

/-- A range of a command covers a location under the tile's view: memory ranges by ASID and virtual line, scratchpad
ranges by block and line. `va` is the access's virtual address. -/
def LockRange.covers (r : LockRange) (asid : Nat) (va : Word) (loc : Loc) : Bool :=
  match loc with
  | .scr b off => r.scratch && r.space == b && r.firstLine ≤ off / 64 && off / 64 ≤ r.lastLine
  | .mem _ => !r.scratch && r.space == asid && r.firstLine ≤ va.toNat / 64 && va.toNat / 64 ≤ r.lastLine

namespace State

/-! ## Speculative-access vectors (R182) -/

/-- Add a tile to the line's vector on its die, and so the die to the line's spec-die mask. -/
def specTouch (s : State) (line t : Nat) : State :=
  let d := dieOf t
  let v := (s.specVec.find? fun e => e.die == d && e.line == line).getD
    { die := d, line := line, tiles := [], broad := [], away := false }
  let v := if !v.broad.isEmpty then { v with broad := insertNat (clusterOf t) v.broad }
    else if v.tiles.contains t then v
    else if v.tiles.length < 4 then { v with tiles := insertNat t v.tiles }
    else { v with tiles := [], broad := insertNat (clusterOf t) ((v.tiles.map clusterOf).foldl (fun acc c => insertNat c acc) []) }
  { s with specVec := v :: s.specVec.filter fun e => !(e.die == d && e.line == line) }

/-- A check of the line goes to this tile: its die's vector names it, or names its cluster, or the line is away (R182). -/
def specNames (s : State) (line t lq : Nat) : Bool :=
  s.specVec.any fun v => v.line == line && v.die == dieOf t &&
    (v.tiles.contains t || v.broad.contains (clusterOf t) || (v.away && s.specs.vals.any fun y => y.tile == t && y.task.lq == lq))

/-- A check that found no signature on a named tile removes it, with the tile's L1 spec bit for the line (R182). -/
def specPrune (s : State) (line : Nat) : State :=
  let key := line
  let held := fun (t : Nat) => s.specs.vals.any fun y => y.tile == t && (memberR y.rsig key || memberW y.wsig key)
  let gone := fun (t : Nat) => s.specVec.any (fun v => v.line == line && v.tiles.contains t) && !held t
  { s with
    specVec := (s.specVec.map fun v => if v.line == line then { v with tiles := v.tiles.filter held } else v).filter
      fun v => v.line != line || !v.tiles.isEmpty || !v.broad.isEmpty
    tiles := s.tiles.mapVals fun t x =>
      if gone t then { x with l1 := x.l1.map fun e => if e.pline == line then { e with spec := false } else e } else x }

/-- A tile that holds no uncommitted ordered task has no L1 spec bit set (R182). -/
def specClear (s : State) (t : Nat) : State :=
  if s.specs.vals.any fun y => y.tile == t then s
  else s.onTile t fun x => { x with l1 := x.l1.map fun e => { e with spec := false } }

/-- The signature slot of a task moves with it to another tile: the lines it has touched name that tile as well (R182). -/
def specMove (s : State) (uid t : Nat) : State :=
  match s.specs.get? uid with
  | none => s
  | some y =>
    let touched := fun (v : SpecVec) => s.specNames v.line y.tile y.task.lq && (memberR y.rsig v.line || memberW y.wsig v.line)
    let lines := ((s.specVec.filter touched).map fun v => v.line).eraseDups
    let s := s.onSpec uid fun y => { y with tile := t }
    (lines.foldl (fun s line => s.specTouch line t) s).specClear y.tile

/-! ## Eligibility (R74, R191) -/

/-- The context that runs a task, if one does. -/
def ctxOf (s : State) (uid : Nat) : Option Nat :=
  (s.ctxs.find? fun (_, c) => c.task.uid == uid && c.status != .free).map (·.1)

/-- psw.elig, kept with the signature slot and shown in psw (R74). -/
def clearElig (s : State) (uid : Nat) : State :=
  let s := s.onSpec uid fun y => { y with elig := false }
  match s.ctxOf uid with
  | some k => s.onCtx k fun c => { c with psw := setBit c.psw 9 false }
  | none => s

end State

/-! ## The exact check (R185) -/

def Spec.wroteLine (y : Spec) (key : Nat) : Bool := y.undo.any fun u => match u.loc with
  | some l => sigKey l == key
  | none => false

inductive ReadHit | none | repairable | real
deriving DecidableEq, Repr

def Spec.readHit (y : Spec) (loc : Loc) (n : Nat) : ReadHit :=
  if !y.elig then .real
  else if y.syms.any fun x => locOverlap x.loc x.size loc n then .repairable
  else if y.plain.contains (sigKey loc) then .real
  else .none

/-! ## Conflicts (R184) -/

/-- Who accesses: an ordered task with its signature slot, or a free task, engine or host. -/
inductive Party
  | ordered (uid : Nat)
  | free
deriving DecidableEq, Repr

inductive Hit | none | wait | abort | repair
deriving DecidableEq, Repr

namespace State

/-- What an access does to one holder (R184). An ordered access of another launch counts as a free one (log 8). -/
def hitOn (s : State) (who : Party) (store : Bool) (loc : Loc) (n : Nat) (y : Spec) : Hit :=
  let key := sigKey loc
  let x : Option Spec := match who with
    | .free => Option.none
    | .ordered u => (s.specs.get? u).filter fun x => x.task.lq == y.task.lq
  let named := match loc with
    | .mem pa => s.specNames (pa / 64) y.tile y.task.lq
    | .scr b _ => y.task.blk == b
  let concerns := match x with | some x => x.before y | none => true
  if !named || !concerns || who == .ordered y.task.uid then .none
  else
    let w := memberW y.wsig key && y.wroteLine key
    if !store then
      (if w then (match x with | some _ => if y.unlogged then .none else .abort | none => .wait) else .none)
    else if y.unlogged then .none
    else if w then .abort
    else if memberR y.rsig key then
      match y.readHit loc n, x with
      | .none, _ => .none
      | .repairable, some _ => .repair
      | .repairable, none => .abort
      | .real, _ => .abort
    else .none

/-- The holders an access hits, by outcome. -/
def hits (s : State) (who : Party) (store : Bool) (loc : Loc) (n : Nat) (h : Hit) : List Nat :=
  (s.specs.filter fun (_, y) => s.hitOn who store loc n y == h).map (·.1)

/-! ## Repair requests (R196, R197) -/

/-- The context's instruction is under way outside its tile. -/
def outside (x : Status) : Bool := match x with
  | .waiting .atomicOp | .waiting .remote | .waiting .publish | .waiting .crdecl => true
  | _ => false

/-- The task is under repair. -/
def inRepair (s : State) (uid : Nat) : Bool := (s.specs.get? uid).any fun y => y.repairing

/-- The request enters the list of the Wisp in the cluster of the holder's tile (R197). -/
def wispAsk (s : State) (y : Spec) : State :=
  let c := clusterOf y.tile
  let x := s.cluster c
  s.setCluster c { x with repairs := x.repairs.filter (fun u => s.inRepair u && u != y.task.uid) ++ [y.task.uid] }

/-- Ask Wisp to repair a task; a task under repair takes the pending bit. -/
def requestRepair (s : State) (uid : Nat) : State :=
  match s.specs.get? uid with
  | none => s
  | some y =>
    if y.repairing then s.onSpec uid fun y => { y with pending := true }
    else
      let s := (s.wispAsk y).onSpec uid fun y => { y with repairing := true }
      match s.ctxOf uid with
      | some k => (s.onCtx k fun c => if c.heldFault.isSome || outside c.status then c else { c with status := .halted }).later (.wispRepair uid)
      | none => s.later (.wispRepair uid)

def requestRepairs (s : State) : List Nat → State
  | [] => s
  | u :: us => (s.requestRepair u).requestRepairs us

/-! ## Traps sent to a system context (R276, R285) -/

/-- A trap enters the queue of a tile's system context, or waits behind those that found it full before, of one cycle the lower
source tile first (R285). -/
def sendSysTrap (s : State) (t : Nat) (x : SysTrap) : State :=
  let before := fun (a b : SysTrap) => a.since < b.since || (a.since == b.since && a.source < b.source)
  s.onTile t fun y =>
    if y.trapQ.length < 16 then { y with trapQ := y.trapQ ++ [x] }
    else { y with trapWait := insertBy before { x with since := s.cycle } y.trapWait }

/-- A trap that is first taken at the supervisor vector of a system context (R276). -/
def sysTrap (cause : Nat) (word val2 : Word) (held : Bool) (lq blk source uid : Nat) : SysTrap :=
  { info := { cause := cause, word := word, val2 := val2, held := held, eng := false, dfr := false, sup := true, after := false }
    lq := lq, blk := blk, source := source, uid := uid, since := 0 }

/-- The trap of an operation the device carries out for a task: held = 1, ts as trap word, tb as second value (R205, R501). -/
def deviceTrap (s : State) (t : Nat) (task : TaskRec) (cause : Nat) : State :=
  let word : Word := if task.ord then task.ts else 0
  let val2 : Word := if task.ord then task.tb.setWidth 64 else 0
  s.sendSysTrap t (sysTrap cause word val2 true task.lq task.blk t task.uid)

/-! ## The device's own accesses by virtual address (R501) -/

/-- The launch's publication region that holds an address (R233). -/
def pubRegion (s : State) (lq : Nat) (va : Word) : Option PubRegion :=
  (s.launch lq).regions.find? fun r => r.base.toNat ≤ va.toNat && va.toNat < r.base.toNat + r.len

/-- The launch's commutative range that holds an address (R207). -/
def commRange (s : State) (lq : Nat) (va : Word) : Option CrRange :=
  (s.launch lq).ranges.find? fun r => r.live && r.base.toNat ≤ va.toNat && va.toNat < r.base.toNat + r.len

end State

/-- What an access of the device's own needs of the page it reaches. -/
inductive Need
  | read
  | write
  /-- A barrier, as its instructions (R354). -/
  | object
  /-- A pool header or element, as the pool instructions (R428). -/
  | pool
  /-- A CRADD's element (R369). -/
  | add
deriving DecidableEq, Repr

/-- The address itself is refused: in a publication region, or for a pool or an addition in the scratchpad window (R354, R369,
R428). -/
def Need.refusesVa (n : Need) (inRegion inScratch : Bool) : Bool := match n with
  | .read | .write => false
  | .object => inRegion
  | .pool | .add => inRegion || inScratch

/-- The page is refused: its rights or its memory type (R158, R354, R369, R428). -/
def Need.refusesPage (n : Need) (mt : Nat) (rd w : Bool) : Bool := match n with
  | .read => !rd
  | .write => !w
  | .object | .pool => !rd || !w || mt == 2 || mt == 3
  | .add => !w || mt != 0

namespace State

/-- Where a virtual address of a task leads, or the failure an access there would meet. -/
def locate (s : State) (lq blk : Nat) (va : Word) (need : Need) : Loc ⊕ PageFail :=
  let l := s.launch lq
  match vclass va with
  | .nonCanonical => .inr { cause := 0x06, word := va, val2 := 4 }
  | .scratch off =>
    if need.refusesVa false true || 2048 * l.sppages ≤ off || off < (s.block blk).xb then .inr { cause := 0x03, word := va, val2 := 0 }
    else if s.frameIsBad blk (off / 2048) then .inr { cause := 0x0F, word := 2, val2 := BitVec.ofNat 64 (s.blockTile blk) }
    else match s.pageFail blk (off / 2048) with
      | some f => .inr f
      | none => .inl (.scr blk off)
  | .memory =>
    if need.refusesVa (s.pubRegion lq va).isSome false then .inr { cause := 0x03, word := va, val2 := 0 }
    else match s.translateNow l.asid va with
    | .fault lev => .inr { cause := 0x06, word := va, val2 := BitVec.ofNat 64 lev }
    | .poison pa => .inr { cause := 0x0F, word := 1, val2 := BitVec.ofNat 64 pa }
    | .ok pa mt rd w =>
      if need.refusesPage mt rd w then .inr { cause := 0x03, word := va, val2 := 0 }
      else if s.poisoned pa then .inr { cause := 0x0F, word := 1, val2 := BitVec.ofNat 64 pa }
      else .inl (.mem pa)

def locRead (s : State) (x : Loc) (n : Nat) : List Byte :=
  match x with
  | .mem pa => s.physBytes pa n
  | .scr b off => s.blockRead b off n

/-- Write bytes at a place for a task whose tile is on a die: the line is owned there as for a store (R237). -/
def locWrite (s : State) (die : Nat) (x : Loc) (bs : List Byte) : State :=
  match x with
  | .mem pa => (s.deviceOwn die pa).physWrite none pa bs
  | .scr b off => s.blockWrite b off bs

/-- A line is read for a task whose tile is on a die, as by a load (R237); a range line is combined before (R209). -/
def locReady (s : State) (die : Nat) (x : Loc) : State :=
  match x with
  | .mem pa => (s.deviceRead die pa).combine (pa / 64)
  | .scr _ _ => s

def locNat (s : State) (x : Loc) (n : Nat) : Nat := leNat (s.locRead x n)

/-- The dwords a write of n bytes at a location touches, as log entries with their old values, newest first (R187, R188). -/
def oldDword (s : State) (va : Word) (x : Loc) : UndoEntry :=
  match x with
  | .mem pa => { kind := 0, place := pa / 8 * 8, val := BitVec.ofNat 64 (leNat (s.physBytes (pa / 8 * 8) 8)), va := va }
  | .scr b off => { kind := 1, place := b * 2 ^ 24 + off / 8, val := s.blockDword b (off / 8 * 8), va := va }

/-! ## Pools (R174, R175) -/

end State

structure Pool where
  base  : Word
  esize : Nat
  count : Nat
  next  : Nat
  head  : Word
  scope : Nat
deriving DecidableEq, Repr

/-- esize and count as R174 has them (R175). -/
def Pool.sizesOk (p : Pool) : Bool := 8 ≤ p.esize && p.esize ≤ 65536 && p.esize % 8 == 0 && 1 ≤ p.count

/-- esize, count and scope as R174 has them: every pool instruction's test of a header (R428). -/
def Pool.headerOk (p : Pool) : Bool := p.sizesOk && 1 ≤ p.scope && p.scope ≤ 5

/-- The element test of R175. -/
def Pool.holds (p : Pool) (x : Word) : Bool :=
  let b := p.base.toNat
  b ≤ x.toNat && x.toNat < b + p.esize * p.count && (x.toNat - b) % p.esize == 0

namespace State

def poolAt (s : State) (h : Loc) : Pool :=
  { base := BitVec.ofNat 64 (s.locNat h 8), esize := s.locNat (locAdd h 8) 4, count := s.locNat (locAdd h 12) 4,
    next := s.locNat (locAdd h 16) 4, head := BitVec.ofNat 64 (s.locNat (locAdd h 24) 8),
    scope := s.locNat (locAdd h 32) 1 }

/-- The rest of R174's table: aligned base, the zero bytes, scope at least .tile. That next may not exceed count is the
model's own reading of the table (DESIGN CHOICE, log 73). -/
def poolWellFormed (s : State) (h : Loc) : Bool :=
  let p := s.poolAt h
  p.base.toNat % 8 == 0 && p.sizesOk && p.next ≤ p.count && s.locNat (locAdd h 20) 4 == 0 && 1 ≤ p.scope && p.scope ≤ 5
    && s.locNat (locAdd h 33) 31 == 0

/-- PoolGet (R175) given how an element's link is reached: the new state with the element, 0 when exhausted, or the
failure of the link's access. -/
def poolGet (s : State) (die lq blk : Nat) (h : Loc) : State × (Word ⊕ PageFail) :=
  let s := s.locReady die h
  let p := s.poolAt h
  if p.head != 0 then
    match s.locate lq blk p.head .pool with
    | .inr f => (s, .inr f)
    | .inl x => let s := s.locReady die x; (s.locWrite die (locAdd h 24) (s.locRead x 8), .inl p.head)
  else if p.next < p.count then
    (s.locWrite die (locAdd h 16) (leBytes 4 (p.next + 1)), .inl (p.base + BitVec.ofNat 64 (p.esize * p.next)))
  else (s, .inl 0)

/-- PoolPut (R175), or the failure that stops it. -/
def poolPut (s : State) (die lq blk : Nat) (desc x : Word) : State ⊕ PageFail :=
  if desc.toNat % 64 != 0 then .inr { cause := 0x02, word := desc, val2 := 64 }
  else match s.locate lq blk desc .pool with
    | .inr f => .inr f
    | .inl h =>
      let s := s.locReady die h
      let p := s.poolAt h
      if !p.headerOk then .inr { cause := 0x03, word := desc, val2 := 0 }
      else if !p.holds x then .inr { cause := 0x03, word := x, val2 := 0 }
      else match s.locate lq blk x .pool with
        | .inr f => .inr f
        | .inl e => .inl ((s.locWrite die e (leBytes 8 p.head.toNat)).locWrite die (locAdd h 24) (leBytes 8 x.toNat))

/-- A POOLPUT that the device carries out for a task; one that would fault is not performed (R501). -/
def devicePut (s : State) (t : Nat) (task : TaskRec) (desc x : Word) : State :=
  match s.poolPut (dieOf t) task.lq task.blk desc x with
  | .inl s => s
  | .inr f => s.deviceTrap t task f.cause

def devicePuts (s : State) (t : Nat) (task : TaskRec) (desc : Word) : List Word → State
  | [] => s
  | x :: xs => (s.devicePut t task desc x).devicePuts t task desc xs

/-! ## The undo log (R187..R189) -/

/-- The launch's global virtual time as last broadcast to a tile (R60). -/
def gvtAt (s : State) (t lq : Nat) : Nat := (s.tileLaunch t lq).gvt

/-- The rank up to which a tile takes the timeline as finished: the broadcast Gvt, but where that is all ones (R49, R60; log 7). -/
def frontAt (s : State) (t lq : Nat) : Nat := (s.tileLaunch t lq).front

def minOf (xs : List Nat) (top : Nat) : Nat := xs.foldl min top

/-- Every record of a launch that is Queued or on its way, with the cycle in which an unacknowledged message was sent. -/
def recordsOf (s : State) (lq : Nat) : List (TaskRec × Option Nat) :=
  let all := s.tiles.vals.flatMap (fun x =>
      (x.queue.map fun r => (r, none)) ++ (x.spilled.map fun e => (e.rec_, none)) ++ x.inbound ++ x.spillWait)
    ++ s.agenda.filterMap fun (_, e) => match e with
      | .taskRecordArrive _ r sent => some (r, some sent)
      | _ => none
  all.filter fun p => p.1.lq == lq

/-- The keys of a launch that have not been broadcast to the tiles (R199). -/
def keysOut (s : State) (lq : Nat) : List KillKey :=
  (s.killsUp ++ s.rounds.vals.flatMap fun r => r.kills).filter fun k => k.lq == lq

/-- minvt over all tiles (R59, R199): Queued and Running ordered tasks, records on their way, tasks under repair, and tasks
with a kill outstanding. -/
def minvt (s : State) (lq : Nat) : Nat :=
  let queued := (s.recordsOf lq).filterMap fun p => if p.1.ord then some (rankOf p.1) else none
  let held := (s.specs.vals.filter fun y => y.task.lq == lq && (y.st != .finished || y.repairing)).map fun y => rankOf y.task
  let keys := (s.keysOut lq).map fun k => k.ts.toNat * 2 ^ 32 + k.tb.toNat
  minOf (queued ++ held ++ keys) noRank

/-- A rank is that of the earliest unfinished ordered task as the broadcast shows it (R65): it equals Gvt, or lies below it and
is the least, where a later free spawn or store made it so (log 7). -/
def atGvt (s : State) (t lq rank : Nat) : Bool := rank == s.frontAt t lq || (rank < s.frontAt t lq && rank == s.minvt lq)

/-- Write one 16-byte entry of the log into its element (R187): slot 0 is the link entry. -/
def undoStore (s : State) (die lq blk : Nat) (e : Word) (i : Nat) (kind : Nat) (place : Nat) (val : Word) : State :=
  match s.locate lq blk (e + BitVec.ofNat 64 (16 * i)) .write with
  | .inl x => s.locWrite die x (leBytes 8 (kind * 2 ^ 61 + place) ++ leBytes 8 val.toNat)
  | .inr _ => s

/-- Append an entry for a task; none when it must wait for an undo element (R189). -/
def undoAppend (s : State) (uid : Nat) (u : UndoEntry) : Option State :=
  match s.specs.get? uid with
  | none => some s
  | some y =>
    if y.unlogged then some s
    else
      let l := s.launch y.task.lq
      let die := dieOf y.tile
      let put := fun (s : State) (e : Word) (elems : List Word) (used : Nat) =>
        let s := s.undoStore die y.task.lq y.task.blk e (used + 1) u.kind u.place u.val
        let s := s.undoStore die y.task.lq y.task.blk e 0 4 (used + 1) (elems.getD 1 0)
        s.onSpec uid fun y => { y with undo := u :: y.undo, elems := elems, used := used + 1 }
      match y.elems with
      | e :: _ =>
        if y.used < 15 then some (put s e y.elems y.used)
        else
          match s.locate y.task.lq y.task.blk l.undo .pool with
          | .inr _ => none
          | .inl h => match s.poolGet die y.task.lq y.task.blk h with
            | (s', .inl x) =>
              if x != 0 then some (put s' x (x :: y.elems) 0)
              else if s.atGvt y.tile y.task.lq (rankOf y.task) then some (s.onSpec uid fun y => { y with unlogged := true })
              else none
            | (_, .inr _) => none
      | [] =>
        match s.locate y.task.lq y.task.blk l.undo .pool with
        | .inr _ => none
        | .inl h => match s.poolGet die y.task.lq y.task.blk h with
          | (s', .inl x) =>
            if x != 0 then some (put s' x [x] 0)
            else if s.atGvt y.tile y.task.lq (rankOf y.task) then some (s.onSpec uid fun y => { y with unlogged := true })
            else none
          | (_, .inr _) => none

/-- Log the old dwords of an ordered write of n bytes (R188). -/
def logWrite (s : State) (uid : Nat) (va : Word) (loc : Loc) (n : Nat) : Option State :=
  match s.undoAppend uid (s.oldDword va loc) with
  | none => none
  | some s => if n == 16 then s.undoAppend uid (s.oldDword (va + 8) (locAdd loc 8)) else some s

/-! ## Signature entries (R180) -/

def enterRead (s : State) (uid : Nat) (loc : Loc) : State :=
  let s := s.onSpec uid fun y => { y with rsig := insertR y.rsig (sigKey loc) }
  match loc, s.specs.get? uid with
  | .mem pa, some y => s.specTouch (pa / 64) y.tile
  | _, _ => s

def enterWrite (s : State) (uid : Nat) (loc : Loc) : State :=
  let s := s.onSpec uid fun y => { y with wsig := insertW y.wsig (sigKey loc) }
  match loc, s.specs.get? uid with
  | .mem pa, some y => s.specTouch (pa / 64) y.tile
  | _, _ => s

/-! ## Range locks (R230, R231) -/

/-- The commands of a tile in issue order. -/
def cmdsOf (s : State) (t : Nat) : List Cmd := sortBy (fun a b => a.seq < b.seq) (s.tile t).cmds.vals

/-- The oldest command whose range the access hits: memory ranges of the tile given, scratchpad ranges of the block from whatever
tile it is accessed (R231), but for those of a command that the block has left behind on another tile (R458). -/
def lockHit (s : State) (t asid : Nat) (va : Word) (loc : Loc) (store : Bool) : Option Cmd :=
  let hit := fun (c : Cmd) => c.ranges.any fun r => (store || r.write) && r.covers asid va loc
  match loc with
  | .mem _ => (s.cmdsOf t).find? hit
  | .scr b _ => (s.cmdsOf (s.blockTile b)).find? hit

end State

end Sys2Proof.Machine
end

