-- ==== Sys2Proof/Machine/Tasks.lean ====
section
/-!
DEFINITION. Tasks outside their instructions: records and their arrival (R46, R57), kill keys (R201), barriers as objects
(R222..R225), leaving a slot (R82, R161, R224), abort (R200), and the end of a launch (R40, R61, R291).
-/
namespace Sys2Proof.Machine

/-- The 64 bytes of a task record (R46). -/
def recordBytes (r : TaskRec) : List Byte :=
  leBytes 8 (r.entry % 2 ^ 32 + r.blk % 2 ^ 16 * 2 ^ 32 + r.lq % 64 * 2 ^ 48 + r.ord.toNat * 2 ^ 54 + r.pin.toNat * 2 ^ 55
      + r.dir.toNat * 2 ^ 56 + r.res.toNat * 2 ^ 57)
    ++ leBytes 8 r.ts.toNat ++ leBytes 4 r.tb.toNat ++ leBytes 4 r.ptb.toNat ++ leBytes 8 r.pts.toNat
    ++ (r.args.take 4).flatMap fun a => leBytes 8 a.toNat

/-- The scratchpad address of a page of the block's space (R149). -/
def windowVa (off : Nat) : Word := BitVec.ofNat 64 (2 ^ 64 - 2 ^ 24 + off % 2 ^ 24)
def windowOff (va : Word) : Nat := va.toNat % 2 ^ 24

/-! ## Kill keys (R201) -/

/-- A key matches a child by its parent's virtual time, and a one-child key by timestamp and arguments as well. -/
def KillKey.names (k : KillKey) (r : TaskRec) : Bool :=
  r.ord && r.lq == k.lq && r.pts == k.ts && r.ptb == k.tb &&
    match k.one with
    | none => true
    | some (ts, args) => r.ts == ts && r.args == args

/-- The key removes this record or task: it names it, it is not used up, and the child was sent before the kill (log 19). -/
def KillKey.hits (k : KillKey) (r : TaskRec) : Bool := !k.used && r.uid < k.before && k.names r && k.only.all (· == r.uid)

/-- Two keys are one key, whatever has become of them. -/
def KillKey.same (a b : KillKey) : Bool := a.lq == b.lq && a.ts == b.ts && a.tb == b.tb && a.one == b.one && a.before == b.before && a.only == b.only

/-! ## Barriers (R222, R223) -/

structure Barrier where
  arrived  : Nat
  expected : Nat
  gen      : Nat
  flags    : Nat
deriving DecidableEq, Repr

def Barrier.elastic (b : Barrier) : Bool := b.flags.testBit 0
def Barrier.flagsOk (b : Barrier) : Bool := b.flags / 2 == 0
/-- Release (R223), without its wake. -/
def Barrier.release (b : Barrier) : Barrier := { b with arrived := 0, gen := (b.gen + 1) % 2 ^ 32 }

/-- The shadow plane of a cancelled MLOADW: all-zero weights with every zero flag set (R253). -/
def Plane.zeroed (p : Plane) : Plane :=
  { p with weights := List.replicate (p.k * p.n) (zeroPattern p.wfmt), zeros := List.replicate 64 true }

namespace State

def barrierAt (s : State) (x : Loc) : Barrier :=
  { arrived := s.locNat x 4, expected := s.locNat (locAdd x 4) 4, gen := s.locNat (locAdd x 8) 4,
    flags := s.locNat (locAdd x 12) 4 }

def setBarrier (s : State) (die : Nat) (x : Loc) (b : Barrier) : State :=
  s.locWrite die x (leBytes 4 b.arrived ++ leBytes 4 b.expected ++ leBytes 4 b.gen ++ leBytes 4 b.flags)

/-! ## Waking (R88, R444) -/

/-- A wake event at a context (R444): a sleeper clears it, completes SLEEP and is eligible from the following cycle, the stall of
its issue past (R69); the event stays pending otherwise. -/
def wokenCtx (c : Ctx) (cycle : Nat) : Ctx :=
  if c.status == .waiting .sleep then { c with pc := c.pc + 4, status := .ready, wake := false, next := max c.next (cycle + 1) }
  else { c with wake := true }

/-- A wake event reaches a context, and wakes its tile (R88, R444). -/
def wakeCtx (s : State) (k : Nat) : State :=
  match s.ctxs.get? k with
  | none => s
  | some c => (s.setCtx k (wokenCtx c s.cycle)).wakeTile (k / 32)

/-- Release wakes the tiles whose contexts wait on the barrier (R223), which compare gen at their next turn, and is a wake
event for the contexts that have registered with it (R444). -/
def wakeBarrier (s : State) (x : Loc) : State :=
  let s := (s.ctxs.filter fun (_, c) => c.regs.any fun va => s.locate c.task.lq c.task.blk va .read == .inl x).foldl
    (fun s (k, _) => s.wakeCtx k) s
  (s.ctxs.filter fun (_, c) => match c.barGen with
      | some (va, _) => s.locate c.task.lq c.task.blk va .read == .inl x
      | none => false).foldl (fun s (k, _) => s.wakeTile (k / 32)) s

/-! ## Records (R57) -/

def countReceived (s : State) (t lq : Nat) (sent : Option Nat) : State :=
  if sent.isSome then s.onTileLaunch t lq fun x => { x with trecv := x.trecv + 1 } else s

def countSent (s : State) (t lq : Nat) : State :=
  (s.onTileLaunch t lq fun x => { x with tsent := x.tsent + 1 }).onLaunch lq fun l => { l with lastSent := s.cycle }

/-- A record waits in the mesh, in arrival order (R57). -/
def meshWait (s : State) (t : Nat) (r : TaskRec) (counted : Option Nat) : State :=
  s.onTile t fun x => { x with spillWait := x.spillWait ++ [(r, counted)] }

/-- The system context wakes and appends a record to the launch's spill pool (R57, R67): the element receives the record. An
exhausted pool, or a failure met there (R285), is raised in it, and the record waits in the mesh. -/
def spill (s : State) (t : Nat) (r : TaskRec) (counted : Option Nat) : State :=
  let s := s.wakeSystem t
  let l := s.launch r.lq
  let stop := fun (f : PageFail) => (s.sendSysTrap t (sysTrap f.cause f.word f.val2 false r.lq r.blk t 0)).meshWait t r counted
  match s.locate r.lq r.blk l.spill .pool with
  | .inr f => stop f
  | .inl h =>
    match s.poolGet (dieOf t) r.lq r.blk h with
    | (_, .inr f) => stop f
    | (s', .inl e) =>
      if e == 0 then stop { cause := 0x09, word := l.spill, val2 := 0 }
      else match s'.locate r.lq r.blk e .pool with
        | .inr f => stop f
        | .inl x =>
          ((s'.locWrite (dieOf t) x (recordBytes r)).onTile t fun y => { y with spilled := y.spilled ++ [{ rec_ := r, elem := e }] }).countReceived
            t r.lq counted

/-- A one-child key is used up, wherever it stands (R201 step 6). -/
def useKey (s : State) (k : KillKey) : State :=
  let mark := fun (j : KillKey) => if j.same k then { j with used := true } else j
  { s with
    tiles := s.tiles.mapVals fun _ x => { x with kills := x.kills.map mark }
    rounds := s.rounds.mapVals fun _ r => { r with kills := r.kills.map mark } }

/-- A record enters a tile's queue, its launch's spill pool, or the inbound port (R57). -/
def letIn (s : State) (t : Nat) (r : TaskRec) (counted : Option Nat) : State :=
  let x := s.tile t
  let room := x.queue.length < 256 && !(x.inbound.any fun p => p.1.lq == r.lq)
  let enter := (s.onTile t fun x => { x with queue := x.queue ++ [r] }).countReceived t r.lq counted
  if room && x.spilled.isEmpty then enter
  else if (s.launch r.lq).spill != 0 then s.spill t r counted
  else if room then enter
  else s.onTile t fun x => { x with inbound := x.inbound ++ [(r, counted)] }

/-- A record arrives at a tile (R57), as a message (counted) or from an abort (R200). A kill key discards it (R201); one that
is resumable has been looked at before (`recordArrives`). It does not pass a record of its launch that waits in the mesh. A gated
tile wakes for any record (R88). -/
def arrive (s : State) (t : Nat) (r : TaskRec) (counted : Option Nat) : State :=
  let x := s.tile t
  if (s.launches.get? r.lq).isNone then s
  else
    let s := s.wakeTile t
    match x.kills.find? fun k => !r.res && k.hits r with
    | some k =>
      let s := s.countReceived t r.lq counted
      if k.one.isSome then s.useKey k else s
    | none =>
      if x.spillWait.any fun p => p.1.lq == r.lq then s.meshWait t r counted else s.letIn t r counted

/-- Send a record from a tile to the tile of its block; it counts as sent (R42, R49). -/
def sendRecord (s : State) (t : Nat) (r : TaskRec) : State :=
  (s.countSent t r.lq).later (.taskRecordArrive (s.recordTile r.blk) r s.cycle)

/-! ## Workspace pages (R161) -/

/-- A context runs from a page of its block: every task in a user slot does, the system context only after WPSW (R161, R497,
R502). -/
def hasPage (k : Nat) (c : Ctx) : Bool := c.status != .free && (k % 32 != 16 || c.w[63] != 0)

/-- Workspace pages of a block in use: those of tasks in contexts and of kept workspaces of queued tasks. -/
def workUsed (s : State) (b : Nat) : List Nat :=
  let kept := fun (r : TaskRec) => if r.res && r.blk == b then [windowOff (r.args.getD 0 0) / 2048] else []
  (s.ctxs.flatMap fun (k, c) => if c.task.blk == b && hasPage k c then [windowOff c.w[63] / 2048] else [])
    ++ (s.tiles.vals.flatMap fun x => x.queue.flatMap kept ++ x.inbound.flatMap (fun p => kept p.1)
          ++ x.spilled.flatMap (fun p => kept p.rec_) ++ x.spillWait.flatMap (fun p => kept p.1))
    ++ (s.agenda.flatMap fun (_, e) => match e with | .taskRecordArrive _ r _ => kept r | _ => [])

/-- The lowest free page of the workspace range. -/
def freeWork (s : State) (b : Nat) : Option Nat :=
  let l := s.launch (s.block b).lq
  leastFree (s.workUsed b) (l.sppages - workPages l) (workPages l)

def setWs (s : State) (b p : Nat) (on : Bool) : State :=
  match (s.block b).pages.get? p with
  | some x => s.setPage b p { x with ws := on }
  | none => if on then s.setPage b p { Page.unmapped with ws := true } else s

/-! ## Leaving a slot -/

/-- A block that drains stops once no ordered task of it is Running (R53). -/
def drain (s : State) (b : Nat) : State :=
  if (s.block b).st == .draining && !(s.ctxs.any fun (k, c) => k % 32 != 16 && c.task.blk == b && c.task.ord && c.status != .free)
  then s.onBlock b fun x => { x with st := .stopping, stopAt := s.cycle } else s

/-- What concerns a task in its slot alone ends with its stay there: a deposit on its way (R82), its workspace's move, the
elements its ports fetch. The stall of the slot's last issue stays (R69). -/
def leaveSlot (s : State) (k : Nat) : State :=
  let c := s.ctx k
  let mine := fun (e : Nat × Event) => match e.2 with
    | .fwdDepositLand t n _ => ctxKey t n == k
    | .workspaceMoveDone t n => ctxKey t n == k
    | .streamElementArrive t n _ => ctxKey t n == k
    | _ => false
  ({ s with agenda := s.agenda.filter fun e => !mine e }).onTile (k / 32) fun x =>
    { x with coming := removeNat (k % 32) x.coming
             slotNext := if s.cycle < c.next then x.slotNext.set (k % 32) c.next else x.slotNext.erase (k % 32) }

/-- The task has left Running, or its block has moved: its lease belongs to no context and goes once the task's commands are
complete (R257). A lease that a sibling requested after the SPMIG, while its block drained, is left at the move in the same way
(DESIGN CHOICE, log 97). -/
def leaseLeft (s : State) (t uid : Nat) : State :=
  let k := s.cluster (clusterOf t)
  let mark := fun (l : Lease) => if l.uid == uid then { l with leaving := true } else l
  if (k.holder.toList ++ k.leaseQ).any fun l => l.uid == uid then
    (s.setCluster (clusterOf t) { k with holder := k.holder.map mark, leaseQ := k.leaseQ.map mark }).later (.leaseGrant (clusterOf t))
  else s

/-- The task holds or has requested a Reedbed lease of its tile (R257, R466, R468). -/
def hasLease (s : State) (t uid : Nat) : Bool :=
  let k := s.cluster (clusterOf t)
  (k.holder.toList ++ k.leaseQ).any fun l => l.tile == t && l.uid == uid && !l.leaving

/-- The task leaves its slot: the forward-in is discarded (R82), the slot is Free, a lease is left (R257). -/
def vacate (s : State) (k : Nat) : State :=
  let c := s.ctx k
  let s := s.leaveSlot k
  (({ s with ctxs := s.ctxs.erase k, left := (k, c.task.lq) :: s.left }).leaseLeft (k / 32) c.task.uid).drain c.task.blk

/-- The results of a task that has ended are discarded when they arrive (R68, R466), and its WAIT is over (R494). -/
def forgetResults (s : State) (uid : Nat) : State :=
  { s with
    agenda := s.agenda.filter fun e => match e.2 with
      | .resultArrive u r => u != uid || r == .w 0
      | _ => true
    watches := s.watches.filter fun x => x.uid != uid }

/-- The task ends in its slot by TDONE, TABORT or an abort, and its workspace page is freed (R161). -/
def endInSlot (s : State) (k : Nat) : State :=
  let c := s.ctx k
  ((s.setWs c.task.blk (windowOff c.w[63] / 2048) false).forgetResults c.task.uid).vacate k

/-- A kept workspace has no entry in a thread-context store any longer (R78). -/
def tcsDrop (s : State) (uid : Nat) : State :=
  { s with tiles := s.tiles.mapVals fun _ x => { x with tcs := x.tcs.filter fun e => e.1 != uid } }

/-! ## Abort (R200) -/

/-- Every record that waits at a tile, in ranking order: queued, spilled, at the inbound port, in the mesh (R57). -/
def recordsAt (x : TileS) : List TaskRec :=
  x.queue ++ x.spilled.map (fun e => e.rec_) ++ x.inbound.map (fun e => e.1) ++ x.spillWait.map (fun e => e.1)

/-- Remove a queued record of a task wherever it waits (R51); one that came as a message has arrived with that (R59). -/
def unqueue (s : State) (uid : Nat) : State :=
  let mesh := s.agenda.filterMap fun (_, e) => match e with
    | .taskRecordArrive t r at_ => if r.uid == uid then some (t, r.lq, some at_) else none
    | _ => none
  let port := s.tiles.flatMap fun (t, x) => ((x.inbound ++ x.spillWait).filter fun (p : TaskRec × Option Nat) => p.1.uid == uid).map fun p => (t, p.1.lq, p.2)
  let s := { s with
    tiles := s.tiles.mapVals fun _ x =>
      { x with queue := x.queue.filter fun r => r.uid != uid
               inbound := x.inbound.filter fun p => p.1.uid != uid
               spilled := x.spilled.filter fun p => p.rec_.uid != uid
               spillWait := x.spillWait.filter fun p => p.1.uid != uid
               tcs := x.tcs.filter fun e => e.1 != uid }
    agenda := s.agenda.filter fun (_, e) => match e with | .taskRecordArrive _ r _ => r.uid != uid | _ => true }
  (mesh ++ port).foldl (fun s e => s.countReceived e.1 e.2.1 e.2.2) s

/-- Send a kill key toward the Sluice root (R201). No two keys are one: each has a number of its own. -/
def kill (s : State) (y : Spec) (one : Option (Word × List Word)) : State :=
  { s with killsUp := s.killsUp ++ [⟨y.task.lq, y.task.ts, y.task.tb, one, s.cycle, false, s.nextUid, none⟩], nextUid := s.nextUid + 1 }

/-- The restore would touch a poisoned line, which stays as it is (R291). -/
def restoreBad (s : State) : Loc → Bool
  | .mem pa => s.poisoned pa
  | .scr b off => s.frameIsBad b (off / 2048)

/-- The first steps of Abort: the slot, the place in a queue, the kill key, the held operations. -/
def abortBegin (s : State) (y : Spec) : State :=
  let u := y.task.uid
  let s := match s.ctxOf u with
    | some k => s.endInSlot k
    | none =>
      if y.st == SpecSt.queued then
        match (s.recordsOf y.task.lq).find? fun (p : TaskRec × Option Nat) => p.1.uid == u && p.1.res with
        | some p => ((s.setWs p.1.blk (windowOff (p.1.args.getD 0 0) / 2048) false).forgetResults u).unqueue u
        | none => s.unqueue u
      else s
  let s := if y.undo.any (fun e => e.kind == 2) then s.kill y none else s
  { s with specs := s.specs.set u { y with held := [] } }

/-- The last steps of Abort: the undo elements go back, the entry is gone, a requeued task waits again. -/
def abortEnd (s : State) (y : Spec) (requeue : Bool) : State :=
  let s := s.devicePuts y.tile y.task (s.launch y.task.lq).undo y.elems
  let s := { s with specs := s.specs.erase y.task.uid, kept := s.kept.erase y.task.uid }.specClear y.tile
  if requeue then s.arrive (s.recordTile y.task.blk) { y.task with res := false } none else s

/-- What is left to do of the aborts under way, the innermost first. -/
inductive AbortWork
  | start (uid : Nat) (requeue : Bool)
  | undo (y : Spec) (u : UndoEntry)
  | finish (y : Spec) (requeue : Bool)
deriving DecidableEq, Repr

/-- The holders a restore hits, which are not themselves being undone: as a store by the aborting task (R184; log 60). -/
def restoreHits (s : State) (y : Spec) (x : Loc) (rest : List AbortWork) (h : Hit) : List Nat :=
  (s.hits (.ordered y.task.uid) true x 8 h).filter fun z =>
    !rest.any fun w => match w with | .finish q _ => q.task.uid == z | _ => false

/-- One piece of work: an undo restore first completes every abort it causes, then is performed; its repairs start after
every write (R186, R200). A pool element goes back to the pool that the POOLGET named, by its whole descriptor (log 94). -/
def abortWork (s : State) (reps : List Nat) (rest : List AbortWork) : AbortWork → State × List Nat × List AbortWork
  | .start u requeue =>
    match s.specs.get? u with
    | none => (s, reps, rest)
    | some y => (s.abortBegin y, reps, y.undo.map (AbortWork.undo y) ++ AbortWork.finish y requeue :: rest)
  | .finish y requeue => (s.abortEnd y requeue, reps, rest)
  | .undo y u =>
    let s' := if u.kind == 3 then s.devicePut y.tile y.task u.va u.val else s
    match u.loc with
    | none => (s', reps, rest)
    | some x =>
      if s.restoreBad x then (s, reps, rest)
      else
        match s.restoreHits y x rest .abort with
        | [] => (s.locWrite (dieOf y.tile) x (leBytes 8 u.val.toNat), reps ++ s.restoreHits y x rest .repair, rest)
        | hs => (s, reps, hs.map (fun z => AbortWork.start z true) ++ AbortWork.undo y u :: rest)

/-- Run the aborts of a work list to their end; repairs start afterwards (R186). -/
def abortRun : Nat → List AbortWork → List Nat → State → State
  | 0, _, reps, s => s.requestRepairs (reps.filter fun u => (s.specs.get? u).isSome)
  | _, [], reps, s => s.requestRepairs (reps.filter fun u => (s.specs.get? u).isSome)
  | n + 1, w :: rest, reps, s =>
    let (s, reps, rest) := s.abortWork reps rest w
    abortRun n rest reps s

/-- Every task is started, undone entry by entry and finished once; an entry is met again after the aborts it caused. So
this bound is never reached. -/
def abortBound (s : State) (todo : List (Nat × Bool)) : Nat :=
  todo.length + 3 * s.specs.length + (s.specs.vals.map fun y => y.undo.length).sum * (s.specs.length + 2)

/-- Abort a list of tasks, each with its mode, and every task their restores hit. -/
def abortAll (s : State) (todo : List (Nat × Bool)) (reps : List Nat) : State :=
  abortRun (s.abortBound todo) (todo.map fun (u, q) => AbortWork.start u q) reps s

/-- A page that a restore touches cannot be brought in now: it is locked, no frame can be taken, or the launch's Peat budget is
used up (R56, R165, R167). -/
def pageHeld (s : State) (b p : Nat) : Bool :=
  let x := s.page b p
  let held := s.overBudget (s.block b).lq 1 || (s.takeFrame (s.blockTile b) b).isNone
  x.lock || (match x.st with
    | .framed => false
    | .unmapped => held
    | .parked => (s.pageFail b p).isNone && held)

/-- The task cannot be aborted now: its instruction is still under way outside (R200), or a restore would meet a locked range
(R231), a page that cannot be in its frame (R165), or a line that is on its way between dies (R237). -/
def undoHeld (s : State) (y : Spec) : Bool :=
  (match s.ctxOf y.task.uid with | some k => outside (s.ctx k).status | none => false)
    || y.undo.any fun u => match u.loc with
      | some x => !s.restoreBad x && ((s.lockHit y.tile y.asid u.va x true).isSome || match x with
          | .scr b off => s.pageHeld b (off / 2048)
          | .mem pa => s.coherent pa && s.lineBusy (pa / 64))
      | none => false

/-- Some tasks with those that their restores abort in turn (R184, R186). -/
def restoreReach (s : State) : Nat → List Nat → List Nat
  | 0, us => us
  | n + 1, us =>
    let hit := fun (u : Nat) => match s.specs.get? u with
      | none => []
      | some y => y.undo.flatMap fun e => match e.loc with
        | some x => s.hits (.ordered u) true x 8 .abort
        | none => []
    let new := ((us.flatMap hit).filter fun v => !us.contains v).eraseDups
    if new.isEmpty then us else s.restoreReach n (us ++ new)

/-- An abort of the task, or one that its restores cause, has to wait. -/
def restoreHeld (s : State) (uid : Nat) : Bool :=
  (s.restoreReach s.specs.length [uid]).any fun u => match s.specs.get? u with
    | some y => s.undoHeld y
    | none => false

/-! ## Performing under R184 and R186 -/

/-- Resolve what an access hits: none when it must wait; otherwise the state after the aborts and the repairs to start once
the access has been performed. -/
def resolve (s : State) (who : Party) (store : Bool) (loc : Loc) (n : Nat) : Option (State × List Nat) :=
  let aborts := s.hits who store loc n .abort
  if !(s.hits who store loc n .wait).isEmpty || aborts.any s.restoreHeld then none
  else
    let reps := s.hits who store loc n .repair
    let s := if aborts.isEmpty then s else s.abortAll (aborts.map fun u => (u, true)) []
    let s := match loc with | .mem pa => s.specPrune (pa / 64) | .scr _ _ => s
    some (s, reps)

/-! ## Registrations that end with their task (R224) -/

/-- A BARLEAVE that the device carries out for a task as a free access (R224, R501): a task that has read the barrier's line is
aborted (R184). -/
def deviceLeave (s : State) (t : Nat) (task : TaskRec) (va : Word) : State :=
  match s.locate task.lq task.blk va .object with
  | .inr f => s.deviceTrap t task f.cause
  | .inl x =>
    let s := match s.resolve .free true x 16 with | some (s, _) => s | none => s
    let s := s.locReady (dieOf t) x
    let b := s.barrierAt x
    if !b.flagsOk || !b.elastic then s.deviceTrap t task 0x03
    else
      let b := { b with expected := (b.expected + 2 ^ 32 - 1) % 2 ^ 32 }
      if b.arrived != 0 && b.arrived == b.expected then (s.setBarrier (dieOf t) x b.release).wakeBarrier x else s.setBarrier (dieOf t) x b

def deviceLeaves (s : State) (t : Nat) (task : TaskRec) : List Word → State
  | [] => s
  | x :: xs => (s.deviceLeave t task x).deviceLeaves t task xs

/-- A registration's BARLEAVE has to wait for an uncommitted task (R184). -/
def leavesHeld (s : State) (task : TaskRec) (regs : List Word) : Bool :=
  regs.any fun va => match s.locate task.lq task.blk va .object with
    | .inr _ => false
    | .inl x => (s.resolve .free true x 16).isNone

/-- The task ends in its slot: its registrations leave first, oldest first (R161, R224). -/
def endTask (s : State) (k : Nat) : State :=
  let c := s.ctx k
  (s.deviceLeaves (k / 32) c.task c.regs).endInSlot k

end State

/-! ## Tickets (R250) -/

def ticketV (x : Word) : Bool := bit x 0
def ticketTile (x : Word) : Nat := bits x 20 12
def ticketEntry (x : Word) : Nat := bits x 10 10

/-- Two tickets of one entry name one command: gen and due match (R250). -/
def sameTicket (x y : Word) : Bool := bits x 32 32 == bits y 32 32 && bits x 2 8 == bits y 2 8

namespace State

/-! ## The end of a launch (R40, R61, R291) -/

/-- The status dword of R40. -/
def statusWord (s : State) (state kind code : Nat) : Word :=
  BitVec.ofNat 64 (state + kind * 16 + code * 256 + s.cycle / 65536 % 2 ^ 48 * 65536)

/-- The block page tables of a launch become ordinary bytes of its Peat region. -/
def flushTables (s : State) (l : Launch) : State :=
  l.blocks.foldl (fun s b =>
    let x := s.block b
    let at_ := l.peat + areaBytes l.sppages * x.idx
    { s with mem := (List.range l.sppages).foldl (fun m p => Cells.writeN m (at_ + 8 * p) (leBytes 8 (s.page b p).entry.toNat)) s.mem }) s

/-- The stores of a launch that are not yet performed reach memory before its end. -/
def flushStores (s : State) (lq : Nat) : State :=
  let mine := s.stores.filter fun p => p.lq == lq
  let s := mine.foldl (fun s p => match p.into with
    | .memory => (s.deviceOwn (dieOf p.tile) (p.bytes.getD 0 (0, 0)).1).writeBytes (some p.tile) p.bytes
    | .uncached => s.uncachedStore (some p.tile) p.target p.bytes
    | .scratch => s.frameWriteBytes p.blk p.bytes) s
  { s with stores := s.stores.filter fun p => p.lq != lq }

/-- The clusters after a launch's commands are cancelled and its leases and requests withdrawn (R253, R291). -/
def leasesEnd (s : State) (lq : Nat) : AMap ClusterS :=
  let loads := s.tiles.filterMap fun (t, x) => if x.cmds.any fun (_, c) => c.lq == lq && c.op == .mloadw then some (clusterOf t) else none
  s.clusters.mapVals fun i c =>
    { c with leaseQ := c.leaseQ.filter fun l => l.lq != lq
             holder := c.holder.filter fun l => l.lq != lq
             shadow := if loads.contains i then c.shadow.zeroed else c.shadow }

/-- A tile's completion table without a launch's commands: their entries are free and of the next generation (R251). -/
def dropCmds (x : TileS) (lq : Nat) : TileS :=
  let gone := x.cmds.filter fun (_, c) => c.lq == lq
  { x with cmds := x.cmds.filter fun (_, c) => c.lq != lq
           gens := gone.foldl (fun g (e, _) => g.set e (((g.get? e).getD 0 + 1) % 256)) x.gens }

/-- The ticket names a registered command of the launch (R250). -/
def ticketOfLaunch (s : State) (lq : Nat) (x : Word) : Bool :=
  (((s.tile (ticketTile x)).cmds.get? (ticketEntry x)).filter fun c => c.lq == lq && c.registered && sameTicket c.ticket x).isSome

/-- The event belongs to a command, a record or a queue dword of the launch. -/
def eventOf (s : State) (lq : Nat) : Event → Bool
  | .taskRecordArrive _ r _ => r.lq == lq
  | .queueDwordLand _ _ _ q => q == lq
  | .ticketRegister t e | .commandComplete t e => ((s.tile t).cmds.get? e).any fun c => c.lq == lq
  | .doneTicket _ _ c => c.lq == lq
  | _ => false

/-- The task is the launch's, in a slot or kept. -/
def taskOf (s : State) (lq uid : Nat) : Bool :=
  s.ctxs.any (fun (_, c) => c.task.uid == uid && c.task.lq == lq) || (s.kept.get? uid).any fun c => c.task.lq == lq

/-- R40 and what the device drops: blocks, contexts, queued records, queue dwords, commands; then status, done, the run
flag and the interrupt (R37, R297). The system context that serves the launch becomes idle with registers of zero (DESIGN
CHOICE, log 74). A PCI Express AtomicOp on its way has its effect all the same (log 75). An FWAIT of another launch on a ticket of
the launch is issued again and finds its command over (R254). -/
def finishLaunch (s : State) (lq state kind code : Nat) : State :=
  match s.launches.get? lq with
  | none => s
  | some l =>
    let s := (s.flushStores lq).flushTables l
    let out := s.ctxs.filter fun (k, c) => k % 32 != 16 && c.task.lq == lq && c.status != .free
    let s := out.foldl (fun s e => s.leaveSlot e.1) s
    let clusters := s.leasesEnd lq
    let specs := s.specs.filter fun (_, y) => y.task.lq != lq
    let tiles := s.tiles.mapVals fun t x =>
      let traps := x.trapQ.filter fun t => t.lq != lq
      let more := x.trapWait.filter fun t => t.lq != lq
      { dropCmds x lq with
               queue := x.queue.filter fun r => r.lq != lq
               inbound := x.inbound.filter fun p => p.1.lq != lq
               spilled := x.spilled.filter fun p => p.rec_.lq != lq
               spillWait := x.spillWait.filter fun p => p.1.lq != lq
               perLaunch := x.perLaunch.erase lq
               kills := x.kills.filter fun k => k.lq != lq
               inq := x.inq.map fun q => q.filter fun d => d.2 != lq
               carry := x.carry.filter fun e => e.1.lq != lq
               tcs := x.tcs.filter fun e => e.2 != lq
               roomFor := none
               l1 := if specs.any (fun e => e.2.tile == t) then x.l1 else x.l1.map (fun e => { e with spec := false })
               trapQ := traps ++ more.take (16 - traps.length)
               trapWait := more.drop (16 - traps.length)
               stlb := x.stlb.filter fun e => !l.blocks.contains e.1 }
    let s := clusters.foldl (fun s (c, x) => if x.holder.isNone && !x.leaseQ.isEmpty then s.later (.leaseGrant c) else s) s
    let word := s.statusWord state kind code
    let bad := s.frameBad.filter fun e => !(s.blocks.any fun (_, b) => b.lq == lq &&
      b.pages.any fun (_, p) => p.st == .framed && p.tile == e.1 && p.frame == e.2)
    let s := { s with
      tiles := tiles
      clusters := clusters
      blocks := s.blocks.filter fun (_, b) => b.lq != lq
      frameBad := bad
      specs := specs
      ctxs := AMap.mapVals (s.ctxs.filter fun (_, c) => c.task.lq != lq || c.status == Status.free
          || c.status == Status.waiting .idle || c.status == Status.waiting .serving) fun _ c =>
        if c.status == Status.waiting .ticket && c.waitOn.any (s.ticketOfLaunch lq) then { c with status := .ready, waitOn := none } else c
      watches := s.watches.filter fun x => !s.taskOf lq x.uid
      priv := s.priv.filter fun p => p.lq != lq
      kept := s.kept.filter fun (_, c) => c.task.lq != lq
      remote := s.remote.filter fun r => r.toHost || !(out.any fun e => e.2.task.uid == r.uid)
      killsUp := s.killsUp.filter fun k => k.lq != lq
      agenda := s.agenda.filter fun (_, e) => !s.eventOf lq e
      launches := s.launches.erase lq }
    let s := s.ownWrite l.statusAt (leBytes 8 word.toNat)
    let s := if l.done == 0 then s else s.ownWrite l.done (leBytes 8 word.toNat)
    let q := s.queue lq
    let s := s.onQueue lq fun q => { q with run := false }
    let s := { s with outbox := s.outbox ++ [Out.msix lq] }
    if q.map then s
    else
      let at_ := q.save + 8
      s.ownWrite at_ (leBytes 8 (setBit (s.dwordAt at_) 13 false).toNat)

/-- EndLaunch (R279, R291): the launch's uncommitted ordered tasks are aborted newest rank first, then it ends with
state 4. Vector 64 is sent once for each launch that an event of kind 4 or 5 ends, and not where none runs (R297; DESIGN CHOICE,
log 96). -/
def endLaunch (s : State) (lq kind code : Nat) : State :=
  let mine := sortBy (fun (a b : Spec) => b.before a) (s.specs.vals.filter fun y => y.task.lq == lq)
  let s := s.abortAll (mine.map fun y => (y.task.uid, false)) []
  let s := s.finishLaunch lq 4 kind code
  if kind == 4 || kind == 5 then { s with outbox := s.outbox ++ [Out.msix 64] } else s

end State

end Sys2Proof.Machine
end

