-- ==== Sys2Proof/Machine/Ops.lean ====
section
/-!
DEFINITION. Taking a trap (R274..R281) and returning from one (R282), as one operation each; the deferral of an ordered
task's faults (R202, R203); the system context's idle state (R502); register writes (R70, R71, R79).
-/
namespace Sys2Proof.Machine

/-! ## Traps -/

/-- A trap with no mark (R274). -/
def TrapInfo.plain (cause : Nat) (word val2 : Word) : TrapInfo :=
  { cause := cause, word := word, val2 := val2, held := false, eng := false, dfr := false, sup := false, after := false }

/-- The causes first taken at the user vector (R274). -/
def userVectored (cause : Nat) : Bool :=
  cause == 0x07 || cause == 0x08 || cause == 0x09 || cause == 0x0A || cause == 0x0C || cause == 0x0D || cause == 0x0E

/-- The program-error faults of R202. -/
def deferrable (cause : Nat) : Bool :=
  cause == 0x01 || cause == 0x02 || cause == 0x03 || cause == 0x04 || cause == 0x06 || cause == 0x07 || cause == 0x09
    || cause == 0x0C || cause == 0x0D || cause == 0x0E || cause == 0x0F

/-- tcause and scause (R280). -/
def TrapInfo.causeWord (i : TrapInfo) : Word :=
  BitVec.ofNat 64 (i.cause + i.dfr.toNat * 2 ^ 13 + i.eng.toNat * 2 ^ 14 + i.held.toNat * 2 ^ 15)

def pswInh (p : Word) : Bool := bit p 10
def pswSup (p : Word) : Bool := bit p 11
def pswChk (p : Word) : Bool := bit p 3
def pswRm (p : Word) : Nat := bits p 1 2

/-- The trap state an entry writes (R281 step 1): epc is the pc, or the instruction after it (R274). -/
def TrapState.enter (c : Ctx) (i : TrapInfo) (old : TrapState) : TrapState :=
  { old with
    cause := i.causeWord
    epc := (if i.after then nextPc c.pc else c.pc).setWidth 64
    epsw := c.psw
    word := i.word
    val2 := i.val2 }

/-- Enter(ctx, level, offset) on a context (R281): it issues again from the cycle `at_` on, or from where the stall of its last
issue leaves it (R69). -/
def Ctx.enter (c : Ctx) (sup : Bool) (offset : BitVec 32) (i : TrapInfo) (at_ : Nat) : Ctx :=
  let psw := setBit c.psw 10 true
  let psw := if sup then setBit psw 11 true else psw
  let psw := if bit psw 8 then setBit psw 9 false else psw
  { c with
    user := if sup then c.user else c.user.enter c i
    sup := if sup then c.sup.enter c i else c.sup
    psw := psw
    fetchBuf := []
    pc := offset.setWidth 24
    trapWord := i.word
    heldFault := none
    got := []
    status := .waiting .entry
    next := max c.next at_ }

namespace State

/-- The running context's slot has issued (R69). -/
def issued (s : State) : State := s.onTile s.here fun x => { x with last := s.slot }

/-- The running context's slot has issued, and its next issue follows the stall count (R69). -/
def issuedWith (s : State) (sc : Stall) : State :=
  (s.onCx fun c => { c with next := s.cycle + s.span s.here (stallCycles sc) }).issued

/-- Run with another context as the running one; what is done issues nothing (R69). -/
def asCtx (s : State) (k : Nat) (f : State → State) : State :=
  let s' := { f { s with cur := k } with cur := s.cur }
  if (s'.tile (k / 32)).last == (s.tile (k / 32)).last then s'
  else s'.onTile (k / 32) fun x => { x with last := (s.tile (k / 32)).last }

/-- A system context that runs no handler (R67, R502). -/
def restingSys (c : Ctx) : Bool := c.status == .waiting .idle || c.status == .waiting .serving

/-- Enter on the state: the task's repair eligibility ends (R281 step 3), and a WAIT that the trap interrupts is over: it is issued
afresh (DESIGN CHOICE, log 30). -/
def enterTrap (s : State) (k : Nat) (sup : Bool) (offset : BitVec 32) (i : TrapInfo) : State :=
  let c := s.ctx k
  let s := s.setCtx k (c.enter sup offset i (s.cycle + s.span (k / 32) 8))
  { s.onSpec c.task.uid fun y => { y with elig := false } with watches := s.watches.filter fun x => x.uid != c.task.uid }

/-- The handler's offset in a vector table; zero for none (R277). -/
def vector (table : List (BitVec 32)) (cause : Nat) : BitVec 32 := table.getD cause 0

/-- Route (R279, R276). -/
def routeTrap (s : State) (k : Nat) (i : TrapInfo) : State :=
  let c := s.ctx k
  let l := s.launch c.task.lq
  if pswInh c.psw && pswSup c.psw then s.endLaunch c.task.lq 6 i.cause
  else if userVectored i.cause && !pswInh c.psw && !i.sup && vector l.uvec i.cause != 0 then
    s.enterTrap k false (vector l.uvec i.cause) i
  else if vector l.svec i.cause != 0 then s.enterTrap k true (vector l.svec i.cause) i
  else s.endLaunch c.task.lq 6 i.cause

/-- A trap raised by the running context's instruction: held in an ordered task (R202), otherwise routed. An instruction that is
only looked at leaves the trap that it would raise. -/
def raise (s : State) (i : TrapInfo) : State :=
  if s.probe.isSome then { s with probe := some (some i) }
  else if s.cx.task.ord && !s.inSystem && deferrable i.cause then
    (s.onCx fun c => { c with heldFault := some i, status := .waiting .deferred }).issued
  else s.issued.routeTrap s.cur i

/-- The order of R275 among the causes that an instruction can meet at once: illegal, stall count, alignment, the other operand
checks, translation, range lock, machine check, and what comes of the operation itself. -/
def causeOrder (cause : Nat) : Nat := match cause with
  | 0x01 => 2 | 0x0C => 3 | 0x02 => 4 | 0x06 => 6 | 0x07 => 7 | 0x0F => 8 | 0x08 | 0x09 | 0x0A => 9 | _ => 5

/-- A port of an instruction meets a trap. The instruction's own checks come first where R275 orders them so: the instruction is
looked at with either of two values at the port, and the trap that it raises with both is taken if it is the first; where its checks
have to wait, it waits (DEDUCED, log 106). -/
def portFault (s : State) (i : TrapInfo) (take : State → State) (k : Word → State → State) : State :=
  let a := k 0 { s with probe := some none }
  let b := k 1 { s with probe := some none }
  match a.probe, b.probe with
  | some (some x), some (some y) => if x == y && causeOrder x.cause < causeOrder i.cause then s.raise x else take s
  | _, _ =>
    if s.turn.length < a.turn.length && s.turn.length < b.turn.length then
      { a with probe := s.probe }.onCx fun c => { c with ahead := s.cx.ahead }
    else take s

/-- A trap by its cause, trap word and second value. -/
def trap (s : State) (cause : Nat) (word val2 : Word) : State := s.raise (.plain cause word val2)

/-- Illegal instruction: the trap word is the instruction word (R274). -/
def trapIllegal (s : State) : State := s.trap 0x01 (s.word.setWidth 64) 0
def trapAlign (s : State) (va : Word) (unit : Nat) : State := s.trap 0x02 va (BitVec.ofNat 64 unit)
def trapProt (s : State) (word : Word) : State := s.trap 0x03 word 0
def trapFail (s : State) (f : PageFail) : State := s.trap f.cause f.word f.val2

/-- A held fault is raised at its vector once Gvt equals the task's rank (R203). -/
def raiseHeld (s : State) (k : Nat) : State :=
  match (s.ctx k).heldFault with
  | none => s
  | some i => s.routeTrap k { i with dfr := true }

/-- ERET on a context that is in a handler (R282): elig keeps its value. -/
def eretCtx (c : Ctx) : Ctx :=
  let back := fun (old : Word) => setBit old 9 (bit c.psw 9)
  if pswSup c.psw then
    { c with pc := c.sup.epc.setWidth 24, psw := back c.sup.epsw, fetchBuf := []
             trapWord := if pswInh c.sup.epsw then c.user.word else c.sup.word }
  else { c with pc := c.user.epc.setWidth 24, psw := back c.user.epsw, fetchBuf := [] }

/-- ERET (R282): in the system context a return from its handler is a return to idle (R502). -/
def eret (s : State) (sc : Stall) : State :=
  if !pswInh s.cx.psw then s.trapIllegal
  else
    let s := s.onCx eretCtx
    if s.inSystem then (s.onCx fun c => { c with pc := 0 }).park .idle sc
    else s.goTo s.cx.pc sc

/-! ## Registers (R71, R79) -/

/-- w0, ts and wp discard writes (R77, R79). -/
def discards (d : Reg) : Bool := d == 0 || d == 55 || d == 63

/-- The tags of w0, w52, w53, w54 and w55 are always untagged (R73). -/
def neverTagged (d : Reg) : Bool := d == 0 || (52 ≤ d.toNat && d.toNat ≤ 55)

end State

/-- Write a scalar register's slot and tag. -/
def Ctx.putW (c : Ctx) (d : Reg) (v : Word) (tag : BitVec 3) : Ctx :=
  if State.discards d then c
  else { c with w := c.w.set d.toNat v, tag := c.tag.set d.toNat (if State.neverTagged d then 0 else tag) }

/-- Land a value in a register of any file; m0 discards (R79). -/
def Ctx.putReg (c : Ctx) (r : RegRef) (v : BitVec 512) : Ctx :=
  match r with
  | .w d => if State.discards d then c else { c with w := c.w.set d.toNat (v.setWidth 64) }
  | .v n => { c with v := c.v.set n.toNat v }
  | .m n => if n == 0 then c else { c with m := c.m.set n.toNat (v.setWidth 64) }
  | .e n => { c with e := c.e.set n.toNat (v.setWidth 64) }
  | .h n => { c with h := c.h.set n.toNat v }

namespace State

/-- A fixed-latency result: written, and its register empty until the latency has passed (R70). -/
def busyUntil (s : State) (r : RegRef) (lat : Nat) : State :=
  s.onCx fun c => { c with busy := { reg := r, until_ := s.cycle + s.span s.here lat } :: c.busy.filter fun b => s.cycle < b.until_ && b.reg != r }

/-- A register is empty until its result is put into it (R71). -/
def emptyReg (s : State) (r : RegRef) (v : BitVec 512) : State :=
  s.onCx fun c => { c with results := c.results ++ [{ reg := r, val := v }] }

/-- A variable-latency result: its register is empty until the result arrives, after at least n cycles (R25, R71). -/
def pendReg (s : State) (r : RegRef) (v : BitVec 512) (n : Nat) : State :=
  (s.emptyReg r v).laterOn s.here n (.resultArrive s.cx.task.uid r)

/-- A variable-latency result whose arrival the spec fixes (R148, R251), n package cycles on. -/
def pendAt (s : State) (r : RegRef) (v : BitVec 512) (n : Nat) : State :=
  (s.emptyReg r v).after n (.resultArrive s.cx.task.uid r)

end State

end Sys2Proof.Machine
end

