-- ==== Sys2Proof/Machine/Workspace.lean ====
section
/-!
DEFINITION. A context's workspace as the bytes of its page (R72, R73), written out when the task leaves its context kept
(TYIELD, pre-emption) and read back when it resumes (R76, R78).
-/
namespace Sys2Proof.Machine

/-- The 192-bit tag field (R72). -/
def tagField (c : Ctx) : Nat := c.tag.toList.foldr (fun t acc => t.toNat + 8 * acc) 0

/-- A loaded tag: the codes the device never writes read as untagged (R73). -/
def loadTag (n : Nat) : BitVec 3 := if n % 8 < 4 then 0 else BitVec.ofNat 3 n

/-- The 2 KiB of the layout of R72. -/
def Ctx.pageBytes (c : Ctx) : List Byte :=
  (c.w.toList.flatMap fun x => leBytes 8 x.toNat) ++ (c.v.toList.flatMap fun x => leBytes 64 x.toNat)
    ++ (c.m.toList.flatMap fun x => leBytes 8 x.toNat) ++ (c.e.toList.flatMap fun x => leBytes 8 x.toNat)
    ++ (c.h.toList.flatMap fun x => leBytes 64 x.toNat) ++ leBytes 24 (tagField c) ++ leBytes 8 0
    ++ leBytes 8 c.pc.toNat ++ leBytes 8 c.psw.toNat ++ leBytes 8 c.ctxf.toNat ++ leBytes 8 c.trapWord.toNat
    ++ (c.stream.toList.flatMap fun x => leBytes 16 x.toNat)

/-- Where a register stands in its page, and its bytes (R72). -/
def regBytes (r : RegRef) (v : BitVec 512) : Nat × List Byte :=
  match r with
  | .w d => (8 * d.toNat, leBytes 8 v.toNat)
  | .v n => (0x200 + 64 * n.toNat, leBytes 64 v.toNat)
  | .m n => (0x600 + 8 * n.toNat, leBytes 8 v.toNat)
  | .e n => (0x640 + 8 * n.toNat, leBytes 8 v.toNat)
  | .h n => (0x680 + 64 * n.toNat, leBytes 64 v.toNat)

/-- The register discards what is written to it (R77, R79). -/
def regDiscards (r : RegRef) : Bool :=
  match r with
  | .w d => State.discards d
  | .m n => n == 0
  | .v _ | .e _ | .h _ => false

/-- n items of k bytes each from an offset. -/
def items (bs : List Byte) (off k n : Nat) : List Nat := (List.range n).map fun i => leNat ((bs.drop (off + k * i)).take k)

/-- The context with its workspace fields read from a page; w0 is zero, m0 all ones, the fixed tags untagged (R72, R73), the
reserved bits of psw, ctxf and the stream state zero (R74, R75). -/
def Ctx.ofPage (c : Ctx) (bs : List Byte) : Ctx :=
  let word := fun (off : Nat) => leNat ((bs.drop off).take 8)
  let tags := leNat ((bs.drop 0x780).take 24)
  { c with
    w := (Vector.ofFn fun i : Fin 64 => BitVec.ofNat 64 ((items bs 0 8 64).getD i.val 0)).set 0 0
    v := Vector.ofFn fun i : Fin 16 => BitVec.ofNat 512 ((items bs 0x200 64 16).getD i.val 0)
    m := (Vector.ofFn fun i : Fin 8 => BitVec.ofNat 64 ((items bs 0x600 8 8).getD i.val 0)).set 0 (BitVec.allOnes 64)
    e := Vector.ofFn fun i : Fin 8 => BitVec.ofNat 64 ((items bs 0x640 8 8).getD i.val 0)
    h := Vector.ofFn fun i : Fin 4 => BitVec.ofNat 512 ((items bs 0x680 64 4).getD i.val 0)
    tag := Vector.ofFn fun i : Fin 64 => if State.neverTagged (BitVec.ofNat 6 i.val) then 0 else loadTag (tags >>> (3 * i.val))
    pc := BitVec.ofNat 24 (word 0x7A0 / 4 * 4)
    psw := (BitVec.ofNat 64 (word 0x7A8) &&& 0x8F0E) ||| (c.psw &&& 0x1000)
    ctxf := BitVec.ofNat 64 (word 0x7B0) &&& 0x1FCFF
    trapWord := BitVec.ofNat 64 (word 0x7B8)
    stream := Vector.ofFn fun i : Fin 4 => BitVec.ofNat 128 ((items bs 0x7C0 16 4).getD i.val 0) &&& ~~~((0xF4 : BitVec 128) <<< 64) }

namespace State

/-- The workspace page of a context in its block. -/
def workPage (c : Ctx) : Nat := windowOff c.w[63] / 2048

/-- A store of privileged code into a Running task's workspace page, and a load from it, see the registers (R77): the page
is written out before the access, and read back after a store. -/
def syncOut (s : State) (k : Nat) : State :=
  let c := s.ctx k
  s.frameWrite c.task.blk (2048 * workPage c) c.pageBytes
def syncIn (s : State) (k : Nat) : State :=
  let c := s.ctx k
  let d := c.ofPage (s.frameRead c.task.blk (2048 * workPage c) 2048)
  s.setCtx k { d with w := d.w.set 63 c.w[63] }

/-- The context whose workspace a scratchpad page of a block is. -/
def ownerOf (s : State) (b p : Nat) : Option Nat :=
  (s.ctxs.find? fun (k, c) => hasPage k c && c.task.blk == b && workPage c == p).map (·.1)

/-- The task's context is kept: its outstanding results land in it when they arrive (R68), fetched-ahead elements and the forward-in
are discarded (R82, R437), the workspace goes to its page and keeps its entry in the thread-context store (R78), and the record is resumable
with a0 the page's address (R288, R468). -/
def keep (s : State) (k : Nat) : State × TaskRec :=
  let c := s.ctx k
  let c := { c with ahead := [], fetchBuf := [], ctxf := setBit c.ctxf 16 false, got := [] }
  let b := c.task.blk
  let p := workPage c
  let s := s.blockWrite b (2048 * p) c.pageBytes
  let s := (s.setCtx k c).setWs b p false
  let s := { s with kept := s.kept.set c.task.uid c }
  let s := (s.vacate k).onTile (k / 32) fun x => { x with tcs := (c.task.uid, c.task.lq) :: x.tcs }
  (s, { c.task with res := true, args := c.w[63] :: c.task.args.drop 1 })

/-- A variable-latency result lands in the workspace of the task that issued it, wherever that is: in its slot, or kept (R68, R71).
A kept workspace's page takes it in its frame; while it is not in one, the result is looked at again. `val` is a value that was not
known at issue. -/
def landValue (s : State) (uid : Nat) (reg : RegRef) (val : Option (BitVec 512)) : State :=
  let found := fun (c : Ctx) => c.results.find? fun (p : PendResult) => p.reg == reg
  match s.ctxOf uid with
  | some k =>
    let c := s.ctx k
    match found c with
    | none => s
    | some p => s.setCtx k ({ c with results := c.results.erase p }.putReg reg (val.getD p.val))
  | none =>
    match (s.kept.get? uid).bind fun c => (found c).map fun p => (c, p) with
    | none => s
    | some (c, p) =>
      let v := val.getD p.val
      let off := 2048 * workPage c + (regBytes reg v).1
      let keep := fun (rs : List PendResult) => { s with kept := s.kept.set uid { c with results := rs } }
      match s.frameAddr c.task.blk off with
      | some _ => if regDiscards reg then keep (c.results.erase p) else (keep (c.results.erase p)).frameWrite c.task.blk off (regBytes reg v).2
      | none => (keep (c.results.map fun q => if q == p then { p with val := v } else q)).later (.resultArrive uid reg)

/-- A kept task's context again, from its page (R76), with a wake event pending (R444, R468). -/
def resumed (s : State) (r : TaskRec) : Ctx :=
  let wp := r.args.getD 0 0
  let c := (s.kept.get? r.uid).getD Ctx.reset
  let c := c.ofPage (s.blockRead r.blk (windowOff wp) 2048)
  { c with w := c.w.set 63 wp, wake := true, task := r }

end State

end Sys2Proof.Machine
end

