-- ==== Sys2Proof/Machine/Access.lean ====
section
/-!
DEFINITION. Data accesses of contexts: the checks in the order of R275 (R149, R160, R77, R87, R158, R231, R234, R300), loads,
stores and their acknowledgement (R210), atomics and CAS (R347), and accesses that leave the package (R299, R301).
-/
namespace Sys2Proof.Machine

/-- What an access is, for its checks. `hostOk`: an AtomicOp exists for it on memory type 2 (R299). -/
inductive Mode
  | load
  | store
  | clear
  | rmw (hostOk : Bool)
  /-- A barrier or pool object: coherent memory only (R354, R428). -/
  | object
  /-- WAIT's dword (R495). -/
  | watch
  /-- CRADD's element: a writable page of memory type 0 (R369). -/
  | add
deriving DecidableEq, Repr

def Mode.writes : Mode → Bool
  | .load | .watch => false
  | .store | .clear | .rmw _ | .object | .add => true

def Mode.reads : Mode → Bool
  | .load | .rmw _ | .object | .watch => true
  | .store | .clear | .add => false

/-- Where an access goes when it faults or has to wait: a context's instruction traps or waits, a stream's fetch keeps the
fault for its pop (R437). `waited`: the access has waited for a line before; `own`: it is the instruction's own, younger than the
stream elements that the context holds. -/
structure Exits where
  fail : State → TrapInfo → State
  busy : State → Wait → State
  waited : State → Bool
  own : Bool

/-- The exits of an instruction. -/
def Exits.run : Exits :=
  { fail := State.raise, busy := State.wait, waited := fun s => s.cx.status == .waiting .line, own := true }

namespace State

/-- Supervisor handlers and the system context (R77). -/
def privileged (s : State) : Bool := s.inSystem || pswSup s.cx.psw

def ordered (s : State) : Bool := s.cx.task.ord && !s.inSystem
def party (s : State) : Party := if s.ordered then .ordered s.cx.task.uid else .free

/-- The scratchpad translation buffer of the tile names the page (R162). -/
def stlbHit (s : State) (b p : Nat) : Bool := (s.tile s.here).stlb.any fun e => e.1 == b && e.2.1 == p

/-- Fill the scratchpad translation buffer of 256 entries with a page framed on this tile (R162). A full buffer gives up the entry
that was filled first (DESIGN CHOICE, log 93). -/
def stlbFill (s : State) (b p : Nat) : State :=
  if s.stlbHit b p || (s.page b p).tile != s.here then s
  else s.onTile s.here fun x => { x with stlb := (b, p, (s.page b p).frame) :: x.stlb.take 255 }

/-- The page-table entry of a page is at hand: the translation buffer holds it, or the access has waited and the die's L2 holds
the entry's line (R162, R163). -/
def pageEntry (s : State) (x : Exits) (b p : Nat) : State × Bool :=
  if s.stlbHit b p then (s, true)
  else
    let l := s.myLaunch
    let r := walkLook (dieOf s.here) s ((l.peat + areaBytes l.sppages * (s.block b).idx + 8 * p) / 64)
    (r.1, r.2 && x.waited s)

/-- The checks of a scratchpad access (R77, R87, R160, R162, R165, R166, R231). -/
def checkScratch (s : State) (x : Exits) (va : Word) (off : Nat) (m : Mode) (k : State → Loc → Nat → State) : State :=
  let b := s.cx.task.blk
  let p := off / 2048
  let l := s.myLaunch
  if 2048 * l.sppages ≤ off || off < s.myBlock.xb then x.fail s (.plain 0x03 va 0)
  else
    match s.ownerOf b p, s.privileged with
    | some _, false => x.fail s (.plain 0x03 va 0)
    | owner, _ =>
      match s.pageEntry x b p with
      | (s, false) => x.busy s .line
      | (s, true) =>
        let pg := s.page b p
        if pg.lock then x.busy s .page
        else match pg.st with
          | .unmapped => x.busy (s.pageFault b p) .page
          | .parked =>
            match s.pageFail b p with
            | some f => x.fail s (.plain f.cause f.word f.val2)
            | none => x.busy (s.pageFault b p) .page
          | .framed =>
            match s.lockHit s.here s.asid va (.scr b off) m.writes with
            | some c => x.fail s (.plain 0x07 c.ticket va)
            | none =>
              if s.frameIsBad b p then x.fail s (.plain 0x0F 2 (BitVec.ofNat 64 pg.tile))
              else
                let s := ((s.stlbFill b p).touchPage b p).wakeTile pg.tile
                k (match owner with | some o => s.syncOut o | none => s) (.scr b off) 0

/-- A ST.CLR of this context that will clear the line is not yet performed: program order puts it first (R213, R462). -/
def ownClears (s : State) (pa : Nat) : Bool :=
  s.stores.any fun p => p.clear && p.uid == s.cx.task.uid && (p.bytes.getD 0 (0, 0)).1 / 64 == pa / 64

/-- What the address alone refuses (R207, R234): an access of this kind into a publication region, WAIT on a range line. -/
def vaRefused (s : State) (va : Word) (m : Mode) : Bool :=
  let lq := s.cx.task.lq
  let region := (s.pubRegion lq va).isSome
  match m with
  | .load | .store => region && s.ordered
  | .watch => region || (s.commRange lq va).isSome
  | .clear | .rmw _ | .object | .add => region

/-- The checks of a memory access in the order of R275 (R158, R231, R234, R292, R300, and the atomics' and ST.CLR's own, R346,
R462). -/
def checkMemory (s : State) (x : Exits) (va : Word) (m : Mode) (k : State → Loc → Nat → State) : State :=
  if s.vaRefused va m then x.fail s (.plain 0x03 va 0)
  else match s.translate (walkLook (dieOf s.here)) s.here s.asid va with
  | (s, none) => x.busy s .line
  | (s, some (.fault lev)) => x.fail s (.plain 0x06 va (BitVec.ofNat 64 lev))
  | (s, some (.poison pa)) => x.fail s (.plain 0x0F 1 (BitVec.ofNat 64 pa))
  | (s, some (.ok pa mt rd w)) =>
    let refused : Bool := match m with
      | .load => false
      | .store => false
      | .clear | .add => mt != 0
      | .rmw hostOk => mt == 3 || (mt == 2 && isHostMem pa && !hostOk)
      | .object | .watch => mt == 3 || mt == 2
    if (m.reads && !rd) || (m.writes && !w) || refused then x.fail s (.plain 0x03 va 0)
    else if isCauseway pa && (s.window pa).isNone then x.fail s (.plain 0x03 va 0)
    else match s.lockHit s.here s.asid va (.mem pa) m.writes with
      | some c => x.fail s (.plain 0x07 c.ticket va)
      | none =>
        if m != .clear && s.poisoned pa then
          (if s.ownClears pa then x.busy s .store else x.fail s (.plain 0x0F 1 (BitVec.ofNat 64 pa)))
        else k s (.mem pa) mt

/-- Every check of a data access after alignment; what follows is given the place and the memory type. -/
def checkAccess (s : State) (x : Exits) (va : Word) (m : Mode) (k : State → Loc → Nat → State) : State :=
  match vclass va with
  | .nonCanonical => x.fail s (.plain 0x06 va 4)
  | .scratch off => s.checkScratch x va off m k
  | .memory => s.checkMemory x va m k

/-- The alignment check first (R98, R275). -/
def checkAligned (s : State) (x : Exits) (va : Word) (n : Nat) (m : Mode) (k : State → Loc → Nat → State) : State :=
  if va.toNat % n != 0 then x.fail s (.plain 0x02 va (BitVec.ofNat 64 n)) else s.checkAccess x va m k

/-! ## The context's outstanding accesses -/

def storeOverlaps (p : PendStore) (loc : Loc) (n : Nat) : Bool :=
  match loc, p.into with
  | .scr b off, .scratch => p.blk == b && p.bytes.any fun x => off ≤ x.1 && x.1 < off + n
  | .mem pa, .memory => p.bytes.any fun x => pa ≤ x.1 && x.1 < pa + n
  | .mem pa, .uncached => p.bytes.any fun x => pa ≤ x.1 && x.1 < pa + n
  | _, _ => false

/-- A store of this context to one of these bytes is not yet performed (R213). -/
def ownOverlap (s : State) (loc : Loc) (n : Nat) : Bool :=
  s.stores.any fun p => p.uid == s.cx.task.uid && storeOverlaps p loc n

/-- A store of this context is not yet performed (R215). -/
def ownPending (s : State) : Bool := s.stores.any fun p => p.uid == s.cx.task.uid

def ownUncached (s : State) : Bool := s.stores.any fun p => p.uid == s.cx.task.uid && p.into == .uncached

/-- A store of this context to host memory of type 2 is not yet sent: PCI Express keeps it ahead of a later read (R325). -/
def ownHost (s : State) : Bool :=
  s.stores.any fun p => p.uid == s.cx.task.uid && p.into == .uncached && isHostMem (p.bytes.getD 0 (0, 0)).1

/-- A POOLPUT held by an uncommitted task concerns this header line (R176). -/
def heldPut (s : State) (pa : Nat) : Bool :=
  let here := fun (task : TaskRec) (h : HeldOp) => match h with
    | .poolput _ desc => (match s.locate task.lq task.blk desc .read with
      | .inl (.mem a) => a / 64 == pa / 64
      | _ => false)
    | _ => false
  (s.specs.any fun (_, y) => y.held.any (here y.task)) || s.tiles.any fun (_, x) => x.carry.any fun e => e.2.any (here e.1)

/-- The bytes a die reads: its private copy of a publication line over the image (R234). -/
def dieBytes (s : State) (die pa n : Nat) : List Byte :=
  match s.priv.find? fun p => p.die == die && p.line == pa / 64 with
  | none => s.bytesAt pa n
  | some p => (List.range n).map fun i =>
      match p.bytes.find? fun x => x.1 == pa + i with
      | some x => x.2
      | none => s.byteAt (pa + i)

/-- Lines that never enter L1: other memory types, ranges, Peat slots (R154, R207). -/
def l1Allows (s : State) (va : Word) (pa mt : Nat) : Bool :=
  mt == 0 && (s.commRange s.cx.task.lq va).isNone
    && !(s.launches.any fun (_, l) => l.peat ≤ pa && pa < l.peat + areaBytes l.sppages * l.tiles.length)

/-- L1 serves the load: for an ordered task only on a line whose spec bit is set (R154). -/
def l1Hit (s : State) (va : Word) (pa : Nat) : Bool :=
  (s.tile s.here).l1.any fun e => e.asid == s.asid && e.vline == va.toNat % 2 ^ 57 / 64 && e.pline == pa / 64 && (!s.ordered || e.spec)

/-! ## Outside requests -/

/-- Bytes that an access of another package's or the host's memory returns. -/
def answerBytes (what : RemoteOp) : Nat :=
  match what with
  | .load k => k
  | .store _ => 0
  | .atomic _ k _ => k
  | .cas k _ _ => k

/-- Requests leave the package, each an address with its data, and the context waits for the answer (R299, R301). -/
def sendOuts (s : State) (pa : Nat) (msgs : List (Nat × List Byte)) (regs : List RegRef) (reads : List Reg) (what : RemoteOp)
    (signed toHost : Bool) (sym : Option Word) (sc : Stall) : State :=
  let id := s.nextReq
  let req : OutReq :=
    { id := id, ctx := s.cur, uid := s.cx.task.uid, pa := pa, regs := regs, reads := reads,
      what := what, signed := signed, toHost := toHost, sym := sym
      base := if toHost then s.bytesAt pa (answerBytes what) else [], since := [] }
  let node := (s.outTarget pa toHost).1
  let s := { s with remote := s.remote ++ [req], nextReq := id + 1
                    outbox := s.outbox ++ msgs.map (fun (m : Nat × List Byte) => Out.request node id m.1 m.2) }
  if toHost then s.park .atomicOp sc
  else
    let late := s.after (10 * s.period) (.causewayTimeout id)
    (if Config.choice s.fresh % 2 == 0 then late.tick else late.tick.later (.resultArrive s.cx.task.uid (.w 0))).park .remote sc

/-- One request with the data it carries. -/
def sendOut (s : State) (pa : Nat) (regs : List RegRef) (reads : List Reg) (what : RemoteOp) (signed toHost : Bool)
    (sym : Option Word) (sc : Stall) : State :=
  s.sendOuts pa [((s.outTarget pa toHost).2, match what with | .store d => d | .load _ | .atomic _ _ _ | .cas _ _ _ => [])]
    regs reads what signed toHost sym sc

/-- The conflicts of a read and its entry in the read signature (R180, R184): none when it must wait. -/
def readClaim (s : State) (loc : Loc) (n : Nat) : Option State :=
  (s.resolve s.party false loc n).map fun r => if s.ordered then r.1.enterRead s.cx.task.uid loc else r.1

/-! ## Elements held ahead -/

/-- From the first element of each port that an access of the context's own touches, the elements it holds ahead are too old to pop
(R213, R218). -/
def markStale (hit : AheadElt → Bool) : List Nat → List AheadElt → List AheadElt
  | _, [] => []
  | ports, e :: es =>
    if ports.contains e.port || hit e then { e with stale := true } :: markStale hit (e.port :: ports) es
    else e :: markStale hit ports es

/-- The elements that hold some of these bytes are too old. -/
def ageElements (s : State) (loc : Loc) (n : Nat) (port : Option Nat) : State :=
  let hit := fun (e : AheadElt) => some e.port != port && e.loc.any fun l => locOverlap l 8 loc n
  if s.cx.ahead.any hit then s.onCx fun c => { c with ahead := markStale hit [] c.ahead } else s

/-! ## Loads -/

/-- The least latency of a load's result: a scratchpad hit, an L1 hit, or the L2 of the die, and 60 cycles more for a page on
another die (R25). -/
def loadLatency (s : State) (va : Word) (loc : Loc) : Nat :=
  match loc with
  | .scr b off => if dieOf (s.page b (off / 2048)).tile == dieOf s.here then 4 else 64
  | .mem pa => if s.l1Hit va pa then 12 else 40

/-- Perform a load of up to a dword, or of a vector, at a checked place and go on with its bytes (R210, R413). A line that L1
holds needs nothing of the L2, but the load is checked as every other (R180, R182, R221). What an instruction reads, an element
held ahead must not be older than (R213). -/
def loadOnce (s : State) (x : Exits) (va : Word) (n : Nat) (loc : Loc) (mt : Nat) (k : State → List Byte → State) : State :=
  let k := fun (s : State) (bs : List Byte) => k (if x.own then s.ageElements loc n none else s) bs
  if s.ownOverlap loc n then x.busy s .store
  else match loc with
    | .scr b off =>
      match s.readClaim loc n with
      | none => x.busy s .speculative
      | some s => k s (s.frameRead b off n)
    | .mem pa =>
      let read := fun (s : State) (k : State → State) => match s.readClaim loc n with
        | none => x.busy s .speculative
        | some s => k s
      if mt == 3 then (if s.ownUncached then x.busy s .store else read s fun s => k s (s.windowBytes (pa - regBase) n))
      else if mt == 2 then (if isHostMem pa && s.ownHost then x.busy s .store else read s fun s => k s (s.bytesAt pa n))
      else
        let cached := fun (s : State) => read s fun s =>
          let s := if s.l1Allows va pa mt then s.l1Fill s.here s.asid (va.toNat % 2 ^ 57 / 64) (pa / 64) s.ordered else s
          k s (s.dieBytes (dieOf s.here) pa n)
        if !s.ordered && s.heldPut pa then x.busy s .speculative
        else if s.l1Hit va pa then cached s
        else match s.l2Read (dieOf s.here) (pa / 64) with
          | (s, false) => x.busy s .line
          | (s, true) => cached s

/-- Perform a load. One of 16 or 64 bytes is an access a dword: whether another store falls between two of them is a free choice
(R322, R403, R484). -/
def loadAt (s : State) (x : Exits) (va : Word) (n : Nat) (loc : Loc) (mt : Nat) (k : State → List Byte → State) : State :=
  let got := s.cx.got
  let o := got.length
  if 8 < n - o && Config.choice s.fresh % 2 == 1 then
    s.loadOnce x (va + BitVec.ofNat 64 o) 8 (locAdd loc o) mt fun s bs => x.busy (s.tick.onCx fun c => { c with got := got ++ bs }) .line
  else
    s.loadOnce x (va + BitVec.ofNat 64 o) (n - o) (locAdd loc o) mt fun s bs =>
      k (if got.isEmpty then s else s.onCx fun c => { c with got := [] }) (got ++ bs)

/-! ## Stores -/

/-- Add bytes to a die's private copy of a publication line (R234). -/
def privWrite (s : State) (die lq : Nat) (desc : Word) (bs : List (Nat × Byte)) : State :=
  bs.foldl (fun s (pa, b) =>
    let old := (s.priv.find? fun p => p.die == die && p.line == pa / 64).getD { die := die, line := pa / 64, lq := lq, desc := desc, bytes := [] }
    let new := { old with bytes := (pa, b) :: old.bytes.filter (fun x => x.1 != pa) }
    { s with priv := new :: s.priv.filter (fun p => !(p.die == die && p.line == pa / 64)) }) s

def addresses (pa : Nat) (bs : List Byte) : List (Nat × Byte) := (List.range bs.length).zip bs |>.map fun (i, b) => (pa + i, b)

/-- A free store of bytes, each at its address, is issued: it will be performed at its acknowledgement (R210). One to a page of
memory type 2 or 3 goes uncached to its target, past the private copies of a publication region (DESIGN CHOICE, log 76). One to
another package goes where the Causeway window now says (R300), and is acknowledged within 100 µs or lost (R301). -/
def postBytes (s : State) (va : Word) (loc : Loc) (mt : Nat) (bs : List (Nat × Byte)) (clear : Bool) (port : Option Nat) : State :=
  let id := s.nextStore
  let target := match loc with | .mem pa => if isCauseway pa then s.window pa else none | .scr _ _ => none
  let p : PendStore :=
    { id := id, uid := s.cx.task.uid, tile := s.here, lq := s.cx.task.lq,
      ord := false, into := (match loc with | .scr _ _ => .scratch | .mem _ => if mt == 2 || mt == 3 then .uncached else .memory),
      blk := s.cx.task.blk, va := va, bytes := bs, clear := clear,
      epc := s.cx.pc.toNat, port := port, lost := target.isSome && Config.choice s.fresh % 2 == 1, ready := false, target := target }
  let s := { s with stores := s.stores ++ [p], nextStore := id + 1 }
  if p.lost then s.tick.after (10 * s.period) (.storeAcknowledge id)
  else if target.isSome then s.tick.after (1 + Config.latency s.fresh % (10 * s.period - 1)) (.storeAcknowledge id)
  else s.later (.storeAcknowledge id)

def placeOf : Loc → Nat
  | .scr _ off => off
  | .mem pa => pa

/-- A free store of consecutive bytes; one of 16 bytes is two of a dword (R322). -/
def postStore (s : State) (va : Word) (loc : Loc) (mt : Nat) (bs : List Byte) (clear : Bool) (port : Option Nat) : State :=
  let s := s.ageElements loc bs.length none
  if bs.length == 16 then
    (s.postBytes va loc mt (addresses (placeOf loc) (bs.take 8)) clear port).postBytes (va + 8) (locAdd loc 8) mt
      (addresses (placeOf loc + 8) (bs.drop 8)) clear port
  else s.postBytes va loc mt (addresses (placeOf loc) bs) clear port

/-- Bytes enter the frame of a page: a Running task whose workspace it is sees them in its registers (R77). -/
def frameStore (s : State) (b off : Nat) (bs : List Byte) : State :=
  let s := s.frameWrite b off bs
  match s.ownerOf b (off / 2048) with
  | some o => s.syncIn o
  | none => s

/-- An ordered store is performed at issue: conflicts, the log, the write, the signature, then repairs (R186, R461). -/
def orderedStore (s : State) (va : Word) (loc : Loc) (bs : List Byte) (k : State → State) : State :=
  let u := s.cx.task.uid
  match s.resolve s.party true loc bs.length with
  | none => s.wait .speculative
  | some (s, reps) =>
    match s.logWrite u va loc bs.length with
    | none => s.wait .undo
    | some s =>
      let s := match loc with
        | .scr b off => s.frameStore b off bs
        | .mem pa => s.physWrite (some s.here) pa bs
      k ((s.enterWrite u loc).requestRepairs reps)

/-- Store at a checked place (R210, R463); the instruction goes on at once. -/
def storeAt (s : State) (va : Word) (loc : Loc) (mt : Nat) (bs : List Byte) (clear : Bool) (port : Option Nat)
    (k : State → State) : State :=
  if s.ownOverlap loc bs.length then s.wait .store
  else if s.ordered then
    match loc with
    | .scr _ _ => s.orderedStore va loc bs k
    | .mem pa =>
      if mt == 2 || mt == 3 then s.orderedStore va loc bs k
      else match s.l2Write (dieOf s.here) (pa / 64) with
        | (s, false) => s.wait .line
        | (s, true) => s.orderedStore va loc bs k
  else match loc with
    | .scr b off =>
      if (s.ownerOf b (off / 2048)).isSome then k ((s.ageElements loc bs.length none).frameStore b off bs) else k (s.postStore va loc mt bs clear port)
    | .mem _ => if mt == 3 && s.ownUncached then s.wait .store else k (s.postStore va loc mt bs clear port)

/-- A fault that a store meets after it has left its instruction: taken at the writing instruction (R241), once the task is in
a slot again. A store of a handler that the system context no longer runs for that launch aims its trap at the context (R285, R502). -/
def lateFault (s : State) (p : PendStore) (i : TrapInfo) : State :=
  let drop := { s with stores := s.stores.filter (fun x => x.id != p.id) }
  match s.ctxOf p.uid with
  | some k =>
    let c := s.ctx k
    if k % 32 == 16 && (restingSys c || c.task.lq != p.lq) then
      drop.sendSysTrap (k / 32) { info := { i with sup := true }, lq := p.lq, blk := p.blk, source := k / 32, uid := 0, since := 0 }
    else (drop.onCtx k fun c => { c with pc := BitVec.ofNat 24 p.epc }).routeTrap k i
  | none => if (s.kept.get? p.uid).isSome then s.later (.storeAcknowledge p.id) else drop

/-- From a store's first byte to its last. -/
def spanOf (p : PendStore) (a : Nat) : Nat := (p.bytes.getLast?.map fun x => x.1 + 1 - a).getD 1

/-- Perform a memory store whose line the die's L2 holds in M (R184, R210). -/
def performMemory (s : State) (p : PendStore) (pa : Nat) : State :=
  if s.poisoned pa && !p.clear then s.lateFault p (.plain 0x0F 1 (BitVec.ofNat 64 pa))
  else match s.resolve .free true (.mem pa) (spanOf p pa) with
    | none => s.later (.storeAcknowledge p.id)
    | some (s, reps) =>
      let s := if p.clear then { s with poison := s.poison.filter (fun l => l != pa / 64) } else s
      let s := s.writeBytes (some p.tile) p.bytes
      ({ s with stores := s.stores.filter (fun x => x.id != p.id) }).requestRepairs reps

/-- The store goes to this line of this node (R301). -/
def sameAway (q : PendStore) (dest : Option (Nat × Nat)) : Bool :=
  q.target.any fun x => dest.any fun y => x.1 == y.1 && x.2 / 64 == y.2 / 64

/-- An earlier store of the same context comes first: one to the same line of the same node (R301), or to a register, whose accesses
are performed one at a time (R219). -/
def ownBefore (s : State) (p : PendStore) (a : Nat) : Bool :=
  s.stores.any fun q => q.id < p.id && q.uid == p.uid &&
    (sameAway q p.target || (isRegister a && q.into == .uncached && isRegister (q.bytes.getD 0 (0, 0)).1))

/-- The running context has a store on its way to the same line of the same node (R301). -/
def awayOwn (s : State) (a : Nat) : Bool := s.stores.any fun q => q.uid == s.cx.task.uid && sameAway q (s.window a)

/-- A store to an uncached target (R210, R301, R325). -/
def performUncached (s : State) (p : PendStore) (a : Nat) : State :=
  if p.lost then s.lateFault p (.plain 0x0F 7 (BitVec.ofNat 64 a))
  else match s.resolve .free true (.mem a) (spanOf p a) with
    | none => s.later (.storeAcknowledge p.id)
    | some (s, reps) =>
      let s := s.uncachedStore (some p.tile) p.target p.bytes
      ({ s with stores := s.stores.filter (fun x => x.id != p.id) }).requestRepairs reps

/-- The acknowledgement of a store by the L2 slice, the frame or the uncached target (R210): it is performed, or the
access its place still needs is started and it is tried again. A store that meets a range locked since its issue is performed
after the command (R231; DEDUCED, log 77). -/
def acknowledge (s : State) (id : Nat) : State :=
  match s.stores.find? fun p => p.id == id with
  | none => s
  | some p =>
    let drop := fun (s : State) => { s with stores := s.stores.filter (fun x => x.id != id) }
    match p.bytes with
    | [] => drop s
    | (a, _) :: _ =>
      let loc := if p.into == .scratch then Loc.scr p.blk a else Loc.mem a
      if (s.lockHit p.tile (s.launch p.lq).asid p.va loc true).isSome || s.ownBefore p a then s.later (.storeAcknowledge id)
      else match p.into with
      | .uncached => s.performUncached p a
      | .scratch =>
        let x := s.page p.blk (a / 2048)
        if x.lock then s.later (.storeAcknowledge id)
        else match x.st with
          | .unmapped | .parked =>
            match s.pageFail p.blk (a / 2048) with
            | some f => s.lateFault p (.plain f.cause f.word f.val2)
            | none => (s.pageFault p.blk (a / 2048)).later (.storeAcknowledge id)
          | .framed =>
            if s.frameIsBad p.blk (a / 2048) then s.lateFault p (.plain 0x0F 2 (BitVec.ofNat 64 x.tile))
            else match s.resolve .free true (.scr p.blk a) (spanOf p a) with
            | none => s.later (.storeAcknowledge id)
            | some (s, reps) => (drop (s.frameWriteBytes p.blk p.bytes)).requestRepairs reps
      | .memory =>
        match s.pubRegion p.lq p.va with
        | some r => match s.resolve .free true loc (spanOf p a) with
          | none => s.later (.storeAcknowledge id)
          | some (s, reps) => (drop (s.privWrite (dieOf p.tile) p.lq r.desc p.bytes)).requestRepairs reps
        | none => match s.l2Write (dieOf p.tile) (a / 64) with
          | (s, true) => s.performMemory p a
          | (s, false) =>
            match s.l2St (dieOf p.tile) (a / 64) with
            | .im | .sm => { s with stores := s.stores.map (fun (x : PendStore) => if x.id == id then { x with ready := true } else x) }
            | _ => s.later (.storeAcknowledge id)

/-- The waiting writes of a die's line are performed once Data(M) or UpgAck has come (R237), in ascending tile number (R463); one
that meets a range locked meanwhile goes on waiting (R231). -/
def performReady (s : State) (die line : Nat) : State :=
  let mine := s.stores.filter fun p => p.ready && dieOf p.tile == die && (p.bytes.getD 0 (0, 0)).1 / 64 == line
  let order := sortBy (fun (p q : PendStore) => p.tile < q.tile || (p.tile == q.tile && p.id < q.id)) mine
  order.foldl (fun s p =>
    let a := (p.bytes.getD 0 (0, 0)).1
    let s := { s with stores := s.stores.map (fun (x : PendStore) => if x.id == p.id then { x with ready := false } else x) }
    if (s.lockHit p.tile (s.launch p.lq).asid p.va (.mem a) true).isSome then s.later (.storeAcknowledge p.id)
    else s.performMemory p a) s

/-! ## Atomics and CAS (R345, R347, R360) -/

/-- One indivisible read and write at a checked place; `f` gives the bytes to write, if any, and `k` is given the old bytes. -/
def rmwAt (s : State) (va : Word) (n : Nat) (loc : Loc) (f : List Byte → Option (List Byte))
    (k : State → List Byte → State) : State :=
  if s.ownPending then s.wait .store
  else
    let body := fun (s : State) =>
      match s.resolve s.party true loc n with
      | none => s.wait .speculative
      | some (s, reps) =>
        let u := s.cx.task.uid
        match (if s.ordered then s.logWrite u va loc n else some s) with
        | none => s.wait .undo
        | some s =>
          let old := match loc with | .scr b off => s.frameRead b off n | .mem pa => s.bytesAt pa n
          let s := match f old, loc with
            | none, _ => s
            | some bs, .scr b off => s.frameStore b off bs
            | some bs, .mem pa => s.writeAt none pa bs
          let s := if s.ordered then (s.enterRead u loc).enterWrite u loc else s.ageElements loc n none
          k (s.requestRepairs reps) old
    match loc with
    | .scr _ _ => body s
    | .mem pa =>
      match s.l2Write (dieOf s.here) (pa / 64) with
      | (s, false) => s.wait .line
      | (s, true) => body (s.l1Drop (pa / 64) fun t => t == s.here)

/-! ## Accesses that leave the package (R188, R299, R301, R347) -/

/-- The conflicts of an access that leaves the package, the log entries of an ordered task's write and its signature entries
(R180, R184, R188), before its request is sent. -/
def outClaim (s : State) (va : Word) (loc : Loc) (n : Nat) (reads writes : Bool) (k : State → State) : State :=
  if !writes then (match s.readClaim loc n with
    | none => s.wait .speculative
    | some s => k s)
  else match s.resolve s.party true loc n with
    | none => s.wait .speculative
    | some (s, reps) =>
      let u := s.cx.task.uid
      match (if s.ordered then s.logWrite u va loc n else some s) with
      | none => s.wait .undo
      | some s =>
        let s := if s.ordered then (if reads then s.enterRead u loc else s).enterWrite u loc else s
        k (s.requestRepairs reps)

/-- Correct the j-th newest log entry of a task: these bytes of its dword, from byte `off` on, are what the write found. -/
def amendEntry (s : State) (uid j off : Nat) (bs : List Byte) : State :=
  match s.specs.get? uid with
  | none => s
  | some y => match y.undo[j]? with
    | none => s
    | some u =>
      let b := leBytes 8 u.val.toNat
      let val := BitVec.ofNat 64 (leNat (b.take off ++ bs ++ b.drop (off + bs.length)))
      let at_ := if j < y.used then (y.elems.getD 0 0, y.used - j) else (y.elems.getD 1 0, 15 + y.used - j)
      (s.onSpec uid fun y => { y with undo := y.undo.set j { u with val := val } }).undoStore (dieOf y.tile) y.task.lq y.task.blk at_.1 at_.2
        u.kind u.place val

/-- The old bytes that the answer to an ordered task's atomic brings are what its log holds (R188, R347). -/
def undoAmend (s : State) (uid pa : Nat) (old : List Byte) : State :=
  if (s.specs.get? uid).all fun y => y.unlogged then s
  else if old.length == 16 then (s.amendEntry uid 1 0 (old.take 8)).amendEntry uid 0 0 (old.drop 8)
  else s.amendEntry uid 0 (pa % 8) old

end State

end Sys2Proof.Machine
end

