-- ==== Sys2Proof/Machine/Operands.lean ====
section
/-!
DEFINITION. Operands: what every instruction's issue tests (R71, R79, R80, R82, R84), reading a register, popping the ports
read, and writing a destination, port or register, with its latency class (R70, R413).
-/
namespace Sys2Proof.Machine

/-! ## Stream state (R75) -/

def strStride (x : BitVec 128) : Word := signExtend (x >>> 96) 32
def strCount (x : BitVec 128) : Nat := bits x 72 24
def strSx (x : BitVec 128) : Bool := bit x 67
/-- Element size in bytes. -/
def strSize (x : BitVec 128) : Nat := 2 ^ bits x 64 3
def strAddr (x : BitVec 128) : Word := x.setWidth 64
/-- Past one element: addr advances by stride, count goes down (R80). -/
def strNext (x : BitVec 128) : BitVec 128 :=
  setBits (setBits x 0 64 (strAddr x + strStride x).toNat) 72 24 (strCount x - 1)
/-- An element extended to 64 bits under sx and size (R80). -/
def strExtend (x : BitVec 128) (bs : List Byte) : Word :=
  let n := 8 * strSize x
  if strSx x then signExtend (BitVec.ofNat 64 (leNat bs)) n else zeroExtend (BitVec.ofNat 64 (leNat bs)) n

/-- ctxf.sbd of a port: 0 unbound, 1 in-bound, 2 out-bound, 3 ended (R75). -/
def sbd (c : Ctx) (port : Nat) : Nat := bits c.ctxf (2 * port) 2
def setSbd (c : Ctx) (port v : Nat) : Ctx := { c with ctxf := setBits c.ctxf (2 * port) 2 v }
def fwdFull (c : Ctx) : Bool := bit c.ctxf 16
def qinBound (c : Ctx) : Bool := bit c.ctxf 15
def qinDir (c : Ctx) : Nat := bits c.ctxf 13 2
def qoutBound (c : Ctx) : Bool := bit c.ctxf 12
def qoutDir (c : Ctx) : Nat := bits c.ctxf 10 2

def streamPort (n : Reg) : Bool := 48 ≤ n.toNat && n.toNat ≤ 51

namespace State

/-! ## The scoreboard (R71) -/

def fixedEmpty (s : State) (r : RegRef) : Bool := s.cx.busy.any fun b => b.reg == r && s.cycle < b.until_
def variableEmpty (s : State) (r : RegRef) : Bool := s.cx.results.any fun p => p.reg == r

end State

def regNumber : RegRef → Nat
  | .w n => n.toNat
  | .v n => n.toNat
  | .m n => n.toNat
  | .e n => n.toNat
  | .h n => n.toNat

/-- The scalar registers of a list. -/
def scalars : List RegRef → List Reg
  | [] => []
  | .w n :: rest => n :: scalars rest
  | .v _ :: rest => scalars rest
  | .m _ :: rest => scalars rest
  | .e _ :: rest => scalars rest
  | .h _ :: rest => scalars rest

namespace State

/-! ## Ports -/

/-- The neighbour's inbound queue that a push of this context enters, with the dwords of this tile in it at the start of the
cycle or on their way (R83, R84, R85). -/
def pushTarget (s : State) : Option Nat := s.neighbour s.here (qoutDir s.cx)
def pushCount (s : State) (n dir : Nat) : Nat :=
  (((s.tile n).inq.toList.getD dir []).length) +
    (s.agenda.filter fun (_, e) => match e with | .queueDwordLand t d _ _ => t == n && d == dir | _ => false).length +
    s.popped.count (n, dir)

/-- The slot a forward of this context targets (R82). -/
def fwdTarget (s : State) : Nat := ctxKey s.here ((s.slot + 1) % 16)

/-- A task of the writer's launch left that slot in this very cycle: the write counts as made before, and what it deposits
is discarded (R85). -/
def justLeft (s : State) : Bool := s.left.contains (s.fwdTarget, s.cx.task.lq)

/-- Start the fetch of a port's next element, unless one is on its way (R81). -/
def ensureFetch (s : State) (port : Nat) : State :=
  if s.agenda.any fun (_, e) => e == .streamElementArrive s.here s.slot port then s
  else s.later (.streamElementArrive s.here s.slot port)

/-- An acquire: the elements that the ports hold are fetched again, so that they follow it (R214, R216..R218, R228, R229). -/
def refetch (s : State) : State :=
  if s.cx.ahead.isEmpty then s
  else (List.range 4).foldl (fun s i => if sbd s.cx i == 1 then s.ensureFetch i else s) (s.onCx fun c => { c with ahead := [] })

/-- A fetched-ahead element at the head of a port. -/
def aheadOf (c : Ctx) (port : Nat) : Option AheadElt := c.ahead.find? fun e => e.port == port

/-- A register read, without its pop: the ports' values as R79 has them. -/
def rd (s : State) (n : Reg) : Word :=
  let c := s.cx
  if n == 0 then 0
  else if s.inSystem then c.w[n.toNat]
  else if streamPort n then
    let i := n.toNat - 48
    match sbd c i with
    | 1 => if strCount c.stream[i % 4] == 0 then 0 else ((aheadOf c i).map fun e => e.val).getD 0
    | 3 => 0
    | _ => c.w[n.toNat]
  else if n == 53 then ((((s.tile s.here).inq.toList.getD (qinDir c) []).head?).map fun e => e.1).getD 0
  else c.w[n.toNat]

/-- Ports used where R79, R80, R84 or R177 make the instruction illegal. -/
def portIllegal (s : State) (reads writes : List Reg) : Bool :=
  let c := s.cx
  let both := reads ++ writes
  !s.inSystem &&
    ((s.ordered && both.any fun n => n == 52 || n == 53 || n == 54 || (streamPort n && sbd c (n.toNat - 48) != 0))
      || (reads.any fun n => (streamPort n && sbd c (n.toNat - 48) == 2) || (n == 53 && !qinBound c))
      || (writes.any fun n => (streamPort n && (sbd c (n.toNat - 48) == 1 || sbd c (n.toNat - 48) == 3))
            || (n == 53 && qinBound c) || (n == 54 && !qoutBound c)))

/-- The element at the head of an in-bound port may be popped: it has come, its fetch met no fault, and no command's write range
has been locked over it since (R81, R231, R437); one of memory type 3 is read now (R219). A fault is raised once, in its place among
the instruction's own (R275). -/
def headReady (s : State) (port : Nat) (e : AheadElt) (k : State → State) : State :=
  let held := fun (s : State) (new : AheadElt) => s.onCx fun c => { c with ahead := c.ahead.map fun x => if x == e then new else x }
  if s.cycle < e.ready then s.wait .line
  else match e.trap with
    | some i =>
      s.portFault i (fun s => (s.onCx fun c => { c with ahead := c.ahead.erase e }).raise i)
        fun v s => k (held s { e with val := v, trap := none })
    | none =>
      if e.atPop then
        let exits : Exits := { Exits.run with own := false }
        s.checkAccess exits e.addr .load fun s loc mt => s.loadOnce exits e.addr (strSize s.cx.stream[port % 4]) loc mt fun s bs =>
          k (held s { e with val := strExtend s.cx.stream[port % 4] bs, atPop := false })
      else match e.loc.bind fun l => s.lockHit s.here s.asid e.addr l false with
        | some c =>
          let i := TrapInfo.plain 0x07 c.ticket e.addr
          s.portFault i (fun s => s.raise i) fun v s => k (held s { e with val := v })
        | none => k s

/-- The ports read are ready; an in-bound element that met a fault raises it at the pop (R81, R82, R84, R437), and one that has
become too old is fetched again (R213). -/
def portsIn (s : State) (k : State → State) : List Reg → State
  | [] => k s
  | n :: rest =>
    let c := s.cx
    if s.inSystem then k s
    else if streamPort n && sbd c (n.toNat - 48) == 1 && strCount c.stream[(n.toNat - 48) % 4] != 0 then
      match aheadOf c (n.toNat - 48) with
      | none => (s.ensureFetch (n.toNat - 48)).wait .line
      | some e =>
        if e.stale then
          ((s.onCx fun c => { c with ahead := c.ahead.filter fun x => x.port != n.toNat - 48 }).ensureFetch (n.toNat - 48)).wait .line
        else s.headReady (n.toNat - 48) e fun s => s.portsIn k rest
    else if n == 52 && !fwdFull c then s.wait .fwdEmpty
    else if n == 53 then
      match (s.tile s.here).inq.toList.getD (qinDir c) [] with
      | [] => s.wait .qinEmpty
      | d :: _ => if d.2 == c.task.lq then s.portsIn k rest else s.wait .qinEmpty
    else s.portsIn k rest

/-- The ports written can take the value; an append checks its element's address here, its faults in their place among the
instruction's own (R80, R82, R84, R218, R275, R437). -/
def portsOut (s : State) (k : State → State) : List Reg → State
  | [] => k s
  | n :: rest =>
    let c := s.cx
    let exits : Exits := { Exits.run with fail := fun s i => s.portFault i (fun s => s.raise i) fun _ s => s.portsOut k rest }
    if s.inSystem then k s
    else if streamPort n && sbd c (n.toNat - 48) == 2 then
      let x := c.stream[(n.toNat - 48) % 4]
      if strCount x == 0 then exits.fail s (.plain 0x03 (strAddr x) 0)
      else if 8 ≤ (s.stores.filter fun p => p.port == some (n.toNat - 48) && p.uid == c.task.uid).length then
        s.wait .store
      else s.checkAccess exits (strAddr x) .store fun s loc mt =>
        if s.ownOverlap loc (strSize x) || (mt == 3 && s.ownUncached) then s.wait .store else s.portsOut k rest
    else if n == 52 then
      let t := s.ctx s.fwdTarget
      if s.justLeft then s.portsOut k rest
      else if t.status == .free || t.task.lq != c.task.lq then exits.fail s (.plain 0x03 (BitVec.ofNat 64 ((s.slot + 1) % 16)) 0)
      else if fwdFull t || (s.tile s.here).coming.contains ((s.slot + 1) % 16) then s.wait .fwdFull
      else if s.ownPending then s.wait .store
      else s.portsOut k rest
    else if n == 54 then
      match s.pushTarget with
      | none => exits.fail s (.plain 0x03 0 0)
      | some nb =>
        if 16 ≤ s.pushCount nb (opposite (qoutDir c)) then s.wait .qoutFull
        else if s.ownPending then s.wait .store
        else s.portsOut k rest
    else s.portsOut k rest

/-- The issue test of an instruction that reads and writes these registers, in field order (R71, R79, R275). -/
def gate (s : State) (reads writes : List RegRef) (k : State → State) : State :=
  let all := reads ++ writes
  if s.portIllegal (scalars reads) (scalars writes) then s.trapIllegal
  else
    match all.find? s.fixedEmpty with
    | some r =>
      if pswChk s.cx.psw then s.trap 0x0C (BitVec.ofNat 64 (regNumber r)) 0 else s.wait .scoreboard
    | none =>
      if all.any s.variableEmpty then s.wait .scoreboard
      else s.portsIn (fun s => s.portsOut k (scalars writes)) (scalars reads)

/-! ## Popping -/

/-- The pop of one port read, once whatever the number of operand positions (R79, R80, R82, R84). No element of another port that
holds the bytes popped may be older (R213). -/
def popPort (s : State) (n : Reg) : State :=
  let c := s.cx
  if s.inSystem then s
  else if streamPort n && sbd c (n.toNat - 48) == 1 then
    let i := n.toNat - 48
    if strCount c.stream[i % 4] == 0 then s.setCx (setSbd { c with w := c.w.set n.toNat 0 } i 3)
    else
      let v := s.rd n
      let older := fun (s : State) => match (aheadOf c i).bind fun e => e.loc with
        | some l => s.ageElements l (strSize c.stream[i % 4]) (some i)
        | none => s
      let ahead := match aheadOf c i with | some e => c.ahead.erase e | none => c.ahead
      (s.setCx { c with w := c.w.set n.toNat v, ahead := ahead, stream := c.stream.set (i % 4) (strNext c.stream[i % 4]) }).ensureFetch i |> older
  else if n == 52 then (s.setCx { c with ctxf := setBit c.ctxf 16 false }).refetch
  else if n == 53 then
    let d := qinDir c
    let s' := (s.setCx { c with w := c.w.set 53 (s.rd 53) }).onTile s.here fun x =>
      { x with inq := x.inq.set (d % 4) ((x.inq.toList.getD d []).drop 1) }
    { s'.refetch with popped := (s.here, d) :: s.popped }
  else s

def popPorts (s : State) : List Reg → State
  | [] => s
  | n :: rest => if rest.contains n then s.popPorts rest else (s.popPort n).popPorts rest

/-! ## Destinations -/

/-- Append to an out-bound stream port: a store at addr, then past the element (R80). -/
def appendStream (s : State) (n : Reg) (v : Word) : State :=
  let i := n.toNat - 48
  let x := s.cx.stream[i % 4]
  let step := fun (s : State) => s.onCx fun c =>
    { c with w := c.w.set n.toNat v, stream := c.stream.set (i % 4) (strNext x) }
  s.checkAccess .run (strAddr x) .store fun s loc mt =>
    s.storeAt (strAddr x) loc mt (leBytes (strSize x) v.toNat) false (some i) step

/-- A latency class (R70): fixed, variable with the least cycles it takes (R25), or variable with an arrival that the spec gives,
in package cycles from now (R148, R251). -/
inductive Latency
  | fixed (n : Nat)
  | variable (least : Nat)
  | arrives (n : Nat)
deriving DecidableEq, Repr

/-- Write an ordinary scalar register with its tag. -/
def putReg (s : State) (d : Reg) (v : Word) (tag : BitVec 3) (lat : Latency) : State :=
  if discards d then s
  else match lat with
    | .fixed n => (s.onCx fun c => c.putW d v tag).busyUntil (.w d) n
    | .variable n =>
      (s.onCx fun c => { c with tag := c.tag.set d.toNat (if neverTagged d then 0 else tag) }).pendReg (.w d) (v.setWidth 512) n
    | .arrives n =>
      (s.onCx fun c => { c with tag := c.tag.set d.toNat (if neverTagged d then 0 else tag) }).pendAt (.w d) (v.setWidth 512) n

/-- Write a destination register: a port as R79 has it, otherwise the register (R413). -/
def putW (s : State) (d : Reg) (v : Word) (tag : BitVec 3) (lat : Latency) : State :=
  let c := s.cx
  if s.inSystem then s.putReg d v tag lat
  else if streamPort d && sbd c (d.toNat - 48) == 2 then s.appendStream d v
  else if d == 52 then
    let n := (s.slot + 1) % 16
    if s.justLeft then s else (s.onTile s.here fun x => { x with coming := n :: x.coming }).afterOn s.here 2 (.fwdDepositLand s.here n v)
  else if d == 53 then s
  else if d == 54 then
    match s.pushTarget with
    | none => s
    | some nb =>
      let s := s.setCx { c with w := c.w.set 54 v }
      let s := (s.onTileLaunch s.here c.task.lq fun x => { x with qsent := x.qsent + 1 }).onLaunch c.task.lq
        fun l => { l with lastSent := s.cycle }
      s.afterOn s.here 3 (.queueDwordLand nb (opposite (qoutDir c)) v c.task.lq)
  else s.putReg d v tag lat

/-- Write a vector, mask, ticket or handle register; m0 discards (R79). -/
def putV (s : State) (r : RegRef) (v : BitVec 512) (lat : Latency) : State :=
  if r == .m 0 then s
  else match lat with
    | .fixed k => (s.onCx fun c => c.putReg r v).busyUntil r k
    | .variable k => s.pendReg r v k
    | .arrives k => s.pendAt r v k

/-- A mask register as read. -/
def rdM (s : State) (n : BitVec 3) : Word := if n == 0 then BitVec.allOnes 64 else s.cx.m[n.toNat]
def rdV (s : State) (n : BitVec 4) : Line := s.cx.v[n.toNat]

end State

end Sys2Proof.Machine
end

