-- ==== Sys2Proof/Machine/Flags.lean ====
section
/-!
DEFINITION. The bits an instruction sets beside its result: symbolic tags and repair eligibility (R73, R190..R195), as each
group of instructions of R191 changes them, and the shape of an instruction that computes one scalar result.
-/
namespace Sys2Proof.Machine

namespace State

def tagOf (s : State) (n : Reg) : BitVec 3 := if neverTagged n then 0 else s.cx.tag[n.toNat]
def tagged (s : State) (n : Reg) : Bool := s.tagOf n != 0

/-- The running ordered task's signature slot. -/
def mySpec (s : State) : Option Spec := if s.ordered then s.specs.get? s.cx.task.uid else none
def eligible (s : State) : Bool := match s.mySpec with | some y => y.elig | none => false

/-- psw.elig of the running task clears (R191). -/
def dropElig (s : State) : State := if s.ordered then s.clearElig s.cx.task.uid else s

/-- An instruction that R191 does not list, reading a tagged register, clears eligibility. -/
def useTagged (s : State) (reads : List Reg) : State := if reads.any s.tagged then s.dropElig else s

/-- A register as an operand of a record: its symbol and constant, or its value (R190, R192). -/
def symVal (s : State) (n : Reg) : SymVal :=
  let v := s.rd n
  if s.tagged n then
    let j := (s.tagOf n).toNat % 4
    .sym j (v - match s.mySpec with | some y => (y.syms.getD j ⟨0, .mem 0, 0, 0⟩).val | none => 0)
  else .val v

/-- A compare or branch with a tagged operand records a constraint; a ninth clears eligibility (R192, R195). -/
def constrain (s : State) (cmp : SymCmp) (l r : SymVal) (out : Bool) : State :=
  match s.mySpec with
  | none => s
  | some y =>
    if !y.elig then s
    else if y.cons.length < 8 then s.onSpec y.task.uid fun y => { y with cons := y.cons ++ [{ cmp := cmp, l := l, r := r, out := out }] }
    else s.dropElig

/-- Both operands of a compare. -/
def constrain2 (s : State) (cmp : SymCmp) (a b : Reg) (out : Bool) : State :=
  if s.tagged a || s.tagged b then s.constrain cmp (s.symVal a) (s.symVal b) out else s

/-- The tag of ADD and ADDI (R191): a single tagged operand passes its tag on, two clear eligibility. -/
def addTag (s : State) (a b : Reg) : State × BitVec 3 :=
  match s.tagged a, s.tagged b with
  | false, false => (s, 0)
  | true, false => (s, s.tagOf a)
  | false, true => (s, s.tagOf b)
  | true, true => (s.dropElig, 0)

/-- The tag of SUB (R191): only a tagged a passes its tag on. -/
def subTag (s : State) (a b : Reg) : State × BitVec 3 :=
  match s.tagged a, s.tagged b with
  | false, false => (s, 0)
  | true, false => (s, s.tagOf a)
  | _, true => (s.dropElig, 0)

/-- A load by an eligible task that is not symbolic adds its line to the plain-read records; a seventeenth clears
eligibility (R187). -/
def plainRead (s : State) (loc : Loc) : State :=
  match s.mySpec with
  | none => s
  | some y =>
    if !y.elig || y.plain.contains (sigKey loc) then s
    else if y.plain.length < 16 then s.onSpec y.task.uid fun y => { y with plain := y.plain ++ [sigKey loc] }
    else s.dropElig

/-- An access whose bytes overlap a symbolic store record clears eligibility (R191). -/
def overlapsSym (s : State) (loc : Loc) (n : Nat) : State :=
  match s.mySpec with
  | none => s
  | some y => if y.sstores.any fun t => locOverlap t.loc t.size loc n then s.dropElig else s

/-! ## Scalar results -/

/-- One scalar result from scalar operands, untagged: issue test, operand pops, write, retire. `reads` are in field order. -/
def scalarOp (s : State) (reads : List Reg) (d : Reg) (lat : Latency) (sc : Stall) (f : State → Word) : State :=
  s.gate (reads.map .w) [.w d] fun s =>
    let v := f s
    (((s.useTagged reads).popPorts reads).putW d v 0 lat).retire sc

/-- Two operands, b before d of R71's field order. -/
def op2 (s : State) (d a b : Reg) (lat : Latency) (sc : Stall) (f : Word → Word → Word) : State :=
  s.scalarOp [a, b] d lat sc fun s => f (s.rd a) (s.rd b)

def op1 (s : State) (d a : Reg) (lat : Latency) (sc : Stall) (f : Word → Word) : State :=
  s.scalarOp [a] d lat sc fun s => f (s.rd a)

/-- A compare-and-set with its constraint (R191, R448). -/
def compareOp (s : State) (d a : Reg) (reads : List Reg) (cmp : SymCmp) (right : State → SymVal) (tagR : State → Bool)
    (sc : Stall) (f : State → Bool) : State :=
  s.gate (reads.map .w) [.w d] fun s =>
    let out := f s
    let s' := if s.tagged a || tagR s then s.constrain cmp (s.symVal a) (right s) out else s
    ((s'.popPorts reads).putW d (Word.ofBool out) 0 (.fixed 4)).retire sc

end State

end Sys2Proof.Machine
end

