-- ==== Sys2Proof/Machine/Memory.lean ====
section
/-!
DEFINITION. Loads (R98, R409..R413), stores (R459..R463), atomics (R344..R347) and CAS (R359..R362) of contexts.
-/
namespace Sys2Proof.Machine

/-- Access size in bytes (R98). -/
def MSize.bytes : MSize → Nat
  | .b => 1 | .h => 2 | .w => 4 | .d => 8 | .q => 16

def ASize.bytes : ASize → Nat
  | .d => 8 | .w => 4

/-- The loaded value of a size up to a dword (R410). -/
def loadValue (n : Nat) (unsigned : Bool) (bs : List Byte) : Word :=
  let v : Word := BitVec.ofNat 64 (leNat bs)
  if n == 8 then v else if unsigned then zeroExtend v (8 * n) else signExtend v (8 * n)

/-- The register above d of a pair (R98). -/
def pairHigh (d : Reg) : Reg := d + 1

/-- The registers of a size: one, or a pair at .q. -/
def sizeRegs (n : Nat) (d : Reg) : List Reg := if n == 16 then [d, pairHigh d] else [d]

/-- AtomicOps need a request the root complex can complete: AADD, ASWAP, CAS (R299). -/
def atomicHostOk (order : Nat) : Bool := order == 0 || order == 1

/-- NewValue of R344 at a width in bits. -/
def atomicValue (order bitsN : Nat) (old b : Nat) : Nat :=
  let m := 2 ^ bitsN
  let b := b % m
  let lt := (BitVec.ofNat bitsN old).toInt < (BitVec.ofNat bitsN b).toInt
  match order with
  | 0 => (old + b) % m
  | 1 => b
  | 2 => old &&& b
  | 3 => old ||| b
  | 4 => old ^^^ b
  | 5 => if lt then b else old
  | 6 => if lt then old else b
  | _ => if old < b then b else old

namespace State

/-- The registers of a load or atomic receive bytes: one register, or a pair at .q. -/
def putLoaded (s : State) (n : Nat) (unsigned : Bool) (d : Reg) (tag : BitVec 3) (bs : List Byte) (least : Nat) : State :=
  if n == 16 then
    (s.putW d (loadValue 8 true (bs.take 8)) 0 (.variable least)).putW (pairHigh d) (loadValue 8 true (bs.drop 8)) 0 (.variable least)
  else s.putW d (loadValue n unsigned bs) tag (.variable least)

/-- What a load that is not symbolic leaves in the task's records (R187, R191). -/
def recordPlain (s : State) (n : Nat) (loc : Loc) : State := (s.overlapsSym loc n).plainRead loc

/-- LD.S in an eligible task: the next symbol. One beyond the fourth clears eligibility and acts as LD, whatever its d and its line; of
the others, one with d = w0 or on a line of the task's own write signature acts as LD (R190, R411). -/
def recordSymbolic (s : State) (n : Nat) (d : Reg) (va : Word) (loc : Loc) (bs : List Byte) : State × BitVec 3 :=
  let s := s.overlapsSym loc n
  match s.mySpec with
  | none => (s, 0)
  | some y =>
    if !y.elig then (s, 0)
    else if 4 ≤ y.syms.length then (s.dropElig, 0)
    else if d == 0 || memberW y.wsig (sigKey loc) then (s.plainRead loc, 0)
    else
      let v := loadValue n false bs
      (s.onSpec y.task.uid fun y => { y with syms := y.syms ++ [{ va := va, loc := loc, size := n, val := v }] },
        BitVec.ofNat 3 (4 + y.syms.length))

/-- What a load leaves in the task's records, with the tag of its result. -/
def record (s : State) (symbolic : Bool) (n : Nat) (d : Reg) (va : Word) (loc : Loc) (bs : List Byte) : State × BitVec 3 :=
  if symbolic then s.recordSymbolic n d va loc bs else (s.recordPlain n loc, 0)

/-- A load of n bytes at X(a) + offset (R410, R412): alignment, the checks of R275, then the load at its place. One of another
package's memory leaves the package (R301). -/
def loadOp (s : State) (n : Nat) (unsigned acquire symbolic : Bool) (d a : Reg) (off : Word) (sc : Stall) : State :=
  s.gate [.w a] ((sizeRegs n d).map .w) fun s =>
    let va := s.rd a + off
    s.checkAligned .run va n .load fun s loc mt =>
      let least := s.loadLatency va loc
      let done := fun (s : State) (bs : List Byte) =>
        let r := (s.useTagged [a]).record symbolic n d va loc bs
        let s := (r.1.popPorts [a]).putLoaded n unsigned d r.2 bs least
        (if acquire then s.refetch else s).retire sc
      match loc with
      | .mem pa =>
        if isCauseway pa then
          if s.ownPending then s.wait .store
          else s.outClaim va loc n true false fun s =>
            (s.useTagged [a]).sendOut pa ((sizeRegs n d).map .w) [a] (.load n) (!unsigned) false
              (if symbolic then some va else none) sc
        else s.loadAt .run va n loc mt done
      | .scr _ _ => s.loadAt .run va n loc mt done

/-- The offset of M format: imm6 elements (R410). -/
def elemOff (n : Nat) (imm6 : BitVec 6) : Word := BitVec.ofNat 64 n * signExtend imm6 6

/-- A symbolic store record, or what clears eligibility instead (R191, R193). -/
def recordStore (s : State) (n : Nat) (d a : Reg) (va : Word) (loc : Loc) : State :=
  let s := s.overlapsSym loc n
  if s.tagged a then s.dropElig
  else if !(s.tagged d || (n == 16 && s.tagged (pairHigh d))) then s
  else if n != 4 && n != 8 then s.dropElig
  else match s.mySpec, s.symVal d with
    | some y, .sym j c =>
      if !y.elig then s
      else if y.sstores.length < 8 then
        s.onSpec y.task.uid fun y => { y with sstores := y.sstores ++ [{ va := va, loc := loc, size := n, sym := j, c := c }] }
      else s.dropElig
    | _, _ => s

/-- The bytes a store of n bytes sends (R460). -/
def storeBytes (s : State) (n : Nat) (d : Reg) : List Byte :=
  if n == 16 then leBytes 8 (s.rd d).toNat ++ leBytes 8 (s.rd (pairHigh d)).toNat else leBytes n (s.rd d).toNat

/-- A release waits until the context's earlier accesses are performed; .ctx orders nothing more (R212, R215). -/
def release (s : State) (scope : Scope) (k : State → State) : State :=
  if scope != .ctx && s.ownPending then s.wait .store else k s

/-- A store of n bytes at X(a) + offset (R460, R462), with its release scope: .ctx for none. -/
def storeOp (s : State) (n : Nat) (d a : Reg) (off : Word) (scope : Scope) (sc : Stall) : State :=
  s.gate ((a :: sizeRegs n d).map .w) [] fun s => s.release scope fun s =>
    let va := s.rd a + off
    let bs := s.storeBytes n d
    s.checkAligned .run va n .store fun s loc mt =>
      let done := fun (s : State) => ((s.recordStore n d a va loc).popPorts (a :: sizeRegs n d)).retire sc
      match loc with
      | .mem pa =>
        if isCauseway pa then
          if s.ownPending then s.wait .store
          else s.outClaim va loc n false true fun s =>
            ((s.recordStore n d a va loc).ageElements loc n none).sendOut pa [] (a :: sizeRegs n d) (.store bs) false false none sc
        else s.storeAt va loc mt bs false none done
      | .scr _ _ => s.storeAt va loc mt bs false none done

/-- ST.CLR: illegal in an ordered task (R177); the whole line is written, zero outside the k bytes (R460). -/
def clearOp (s : State) (n : Nat) (d a : Reg) (off : Word) (sc : Stall) : State :=
  if s.ordered then s.trapIllegal
  else s.gate ((a :: sizeRegs n d).map .w) [] fun s =>
    let va := s.rd a + off
    let bs := s.storeBytes n d
    s.checkAligned .run va n .clear fun s loc mt =>
      let o := va.toNat % 64
      let line := List.replicate o 0 ++ bs ++ List.replicate (64 - o - n) 0
      let base := match loc with | .mem pa => Loc.mem (pa - o) | .scr b off => Loc.scr b (off - o)
      s.storeAt (va - BitVec.ofNat 64 o) base mt line true none fun s => (s.popPorts (a :: sizeRegs n d)).retire sc

/-- An atomic or CAS at X(a) (R345, R360). `cmp`: for CAS, the expected bytes. -/
def atomicOp (s : State) (n : Nat) (a : Reg) (reads : List Reg) (dests : List Reg) (hostOk : Bool) (what : State → RemoteOp)
    (f : State → List Byte → Option (List Byte)) (sc : Stall) : State :=
  s.gate (reads.map .w) (dests.map .w) fun s =>
    let va := s.rd a
    let g := f s
    s.checkAligned .run va n (.rmw hostOk) fun s loc mt =>
      let least := s.loadLatency va loc
      let finish := fun (s : State) (old : List Byte) =>
        let s := (((s.useTagged reads).overlapsSym loc n).popPorts reads)
        ((s.putLoaded n false (dests.headD 0) 0 old least).refetch).retire sc
      match loc with
      | .scr _ _ => s.rmwAt va n loc g finish
      | .mem pa =>
        if isCauseway pa || mt == 2 then
          if s.ownPending then s.wait .store
          else s.outClaim va loc n true true fun s =>
            ((s.useTagged reads).overlapsSym loc n).sendOut pa (dests.map .w) reads (what s) true (!isCauseway pa) none sc
        else s.rmwAt va n loc g finish

/-- The eight atomics (R344). -/
def atomic (s : State) (wd : ASize) (order : Nat) (d a b : Reg) (sc : Stall) : State :=
  let n := ASize.bytes wd
  s.atomicOp n a [a, b] [d] (atomicHostOk order) (fun s => .atomic order n (s.rd b))
    (fun s => let x := (s.rd b).toNat; fun old => some (leBytes n (atomicValue order (8 * n) (leNat old) x))) sc

end State

/-! ## Loads -/

/-- LD (R410). -/
def execLd (sz : MSize) (d a : Reg) (imm6 : BitVec 6) (sc : Stall) (s : State) : Result :=
  .next (s.loadOp (MSize.bytes sz) false false false d a (State.elemOff (MSize.bytes sz) imm6) sc)

/-- LD.u (R410). -/
def execLdU (sz : MSize) (d a : Reg) (imm6 : BitVec 6) (sc : Stall) (s : State) : Result :=
  .next (s.loadOp (MSize.bytes sz) true false false d a (State.elemOff (MSize.bytes sz) imm6) sc)

/-- LD.ACQ (R214, R410): loads are performed at issue, so every later access follows it; what the stream ports hold is fetched
again. -/
def execLdAcq (sz : MSize) (d a : Reg) (imm6 : BitVec 6) (_ : Scope) (sc : Stall) (s : State) : Result :=
  .next (s.loadOp (MSize.bytes sz) false true false d a (State.elemOff (MSize.bytes sz) imm6) sc)

/-- LD.S (R411). -/
def execLdS (sz : MSize) (d a : Reg) (imm6 : BitVec 6) (sc : Stall) (s : State) : Result :=
  .next (s.loadOp (MSize.bytes sz) false false true d a (State.elemOff (MSize.bytes sz) imm6) sc)

/-- LD.d with a 12-bit byte offset (R99, R410). -/
def execLdDLong (d a : Reg) (imm : BitVec 12) (sc : Stall) (s : State) : Result :=
  .next (s.loadOp 8 false false false d a (signExtend imm 12) sc)

/-! ## Stores -/

/-- ST (R460). -/
def execSt (sz : MSize) (d a : Reg) (imm6 : BitVec 6) (sc : Stall) (s : State) : Result :=
  .next (s.storeOp (MSize.bytes sz) d a (State.elemOff (MSize.bytes sz) imm6) .ctx sc)

/-- ST.REL (R215, R460): in an ordered task the scope adds nothing (R220). -/
def execStRel (sz : MSize) (d a : Reg) (imm6 : BitVec 6) (scope : Scope) (sc : Stall) (s : State) : Result :=
  .next (s.storeOp (MSize.bytes sz) d a (State.elemOff (MSize.bytes sz) imm6) scope sc)

/-- ST.CLR (R460). -/
def execStClr (sz : MSize) (d a : Reg) (imm6 : BitVec 6) (sc : Stall) (s : State) : Result :=
  .next (s.clearOp (MSize.bytes sz) d a (State.elemOff (MSize.bytes sz) imm6) sc)

/-- ST.d with a 12-bit byte offset (R99, R460). -/
def execStDLong (d a : Reg) (imm : BitVec 12) (sc : Stall) (s : State) : Result :=
  .next (s.storeOp 8 d a (signExtend imm 12) .ctx sc)

/-! ## Atomics and CAS -/

/-- AADD (R344, order 0). -/
def execAadd (wd : ASize) (d a b : Reg) (_ : Scope) (sc : Stall) (s : State) : Result := .next (s.atomic wd 0 d a b sc)
/-- ASWAP (R344, order 1). -/
def execAswap (wd : ASize) (d a b : Reg) (_ : Scope) (sc : Stall) (s : State) : Result := .next (s.atomic wd 1 d a b sc)
/-- AAND (R344, order 2). -/
def execAand (wd : ASize) (d a b : Reg) (_ : Scope) (sc : Stall) (s : State) : Result := .next (s.atomic wd 2 d a b sc)
/-- AOR (R344, order 3). -/
def execAor (wd : ASize) (d a b : Reg) (_ : Scope) (sc : Stall) (s : State) : Result := .next (s.atomic wd 3 d a b sc)
/-- AXOR (R344, order 4). -/
def execAxor (wd : ASize) (d a b : Reg) (_ : Scope) (sc : Stall) (s : State) : Result := .next (s.atomic wd 4 d a b sc)
/-- AMAX (R344, order 5). -/
def execAmax (wd : ASize) (d a b : Reg) (_ : Scope) (sc : Stall) (s : State) : Result := .next (s.atomic wd 5 d a b sc)
/-- AMIN (R344, order 6). -/
def execAmin (wd : ASize) (d a b : Reg) (_ : Scope) (sc : Stall) (s : State) : Result := .next (s.atomic wd 6 d a b sc)
/-- AMAXU (R344, order 7). -/
def execAmaxu (wd : ASize) (d a b : Reg) (_ : Scope) (sc : Stall) (s : State) : Result := .next (s.atomic wd 7 d a b sc)

/-- CAS.d (R360): d is the expected value in and the old value out. -/
def execCasD (d a b : Reg) (_ : Scope) (sc : Stall) (s : State) : Result :=
  .next (s.atomicOp 8 a [a, b, d] [d] true (fun s => .cas 8 (s.rd d).toNat (s.rd b).toNat)
    (fun s => let e := leBytes 8 (s.rd d).toNat; let x := leBytes 8 (s.rd b).toNat
      fun old => if old == e then some x else none) sc)

/-- CAS.q (R360): pairs, low dword in the lower register. -/
def execCasQ (d a b : Reg) (_ : Scope) (sc : Stall) (s : State) : Result :=
  .next (s.atomicOp 16 a [a, b, pairHigh b, d, pairHigh d] [d, pairHigh d] true
    (fun s => .cas 16 ((s.rd d).toNat + 2 ^ 64 * (s.rd (pairHigh d)).toNat) ((s.rd b).toNat + 2 ^ 64 * (s.rd (pairHigh b)).toNat))
    (fun s => let e := s.storeBytes 16 d; let x := s.storeBytes 16 b
      fun old => if old == e then some x else none) sc)

end Sys2Proof.Machine
end

