-- ==== Sys2Proof/Machine/Ranges.lean ====
section
/-!
DEFINITION. Commutative ranges (R206..R208, R368..R371) and the pool instructions (R426..R429).
-/
namespace Sys2Proof.Machine

namespace State

/-- A CRADD taken by the slice of a die (R208, R237): none while the line is in a transient state, or a sharer is out of reach
(R241). -/
def craddAt (s : State) (die pa : Nat) (fmt : CrFmt) (x : Word) : Option State :=
  let line := pa / 64
  let h := s.homeLine line
  if s.lineBusy line || !(s.stuck line none).isEmpty then none
  else
    let slice := sliceOf s.retired die pa
    let old := s.parts.find? fun p => p.die == die && p.slice == slice && p.pa == pa && !p.atHome
    let new := match old with
      | some p => p.plus (addendOf fmt die slice pa x)
      | none => addendOf fmt die slice pa x
    let rest := s.parts.filter fun p => !(p.die == die && p.slice == slice && p.pa == pa && !p.atHome)
    let s := (List.range 8).foldl (fun s d => if s.l2St d line == .p then s else s.leave d line .i) { s with parts := rest ++ [new] }
    let mask := if h.st == .p then h.mask else []
    some (((s.makeWay die line).setL2 die line .p).setHome line { h with st := .p, owner := 0, mask := insertNat die mask })

/-! ## CRDECL (R371) -/

def rangeOverlaps (base len base' len' : Nat) : Bool := base < base' + len' && base' < base + len

/-- The checks of CRDECL, and whether the range is already declared (R371). -/
def crdeclCheck (s : State) (lq : Nat) (fmt : CrFmt) (base len : Word) : Option PageFail :=
  let l := s.launch lq
  let b := base.toNat
  let n := len.toNat
  let prot : PageFail := { cause := 0x03, word := base, val2 := 0 }
  let inMem := vclass base == .memory && vclass (base + len - 1) == .memory && b + n ≤ 2 ^ 64
    && (b < 2 ^ 63) == (b + n - 1 < 2 ^ 63)
  if b % 64 != 0 then some { cause := 0x02, word := base, val2 := 64 }
  else if n == 0 || n % 64 != 0 || 2 ^ 30 < n || !inMem then some prot
  else if l.ranges.any fun r => r.fmt == fmt && r.base == base && r.len == n then none
  else if 16 ≤ l.ranges.length then some prot
  else if (l.ranges.any fun r => r.fmt != fmt && rangeOverlaps b n r.base.toNat r.len)
      || l.regions.any fun r => rangeOverlaps b n r.base.toNat r.len then some prot
  else none

def declared (s : State) (lq : Nat) (fmt : CrFmt) (base len : Word) : Option CrRange :=
  (s.launch lq).ranges.find? fun r => r.fmt == fmt && r.base == base && r.len == len.toNat

/-- Declare a range and start putting it in force (R371 steps 2 and 3). -/
def crdeclStart (s : State) (lq : Nat) (fmt : CrFmt) (base len : Word) : State :=
  (s.onLaunch lq fun l => { l with ranges := l.ranges ++ [{ fmt := fmt, base := base, len := len.toNat, live := false }] }).later
    (.crdeclInForce lq base.toNat)

def crdecl (s : State) (fmt : CrFmt) (a b : Reg) (sc : Stall) : State :=
  s.gate [.w a, .w b] [] fun s =>
    let base := s.rd a
    let len := s.rd b
    let lq := s.cx.task.lq
    let done := fun (s : State) => ((s.useTagged [a, b]).popPorts [a, b]).retire sc
    match s.crdeclCheck lq fmt base len with
    | some f => s.trapFail f
    | none =>
      if s.ordered then
        done (s.onSpec s.cx.task.uid fun y => { y with held := y.held ++ [.crdecl fmt base len] })
      else match s.declared lq fmt base len with
        | some r => if r.live then done s else s.park .crdecl sc
        | none => (s.crdeclStart lq fmt base len).park .crdecl sc

/-- The physical lines that a span of an address space maps, first and last of each 64 KiB of its addresses. -/
def spanLines (s : State) (asid b len : Nat) : List (Nat × Nat) :=
  (List.range ((b + len - 1) / 65536 - b / 65536 + 1)).filterMap fun i =>
    let lo := max b ((b / 65536 + i) * 65536)
    let hi := min (b + len) ((b / 65536 + i + 1) * 65536)
    match s.translateNow asid (BitVec.ofNat 64 lo) with
    | .ok pa _ _ _ => some (pa / 64, (pa + (hi - lo) - 1) / 64)
    | .fault _ | .poison _ => none

/-- The physical lines of a launch's range (R371). -/
def rangeLines (s : State) (l : Launch) (r : CrRange) : List (Nat × Nat) := s.spanLines l.asid r.base.toNat r.len

/-- The oldest declaration at a base that was still on its way is in force: every L1 copy of its lines, under whatever address
space, is gone, and its waiters go on (R371). -/
def crdeclDone (s : State) (lq base : Nat) : State :=
  let l := s.launch lq
  match l.ranges.find? fun r => r.base.toNat == base && !r.live with
  | none => s
  | some r =>
    let s := s.onLaunch lq fun l => { l with ranges := l.ranges.map fun x => if x == r then { x with live := true } else x }
    let first := base % 2 ^ 57 / 64
    let lines := if (s.tiles.any fun e => !e.2.l1.isEmpty) then s.rangeLines l r else []
    let s := { s with tiles := s.tiles.mapVals fun _ x =>
      { x with l1 := x.l1.filter fun e =>
          !((e.asid == l.asid && first ≤ e.vline && e.vline < first + r.len / 64) || lines.any fun x => x.1 ≤ e.pline && e.pline ≤ x.2) } }
    { s with ctxs := s.ctxs.mapVals fun _ c =>
        if c.task.lq == lq && c.status == .waiting .crdecl then { c with status := .waiting .resource } else c }

/-! ## Pools -/

/-- The checks of a header or element access (R428): memory class, coherent memory, outside publication regions. -/
def poolAccess (s : State) (va : Word) (k : State → Loc → State) : State :=
  match vclass va with
  | .scratch _ => s.trapProt va
  | .nonCanonical => s.trap 0x06 va 4
  | .memory => s.checkMemory .run va .object fun s loc _ => k s loc

/-- The access to an element's link is a load or a store of its line (R237). A free task's aborts or waits for the ordered tasks
that have used it (R184, R221); an ordered task's is checked against none (R429). The operation starts over where an abort has put
another element on the list. -/
def poolLink (s : State) (h : Loc) (store : Bool) (e : Loc) (k : State → State) : State :=
  if s.ownOverlap e 8 then s.wait .store
  else
    let line := match e with
      | .mem pa => if store then s.l2Write (dieOf s.here) (pa / 64) else s.l2Read (dieOf s.here) (pa / 64)
      | .scr _ _ => (s, true)
    match line with
    | (s, false) => s.wait .line
    | (s, true) =>
      if s.ordered then k s
      else match s.resolve .free store e 8 with
        | none => s.wait .speculative
        | some (s', reps) => if (s'.poolAt h).head != (s.poolAt h).head then s'.wait .speculative else k (s'.requestRepairs reps)

/-- The header's line is held at the issuing die's home slice, without a copy in the tile's L1 (R154, R427). A free task's access
aborts the ordered tasks that have read or written the header (R184, R221); an ordered task's is checked against none (R429). -/
def poolOwn (s : State) (h : Loc) (k : State → State) : State :=
  match h with
  | .scr _ _ => k s
  | .mem pa =>
    match s.l2Write (dieOf s.here) (pa / 64) with
    | (s, false) => s.wait .line
    | (s, true) =>
      let s := s.l1Drop (pa / 64) fun t => t == s.here
      if s.ordered then k s
      else match s.resolve .free true h 64 with
        | none => s.wait .speculative
        | some (s, reps) => k (s.requestRepairs reps)

/-- POOLGET (R427): an ordered task's is logged with the pool descriptor, cut to the 52 bits of its field, and whole for its return
(R187; DESIGN CHOICE, log 94). -/
def poolgetOp (s : State) (nf : Bool) (d a : Reg) (sc : Stall) : State :=
  s.gate [.w a] [.w d] fun s =>
    let desc := s.rd a
    if desc.toNat % 64 != 0 then s.trapAlign desc 64
    else s.poolAccess desc fun s h =>
      let p := s.poolAt h
      if !p.headerOk then s.trapProt desc
      else if s.ownOverlap h 64 then s.wait .store
      else s.poolOwn h fun s =>
        let take := fun (s : State) =>
          match s.poolGet (dieOf s.here) s.cx.task.lq s.cx.task.blk h with
          | (_, .inr f) => s.trapFail f
          | (s', .inl x) =>
            if x == 0 && !nf then s.trap 0x09 desc 0
            else
              let done := fun (s : State) => ((((s.useTagged [a]).popPorts [a]).putW d x 0 (.variable 40)).refetch).retire sc
              if s.ordered && x != 0 then
                match s'.undoAppend s.cx.task.uid { kind := 3, place := desc.toNat % 2 ^ 52, val := x, va := desc } with
                | none => s.wait .undo
                | some s'' => done s''
              else done s'
        let p := s.poolAt h
        if p.head != 0 then s.poolAccess p.head fun s e => s.poolLink h false e take else take s

def poolputOp (s : State) (a b : Reg) (sc : Stall) : State :=
  s.gate [.w a, .w b] [] fun s =>
    let x := s.rd a
    let desc := s.rd b
    let done := fun (s : State) => ((s.useTagged [a, b]).popPorts [a, b]).retire sc
    if desc.toNat % 64 != 0 then s.trapAlign desc 64
    else s.poolAccess desc fun s h =>
      let p := s.poolAt h
      if !p.headerOk then s.trapProt desc
      else if !p.holds x then s.trapProt x
      else s.poolAccess x fun s e =>
        if s.ordered then
          done (s.onSpec s.cx.task.uid fun y => { y with held := y.held ++ [.poolput x desc] })
        else if s.ownPending then s.wait .store
        else s.poolOwn h fun s => s.poolLink h true e fun s =>
          match s.poolPut (dieOf s.here) s.cx.task.lq s.cx.task.blk desc x with
          | .inr f => s.trapFail f
          | .inl s => done ((s.ageElements e 8 none).ageElements h 64 none)

/-- CRADD (R368, R369). -/
def craddOp (s : State) (a b : Reg) (sc : Stall) : State :=
  s.gate [.w a, .w b] [] fun s =>
    let va := s.rd a
    let x := s.rd b
    let done := fun (s : State) => ((s.useTagged [a, b]).popPorts [a, b]).retire sc
    match s.commRange s.cx.task.lq va with
    | none => s.trapProt va
    | some r =>
      if va.toNat % CrFmt.bytes r.fmt != 0 then s.trapAlign va (CrFmt.bytes r.fmt)
      else s.checkAccess .run va .add fun s loc _ =>
        if s.ordered then
          done (s.onSpec s.cx.task.uid fun y => { y with held := y.held ++ [.cradd va x] })
        else match loc with
          | .scr _ _ => s.trapProt va
          | .mem pa =>
            if s.ownOverlap loc (CrFmt.bytes r.fmt) then s.wait .store
            else match (s.ageElements loc (CrFmt.bytes r.fmt) none).craddAt (dieOf s.here) pa r.fmt x with
            | none => (s.enterF (pa / 64) none).wait .line
            | some s => done s

end State

/-- CRDECL.d (R370). -/
def execCrdeclD (a b : Reg) (sc : Stall) (s : State) : Result := .next (s.crdecl .i64 a b sc)
/-- CRDECL.f32 (R370). -/
def execCrdeclF32 (a b : Reg) (sc : Stall) (s : State) : Result := .next (s.crdecl .f32 a b sc)
/-- CRDECL.f64 (R370). -/
def execCrdeclF64 (a b : Reg) (sc : Stall) (s : State) : Result := .next (s.crdecl .f64 a b sc)
/-- CRADD (R368). -/
def execCradd (a b : Reg) (sc : Stall) (s : State) : Result := .next (s.craddOp a b sc)
/-- POOLGET (R427): exhaustion traps with d unchanged. -/
def execPoolget (d a : Reg) (sc : Stall) (s : State) : Result := .next (s.poolgetOp false d a sc)
/-- POOLGET.NF (R427): 0 when the pool is empty. -/
def execPoolgetNf (d a : Reg) (sc : Stall) (s : State) : Result := .next (s.poolgetOp true d a sc)
/-- POOLPUT (R427): held to commit in an ordered task. -/
def execPoolput (a b : Reg) (sc : Stall) (s : State) : Result := .next (s.poolputOp a b sc)

/-- The declaration of a range comes into force at every L2 slice (R371). -/
def execCrdeclInForce (lq base : Nat) (s : State) : Result := .next (s.crdeclDone lq base)

end Sys2Proof.Machine
end

