-- ==== Sys2Proof/Machine/Engine.lean ====
section
/-!
DEFINITION. Engine commands: their accesses (R227, R245, R255, R273), issue and its checks (R245..R248), tickets with their
registration and promise (R250..R252), and how a command ends (R251, R253, R255, R444).
-/
namespace Sys2Proof.Machine

/-- Why an engine stops within a unit: the cause of a fault (R255), or an access that has to wait: for anything, for a line of
which some copy cannot be taken away at once (R241), for an answer of another package (R301). -/
inductive EngStop
  | fault (cause : Nat)
  | wait
  | ask (line : Nat) (die : Option Nat)
  | away (va : Word)
deriving DecidableEq, Repr

/-- The stop is a wait. -/
def EngStop.waits : EngStop → Bool
  | .fault _ => false
  | .wait | .ask _ _ | .away _ => true

/-- A step of an engine: it reads and changes the state and may stop. -/
abbrev Eng (α : Type) := ExceptT EngStop (StateM State) α

/-- How a command's run ends: performed, faulted at an element, or stopped by an access that waits, in the state it has come to. -/
inductive EngEnd
  | done (s : State)
  | fault (s : State) (cause index : Nat)
  | wait (s : State) (why : EngStop)
deriving DecidableEq, Repr

/-- A stop at a unit. -/
def EngStop.at_ (index : Nat) (s : State) : EngStop → EngEnd
  | .fault c => .fault s c index
  | why => .wait s why

/-- Run the units of a command in order; a fault names the unit it met. -/
def runUnits : List (Eng Unit) → Nat → State → EngEnd
  | [], _, s => .done s
  | u :: us, i, s => match u.run.run s with
    | (.ok _, s') => runUnits us (i + 1) s'
    | (.error why, s') => why.at_ i s'

namespace State

/-- A command that waits is performed whole, later: of what this run did, the pages brought Resident stay so (R56, R165). -/
def keepPages (s : State) (c : Cmd) (after : State) : State :=
  let new := (after.block c.blk).pages.filter fun (p, x) => x.st == .framed && (s.page c.blk p).st != .framed
  new.foldl (fun s (p, _) =>
    if s.overBudget c.lq 1 then s
    else match ((s.charge c.lq 1).wakeSystem (s.blockTile c.blk)).bringIn c.blk p with
      | some s => s
      | none => s) s

/-- What a waiting access leaves: the home of the line is in F (R241), or the request to another package is on its way (R301). -/
def engHeld (s : State) (t entry : Nat) : EngStop → State
  | .fault _ | .wait => s
  | .ask line die => s.enterF line die
  | .away va => s.onTile t fun x => match x.cmds.get? entry with
    | none => x
    | some c =>
      { x with cmds := x.cmds.set entry { c with asked := (c.asked.filter fun a => a.1 == va).or (some (va, s.cycle)) } }

/-- A walk for an engine: the lines of the tables that its die may hold become readable there (R157, R237, R295). -/
def engLook (die : Nat) : Look := fun s line =>
  if isDevice (64 * line) || (s.cxlOn && isHostMem (64 * line)) then
    match s.shareNow die line with
    | some s => (s, true)
    | none => (s, false)
  else (s, true)

end State

/-! ## Accesses -/

/-- A span cut at line boundaries. -/
def chunks : Nat → Word → Nat → List (Word × Nat)
  | 0, _, _ => []
  | k + 1, va, n =>
    if n == 0 then []
    else
      let m := min n (64 - va.toNat % 64)
      (va, m) :: chunks k (va + BitVec.ofNat 64 m) (n - m)

def chunksOf (va : Word) (n : Nat) : List (Word × Nat) := chunks (n / 64 + 2) va n

/-- The place of one chunk, checked as it is performed (R255); a page that is not Resident is brought in under the launch's Peat
budget (R56), and a Remote one moves to the front of the pull order (R168). -/
def engPlace (t : Nat) (c : Cmd) (va : Word) (write : Bool) : Eng (Loc × Nat) := do
  let s ← get
  match vclass va with
  | .nonCanonical => throw (.fault 0x06)
  | .scratch off =>
    if 2048 * (s.launch c.lq).sppages ≤ off || off < (s.block c.blk).xb then throw (.fault 0x03)
    let p := off / 2048
    let x := s.page c.blk p
    if x.lock then throw .wait
    if x.st != .framed then
      match s.pageFail c.blk p with
      | some f => throw (.fault f.cause)
      | none =>
        if s.overBudget c.lq 1 then throw .wait
        match (s.wakeSystem (s.blockTile c.blk)).bringIn c.blk p with
        | none => throw .wait
        | some s => set (s.charge c.lq 1)
    let s ← get
    if s.frameIsBad c.blk p then throw (.fault 0x0F)
    set ((s.touchPage c.blk p).wakeTile (s.page c.blk p).tile)
    return (.scr c.blk off, 0)
  | .memory =>
    match s.translate (State.engLook (dieOf t)) t c.asid va with
    | (_, none) => throw .wait
    | (_, some (.fault _)) => throw (.fault 0x06)
    | (_, some (.poison _)) => throw (.fault 0x0F)
    | (s, some (.ok pa mt rd w)) =>
      if (write && !w) || (!write && !rd) || (isCauseway pa && (s.window pa).isNone) then throw (.fault 0x03)
      if s.poisoned pa then throw (.fault 0x0F)
      set s
      return (.mem pa, mt)

/-- Another package does not answer an engine's access: once 100 µs have passed the command faults (R255, R301). -/
def engAway (c : Cmd) (va : Word) : Eng Unit := do
  let s ← get
  if s.choose 2 == 1 then
    if c.asked.any fun a => a.1 == va && a.2 + 10 * s.period ≤ s.cycle then throw (.fault 0x0F) else throw (.away va)

/-- An engine's read of one chunk (R184, R209, R234, R237, R273). -/
def engReadChunk (t : Nat) (c : Cmd) (va : Word) (n : Nat) : Eng (List Byte) := do
  let (loc, mt) ← engPlace t c va false
  let s ← get
  match loc with
  | .scr b off =>
    match s.resolve .free false loc n with
    | none => throw .wait
    | some (s, _) => set s; return s.frameRead b off n
  | .mem pa =>
    if isCauseway pa then
      engAway c va
      let dest := s.outTarget pa false
      set (s.sendAway (dest.1.getD 0, dest.2) [])
      return (List.range n).map (Config.remoteByte s.fresh)
    else
      match s.resolve .free false loc n with
      | none => throw .wait
      | some (s, _) =>
        if mt == 3 then
          set s
          return s.windowBytes (pa - regBase) n
        else if mt == 2 then
          set s
          return s.bytesAt pa n
        else match s.shareNow (dieOf t) (pa / 64) with
          | none => throw .wait
          | some s =>
            set s
            return s.dieBytes (dieOf t) pa n

/-- An engine's write of one chunk: performed at .pkg scope (R227), into a private copy in a publication region (R234). -/
def engWriteChunk (t : Nat) (c : Cmd) (va : Word) (bs : List Byte) : Eng Unit := do
  let (loc, mt) ← engPlace t c va true
  let s ← get
  match loc with
  | .scr b off =>
    match s.resolve .free true loc bs.length with
    | none => throw .wait
    | some (s, reps) => set ((s.frameWrite b off bs).requestRepairs reps)
  | .mem pa =>
    if isCauseway pa then
      engAway c va
      let dest := s.outTarget pa false
      set (s.sendAway (dest.1.getD 0, dest.2) bs)
    else match s.resolve .free true loc bs.length with
      | none => throw .wait
      | some (s, reps) =>
        match (if mt == 0 || mt == 1 then s.pubRegion c.lq va else none) with
        | some r => set ((s.privWrite (dieOf t) c.lq r.desc (State.addresses pa bs)).requestRepairs reps)
        | none =>
          if mt == 3 then set ((s.windowStore (pa - regBase) bs).requestRepairs reps)
          else if mt == 2 then set (((s.writeAt none pa bs).noteHost pa bs).requestRepairs reps)
          else match s.ownNow (dieOf t) (pa / 64) with
            | none => throw (.ask (pa / 64) (some (dieOf t)))
            | some s => set ((s.writeAt none pa bs).requestRepairs reps)

def engReads (t : Nat) (c : Cmd) : List (Word × Nat) → Eng (List Byte)
  | [] => return []
  | (va, n) :: rest => do
    let x ← engReadChunk t c va n
    let y ← engReads t c rest
    return x ++ y

/-- n bytes at a virtual address. -/
def engRead (t : Nat) (c : Cmd) (va : Word) (n : Nat) : Eng (List Byte) := engReads t c (chunksOf va n)

def engWrites (t : Nat) (c : Cmd) : List (Word × Nat) → List Byte → Eng Unit
  | [], _ => return ()
  | (va, n) :: rest, bs => do
    engWriteChunk t c va (bs.take n)
    engWrites t c rest (bs.drop n)

def engWrite (t : Nat) (c : Cmd) (va : Word) (bs : List Byte) : Eng Unit := engWrites t c (chunksOf va bs.length) bs

/-- A little-endian number. -/
def engNat (t : Nat) (c : Cmd) (va : Word) (n : Nat) : Eng Nat := do
  let bs ← engRead t c va n
  return leNat bs

/-- What a run of n bytes on a memory side meets (R365, R421): protection where it reaches the scratchpad window, address
translation at a non-canonical address. -/
def leavesMemory (va : Word) (n : Nat) : Option Nat :=
  match vclass va with
  | .scratch _ => some 0x03
  | .nonCanonical => some 0x06
  | .memory =>
    if (BitVec.ofNat 64 (2 ^ 64 - 2 ^ 24) - va).toNat < n then some 0x03
    else if (BitVec.ofNat 64 (2 ^ 56) - va).toNat < n then some 0x06
    else none

/-- A run of a side whose first byte is at `first`: the whole side is of that byte's class (R365, R421); a scratchpad side
has been checked at issue (R247). -/
def engRun (first va : Word) (n : Nat) : Eng Unit := do
  if vclass first == .memory then
    match leavesMemory va n with
    | some cause => throw (.fault cause)
    | none => return ()

/-! ## Kinds and promises -/

inductive EngKind | reedbed | heron | lode | page
deriving DecidableEq, Repr

def CmdOp.kind : CmdOp → EngKind
  | .mlease | .mrel | .mfmt | .mgeo | .mloadw | .mswap | .mstream | .mdrain => .reedbed
  | .gather | .scatter | .scatterAdd | .hld | .hst => .heron
  | .cpy | .cpy2 | .cpy3 => .lode
  | .spmap | .spfree | .sppin | .spunpin | .spmig | .spflush => .page

/-- A ticket (R250). -/
def ticketOf (due tile entry gen : Nat) : Word :=
  BitVec.ofNat 64 (due % 2 ^ 32 * 2 ^ 32 + tile * 2 ^ 20 + entry * 2 ^ 10 + gen % 256 * 4 + 1)

def ceilDiv (a b : Nat) : Nat := (a + b - 1) / b

/-- Runs of a Lode command: n1 and n2 (R365). -/
def lodeCounts (op : CmdOp) (params : List Word) : Nat × Nat :=
  let cnt := params.getD 3 0
  match op with
  | .cpy => (1, 1)
  | .cpy2 => (bits cnt 0 32, 1)
  | _ => (bits cnt 0 32, bits cnt 32 32)
def lodeLen (params : List Word) : Nat := bits (params.getD 0 0) 0 32

/-- Fields of hctl (R269) and of a handle's dwords (R265). -/
def hctlCount (x : Word) : Nat := bits x 16 17
def hctlRow (x : Word) : Nat := bits x 0 10
def handleDword (h : Line) (i : Nat) : Word := BitVec.ofNat 64 (elem h 64 i)
def handleGrow (h : Line) : Nat := bits (handleDword h 7) 32 10
def handleCols (h : Line) : Nat := bits (handleDword h 1) 32 32
def handleVfmt (h : Line) : Nat := bits (handleDword h 0) 8 4
/-- Bytes of a row in the dense image (R405). -/
def handlePitch (h : Line) : Nat := ceilDiv (ceilDiv (handleCols h * vcvtWidth (handleVfmt h)) 8) 8 * 8

namespace State

/-- The tasks that hold or have requested the tile's lease, in the order in which it serves them: the one that has been granted,
then the requests (R257). -/
def leaseTasks (s : State) (t : Nat) : List Nat :=
  let k := s.cluster (clusterOf t)
  let all := (k.holder.toList ++ k.leaseQ).filter fun l => l.tile == t
  ((all.filter fun l => l.granted) ++ all.filter fun l => !l.granted).map fun l => l.uid

/-- The Reedbed commands of a tile that are performed before a task's command of number `seq`: those of the leases before its
own, and its task's earlier ones (R257, R264). -/
def reedBefore (s : State) (t uid seq : Nat) : List Cmd :=
  let cmds := (s.cmdsOf t).filter fun c => CmdOp.kind c.op == .reedbed
  (((s.leaseTasks t).takeWhile fun u => u != uid).flatMap fun u => cmds.filter fun c => c.uid == u)
    ++ cmds.filter fun c => c.uid == uid && c.seq < seq

end State

/-- What a Reedbed command finds when it is performed: the format context and the planes (R258, R262..R264). -/
structure ReedView where
  fmt    : Word
  scale  : Word
  k      : Nat
  n      : Nat
  active : Plane
  shadow : Plane
deriving DecidableEq, Repr

/-- The view after one more command of the tile. -/
def ReedView.after (v : ReedView) (t : Nat) (c : Cmd) : ReedView :=
  match c.op with
  | .mfmt => { v with fmt := c.a, scale := c.b }
  | .mgeo => { v with k := bits c.a 0 7 + 1, n := bits c.a 8 7 + 1 }
  | .mloadw =>
    { v with shadow := { v.shadow with
        loaded := true, tile := t, wfmt := bits v.fmt 12 4, afmt := bits v.fmt 8 4, wsc := bit v.fmt 1, asc := bit v.fmt 0,
        k := v.k, n := v.n } }
  | .mswap => { v with active := v.shadow, shadow := v.active }
  | _ => v

namespace State

/-- What a task's command of number `seq` will find, as far as the tile's own commands decide it (R263, R264). -/
def reedView (s : State) (t uid seq : Nat) : ReedView :=
  let x := s.tile t
  let k := s.cluster (clusterOf t)
  (s.reedBefore t uid seq).foldl (fun v c => v.after t c)
    { fmt := x.fmtWord, scale := x.scaleAddr, k := x.geoK, n := x.geoN, active := k.active, shadow := k.shadow }

/-- The promise (R252), a Reedbed command's at the rate of the mode in force (R305): under mode 2 every format makes one MAC
every two cycles (R304). The bytes of a row of HLD and HST are those of its image, pads with them (DESIGN CHOICE, log 95). -/
def promise (s : State) (t : Nat) (c : Cmd) : Nat :=
  let last := ((s.tile t).cmds.vals.filter fun x => x.registered && CmdOp.kind x.op == CmdOp.kind c.op).foldl (fun m x => max m x.due) c.issued
  let view := s.reedView t c.uid c.seq
  let wfmt := view.active.wfmt
  let afmt := view.active.afmt
  let rows := c.b.toNat
  let streamed := if s.modeNow.getD (quadrantOf t) 0 == 2 || wfmt == 2 || afmt == 2 then 2 * rows else if wfmt == 7 || (wfmt == 6 && afmt == 6) then (rows + 1) / 2 else rows
  let heronRows := match c.handle with | some _ => 64 | none => hctlCount (c.params.getD 2 0)
  let heronRow := match c.op, c.handle with
    | .hld, some h => handlePitch h
    | .hst, some h => handlePitch h
    | _, some h => 8 * handleGrow h
    | _, none => 8 * hctlRow (c.params.getD 2 0)
  let (n1, n2) := lodeCounts c.op c.params
  let pages := ceilDiv (if c.op == .sppin && bit c.b 63 then bits c.b 0 32 else c.b.toNat) 8
  let d := match c.op with
    | .mlease => c.issued + 64
    | .mfmt | .mgeo | .mswap | .mdrain | .mrel => last + 16
    | .mloadw => last + 128 + 2 * view.k
    | .mstream => last + 256 + streamed
    | .gather | .scatter | .scatterAdd | .hld | .hst => last + 256 + heronRows * ceilDiv heronRow 64
    | .cpy | .cpy2 | .cpy3 => c.issued + 256 + ceilDiv (lodeLen c.params * n1 * n2) 64
    | .spmap | .spfree | .sppin | .spunpin | .spflush => c.issued + 64 + 256 * pages
    | .spmig => c.issued + 64 + 160 * (c.params.getD 0 0).toNat
  min d (c.issued + 2 ^ 30)

/-! ## The end of a command -/

/-- The contexts whose FWAIT waits on a ticket, by tile and slot. -/
def waitingOn (s : State) (x : Word) : List Nat :=
  (s.ctxs.filter fun e => e.2.status == .waiting .ticket && e.2.waitOn.any fun y =>
    ticketTile y == ticketTile x && ticketEntry y == ticketEntry x && sameTicket y x).map (·.1)

/-- A waiting FWAIT completes: the context goes on, and what its ports hold is fetched again (R229, R386). -/
def ticketSeen (s : State) (k : Nat) : State :=
  let on := { s with cur := k }
  { (on.onCx fun c => { c with waitOn := none }).refetch.proceed with cur := s.cur }

/-- Every FWAIT that waits on a command ends with it, in the same cycle (R388); of those that wait on a faulted one, the lowest
tile and slot observes the fault, at its instruction (R255). -/
def ticketsSeen (s : State) (x : Word) (faulted : Bool) : State :=
  match s.waitingOn x with
  | [] => s
  | k :: ks => if faulted then ks.foldl ticketSeen (s.onCtx k fun c => { c with status := .ready }) else (k :: ks).foldl ticketSeen s

/-- A lease that its task has left is looked at again when a command of the task ends (R257). -/
def leaseCheck (s : State) (t uid : Nat) : State :=
  let k := s.cluster (clusterOf t)
  if (k.holder.toList ++ k.leaseQ).any fun l => l.uid == uid && l.leaving then s.after 0 (.leaseGrant (clusterOf t)) else s

/-- A command leaves its entry: complete, cancelled, or faulted with its cause and element index (R251, R253, R255). Its task's
context has a wake event (R444), its tile wakes (R88), and the FWAITs on it end. -/
def endCmd (s : State) (t entry : Nat) (fault : Option (Nat × Nat)) : State :=
  match (s.tile t).cmds.get? entry with
  | none => s
  | some c =>
    let s := s.onTile t fun x => { x with
      cmds := x.cmds.erase entry
      gens := x.gens.set entry (((x.gens.get? entry).getD 0 + 1) % 256)
      faulted := match fault with
        | some (cause, i) => x.faulted ++ [{ ticket := c.ticket, cause := cause, index := i }]
        | none => x.faulted }
    let s := { s with agenda := s.agenda.filter fun e => e.2 != Event.commandComplete t entry }
    let s := ((s.wakeTile t).ticketsSeen c.ticket fault.isSome).leaseCheck t c.uid
    match s.ctxOf c.uid with
    | some k => s.wakeCtx k
    | none => s

/-- Another command of the tile that overlaps this one's ranges and is older and incomplete (R231). -/
def heldByRange (s : State) (t : Nat) (c : Cmd) : Bool :=
  let clash := fun (a b : LockRange) => (a.write || b.write) && a.scratch == b.scratch && a.space == b.space
    && a.firstLine ≤ b.lastLine && b.firstLine ≤ a.lastLine
  (s.tile t).cmds.any fun (_, o) => o.seq < c.seq && o.ranges.any fun r => c.ranges.any fun q => clash r q

/-! ## Issue -/

/-- The lines of a span under the captured view (R230). -/
def lockRange (s : State) (va : Word) (n : Nat) (write : Bool) : LockRange :=
  match vclass va with
  | .scratch off => { scratch := true, space := s.cx.task.blk, firstLine := off / 64, lastLine := (off + n - 1) / 64, write := write }
  | .memory | .nonCanonical =>
    { scratch := false, space := s.asid, firstLine := va.toNat / 64, lastLine := (va.toNat + n - 1) / 64, write := write }

/-- A scratchpad span lies in the window, at or above xb and below 2,048·sppages (R247 check 4); spans as signed offsets
from `off`. -/
def spanOk (s : State) (off : Nat) (lo hi : Int) : Bool :=
  decide ((s.myBlock.xb : Int) ≤ off + lo) && decide ((off : Int) + hi ≤ 2048 * s.myLaunch.sppages)

/-- The lowest free entry of a tile's completion table. -/
def freeEntry (x : TileS) : Option Nat := leastFree x.cmds.keys 0 1024

/-- A command as it is captured at issue (R245), with the ticket that it would register now; registration writes the one
that counts (R251; log 67). -/
def capture (s : State) (op : CmdOp) (e : BitVec 3) (a b : Word) (params : List Word) (handle : Option Line) (entry : Nat)
    (ranges : List LockRange) : Cmd :=
  let x := s.tile s.here
  let c : Cmd :=
    { op := op, a := a, b := b, params := params, handle := handle, asid := s.asid, blk := s.cx.task.blk, lq := s.cx.task.lq,
      uid := s.cx.task.uid, slot := s.slot, treg := e, ticket := 0, issued := s.cycle, due := 0, gen := (x.gens.get? entry).getD 0,
      seq := x.cmdSeq, registered := false, asked := none, cancel := none, missed := false, ranges := ranges }
  { c with ticket := ticketOf (s.promise s.here c) s.here entry c.gen }

/-- Under the reduced service Lode is the only engine (R308). -/
def absentEngine (s : State) (op : CmdOp) : Bool := !s.full && (CmdOp.kind op == .reedbed || CmdOp.kind op == .heron)

/-- Issue a checked command, or wait where a table is full (R248): it takes an entry, sets its locks, leaves e empty and
registers four cycles on (R251). `reads` are the scalar registers popped. -/
def issueCmd (s : State) (op : CmdOp) (e : BitVec 3) (reads : List Reg) (a b : Word) (params : List Word) (handle : Option Line)
    (ranges : List LockRange) (sc : Stall) (after : State → State) : State :=
  let t := s.here
  let x := s.tile t
  let lode := x.cmds.vals.filter fun c => CmdOp.kind c.op == .lode
  let locks := (x.cmds.vals.map fun c => c.ranges.length).sum
  if s.absentEngine op then s.trapProt 0
  else match freeEntry x with
  | none => s.wait .resource
  | some entry =>
    if 1280 < locks + ranges.length || (CmdOp.kind op == .lode && 512 ≤ lode.length) then s.wait .resource
    else
      let c := s.capture op e a b params handle entry ranges
      let s := (s.useTagged reads).popPorts reads
      let s := s.onTile t fun x => { x with cmds := x.cmds.set entry c, cmdSeq := x.cmdSeq + 1 }
      let s := (s.onCx fun c => { c with results := c.results ++ [{ reg := .e e, val := 0 }] }).afterOn t 4 (.ticketRegister t entry)
      (after s).retire sc

/-- A command that completes at issue: a complete ticket, written four cycles on with the promise that it then has, and no range
(R248, R251, R252, R365). -/
def issueDone (s : State) (op : CmdOp) (e : BitVec 3) (reads : List Reg) (a b : Word) (params : List Word) (handle : Option Line)
    (sc : Stall) : State :=
  let t := s.here
  if s.absentEngine op then s.trapProt 0
  else match freeEntry (s.tile t) with
  | none => s.wait .resource
  | some entry =>
    let c := s.capture op e a b params handle entry []
    let s := (s.useTagged reads).popPorts reads
    let s := s.onTile t fun x => { x with gens := x.gens.set entry ((c.gen + 1) % 256), cmdSeq := x.cmdSeq + 1 }
    let s := match s.ctxOf c.uid with | some k => s.onCtx k fun d => { d with wake := true } | none => s
    ((s.onCx fun c => { c with results := c.results ++ [{ reg := .e e, val := 0 }] }).afterOn t 4 (.doneTicket t entry c)).retire sc

/-- A ticket register takes its ticket, in whatever workspace the task then has (R68, R251). -/
def takeTicket (s : State) (c : Cmd) (ticket : Word) : State := s.landValue c.uid (.e c.treg) (some (ticket.setWidth 512))

/-- The ticket of a command that was complete at issue is written (R251). -/
def ticketDone (s : State) (t entry : Nat) (c : Cmd) : State := s.takeTicket c (ticketOf (s.promise t c) t entry c.gen)

/-- The ticket is written at registration, and the engine takes the command (R251, R252). -/
def register (s : State) (t entry : Nat) : State :=
  match (s.tile t).cmds.get? entry with
  | none => s
  | some c =>
    if c.registered then s
    else
      let due := s.promise t c
      let ticket := ticketOf due t entry c.gen
      let s := s.onTile t fun x => { x with cmds := x.cmds.set entry { c with registered := true, due := due, ticket := ticket } }
      let s := s.takeTicket c ticket
      let s := if c.op == .mlease then s.later (.leaseGrant (clusterOf t)) else s
      s.later (.commandComplete t entry)

end State

/-- The ticket of a command complete at issue is written (R251). -/
def execDoneTicket (tile entry : Nat) (cmd : Cmd) (s : State) : Result := .next (s.ticketDone tile entry cmd)
/-- A command registers (R251). -/
def execTicketRegister (tile entry : Nat) (s : State) : Result := .next (s.register tile entry)

end Sys2Proof.Machine
end

