-- ==== Sys2Proof/Machine/Lode.lean ====
section
/-!
DEFINITION. Lode: the copy commands (R271, R272, R364..R367).
-/
namespace Sys2Proof.Machine

/-- The runs of a copy: offsets from source and destination, in ascending (m, j) (R365). -/
def lodeRuns (op : CmdOp) (params : List Word) : List (Int × Int) :=
  let (n1, n2) := lodeCounts op params
  let str := fun (i : Nat) => (params.getD i 0).toInt
  (List.range n2).flatMap fun (m : Nat) => (List.range n1).map fun (j : Nat) =>
    (Int.ofNat m * str 4 + Int.ofNat j * str 1, Int.ofNat m * str 5 + Int.ofNat j * str 2)

/-- The least and the greatest of the corner offsets m·s2 + j·s1 of a rectangle of runs. -/
def corners (s1 s2 : Int) (n1 n2 : Nat) : Int × Int :=
  let e1 := ((n1 : Int) - 1) * s1
  let e2 := ((n2 : Int) - 1) * s2
  (min 0 e1 + min 0 e2, max 0 e1 + max 0 e2)

/-- A copy: the source bytes as they stood when the command began, then the runs in order (R365, R272). -/
def lodePlan (t : Nat) (c : Cmd) : Eng (List (Eng Unit)) := do
  let len := lodeLen c.params
  let s ← get
  let runs := lodeRuns c.op c.params
  -- each run's bytes before any is written; a read that faults faults at its own run, and no later one is read
  let step := fun (acc : State × List (Except EngStop (List Byte))) (r : Int × Int) =>
    match acc.2.getLast? with
    | some (.error _) => acc
    | some (.ok _) | none =>
      let va := c.b + BitVec.ofInt 64 r.1
      let (x, s') := (engRun c.b va len >>= fun _ => engRead t c va len).run.run acc.1
      (s', acc.2 ++ [x])
  let (s', data) := runs.foldl step (s, [])
  set s'
  match data.getLast? with
  | some (.error why) => if why.waits then throw why
  | some (.ok _) | none => pure ()
  return (runs.zip data).map fun (r, d) =>
    match d with
    | .error e => throw e
    | .ok bs => do
      let va := c.a + BitVec.ofInt 64 r.2
      engRun c.a va len
      engWrite t c va bs

namespace State

/-- One side of a copy: refused, or its range (R247, R273, R365). -/
def lodeSide (s : State) (va : Word) (len : Nat) (lo hi : Int) (write : Bool) : Option LockRange :=
  match vclass va with
  | .scratch off =>
    if s.spanOk off lo (hi + len) then some (s.lockRange (va + BitVec.ofInt 64 lo) ((hi - lo).toNat + len) write) else none
  | .memory | .nonCanonical => some (s.lockRange (va + BitVec.ofInt 64 lo) ((hi - lo).toNat + len) write)

/-- CPY, CPY2 and CPY3 at issue (R364..R366). -/
def lodeIssue (s : State) (op : CmdOp) (e : BitVec 3) (a b : Reg) (set_ : BitVec 3) (sc : Stall) : State :=
  if s.ordered then s.trapIllegal
  else s.gate [.w a, .w b] [.e e] fun s =>
    let dst := s.rd a
    let src := s.rd b
    let params := (s.tile s.here).lode[set_.toNat].toList
    let len := lodeLen params
    let (n1, n2) := lodeCounts op params
    let str := fun (i : Nat) => (params.getD i 0).toInt
    let one := match op with | .cpy => true | _ => false
    let three := match op with | .cpy3 => true | _ => false
    let src2 := corners (if one then 0 else str 1) (if three then str 4 else 0) n1 n2
    let dst2 := corners (if one then 0 else str 2) (if three then str 5 else 0) n1 n2
    if len == 0 || n1 == 0 || n2 == 0 then s.issueDone op e [a, b] dst src params none sc
    else match s.lodeSide src len src2.1 src2.2 false, s.lodeSide dst len dst2.1 dst2.2 true with
      | none, _ => s.trapProt src
      | some _, none => s.trapProt dst
      | some r, some w => s.issueCmd op e [a, b] dst src params none [r, w] sc id

end State

/-- CPY (R365). -/
def execCpy (e : BitVec 3) (a b : Reg) (set : BitVec 3) (sc : Stall) (s : State) : Result :=
  .next (s.lodeIssue .cpy e a b set sc)
/-- CPY2 (R365). -/
def execCpy2 (e : BitVec 3) (a b : Reg) (set : BitVec 3) (sc : Stall) (s : State) : Result :=
  .next (s.lodeIssue .cpy2 e a b set sc)
/-- CPY3 (R365). -/
def execCpy3 (e : BitVec 3) (a b : Reg) (set : BitVec 3) (sc : Stall) (s : State) : Result :=
  .next (s.lodeIssue .cpy3 e a b set sc)

end Sys2Proof.Machine
end

