-- ==== Sys2Proof/Machine/FloatOps.lean ====
section
/-!
DEFINITION. Scalar floating point (R127, R133..R137, R381..R398) and the wide accumulator (R144..R148, R491..R493).
-/
namespace Sys2Proof.Machine

def FSize.fmt : FSize → FFmt
  | .f64 => fp64
  | .f32 => fp32

/-- FpIn of R378: the low bits at the format's width, as a pattern. -/
def fpIn (f : FFmt) (x : Word) : Nat := x.toNat % 2 ^ f.width
/-- FpOut of R378. -/
def fpOut (p : Nat) : Word := BitVec.ofNat 64 p

namespace State

/-- One FP result from two operands as exact values under psw.rm. -/
def fpOp2 (s : State) (z : FSize) (d a b : Reg) (lat : Latency) (sc : Stall) (f : FFmt → Nat → FVal → FVal → Nat) : State :=
  let m := FSize.fmt z
  s.scalarOp [a, b] d lat sc fun s => fpOut (f m (pswRm s.cx.psw) (m.decode (fpIn m (s.rd a))) (m.decode (fpIn m (s.rd b))))

/-- One result from the pattern of one FP operand. -/
def fpBits (s : State) (z : FSize) (d a : Reg) (sc : Stall) (f : FFmt → Nat → Nat) : State :=
  s.scalarOp [a] d (.fixed 8) sc fun s => fpOut (f (FSize.fmt z) (fpIn (FSize.fmt z) (s.rd a)))

/-- A fused operation: d is the addend and the destination (R395). -/
def fmaOp (s : State) (z : FSize) (d a b : Reg) (sc : Stall) (f : Nat → FVal → FVal → FVal → FVal) : State :=
  let m := FSize.fmt z
  s.scalarOp [a, b, d] d (.fixed 8) sc fun s =>
    fpOut (m.ofVal (pswRm s.cx.psw) (f (pswRm s.cx.psw) (m.decode (fpIn m (s.rd a))) (m.decode (fpIn m (s.rd b)))
      (m.decode (fpIn m (s.rd d)))))

end State

/-- FADD (R383). -/
def execFadd (f : FSize) (d a b : Reg) (sc : Stall) (s : State) : Result :=
  .next (s.fpOp2 f d a b (.fixed 8) sc fun m rm x y => m.ofVal rm (FVal.add rm x y))
/-- FSUB (R383). -/
def execFsub (f : FSize) (d a b : Reg) (sc : Stall) (s : State) : Result :=
  .next (s.fpOp2 f d a b (.fixed 8) sc fun m rm x y => m.ofVal rm (FVal.sub rm x y))
/-- FMUL (R383). -/
def execFmul (f : FSize) (d a b : Reg) (sc : Stall) (s : State) : Result :=
  .next (s.fpOp2 f d a b (.fixed 8) sc fun m rm x y => m.ofVal rm (FVal.mul x y))
/-- FDIV (R383): latency 24. -/
def execFdiv (f : FSize) (d a b : Reg) (sc : Stall) (s : State) : Result :=
  .next (s.fpOp2 f d a b (.fixed 24) sc fun m rm x y => m.div rm x y)
/-- FSQRT (R398): latency 24. -/
def execFsqrt (f : FSize) (d a : Reg) (sc : Stall) (s : State) : Result :=
  .next (s.scalarOp [a] d (.fixed 24) sc fun s =>
    fpOut ((FSize.fmt f).sqrt (pswRm s.cx.psw) ((FSize.fmt f).decode (fpIn (FSize.fmt f) (s.rd a)))))
/-- FMIN (R396). -/
def execFmin (f : FSize) (d a b : Reg) (sc : Stall) (s : State) : Result :=
  .next (s.scalarOp [a, b] d (.fixed 8) sc fun s =>
    fpOut ((FSize.fmt f).minMax false (fpIn (FSize.fmt f) (s.rd a)) (fpIn (FSize.fmt f) (s.rd b))))
/-- FMAX (R396). -/
def execFmax (f : FSize) (d a b : Reg) (sc : Stall) (s : State) : Result :=
  .next (s.scalarOp [a, b] d (.fixed 8) sc fun s =>
    fpOut ((FSize.fmt f).minMax true (fpIn (FSize.fmt f) (s.rd a)) (fpIn (FSize.fmt f) (s.rd b))))
/-- FMADD (R395). -/
def execFmadd (f : FSize) (d a b : Reg) (sc : Stall) (s : State) : Result :=
  .next (s.fmaOp f d a b sc fun rm x y z => FVal.fma rm x y z)
/-- FMSUB (R395). -/
def execFmsub (f : FSize) (d a b : Reg) (sc : Stall) (s : State) : Result :=
  .next (s.fmaOp f d a b sc fun rm x y z => FVal.fma rm x y z.neg)
/-- FNMADD (R395): z − x·y. -/
def execFnmadd (f : FSize) (d a b : Reg) (sc : Stall) (s : State) : Result :=
  .next (s.fmaOp f d a b sc fun rm x y z => FVal.add rm z (FVal.mul x y).neg)
/-- FEQ (R394). -/
def execFeq (f : FSize) (d a b : Reg) (sc : Stall) (s : State) : Result :=
  .next (s.fpOp2 f d a b (.fixed 8) sc fun _ _ x y => (FVal.eq x y).toNat)
/-- FLT (R394). -/
def execFlt (f : FSize) (d a b : Reg) (sc : Stall) (s : State) : Result :=
  .next (s.fpOp2 f d a b (.fixed 8) sc fun _ _ x y => (FVal.lt x y).toNat)
/-- FLE (R394). -/
def execFle (f : FSize) (d a b : Reg) (sc : Stall) (s : State) : Result :=
  .next (s.fpOp2 f d a b (.fixed 8) sc fun _ _ x y => (FVal.le x y).toNat)
/-- FCLASS (R389). -/
def execFclass (f : FSize) (d a : Reg) (sc : Stall) (s : State) : Result :=
  .next (s.fpBits f d a sc fun m p => 2 ^ m.classBit p)
/-- FNEG (R381): the sign bit alone. -/
def execFneg (f : FSize) (d a : Reg) (sc : Stall) (s : State) : Result :=
  .next (s.fpBits f d a sc fun m p => p ^^^ 2 ^ (m.width - 1))
/-- FABS (R381): the sign bit alone. -/
def execFabs (f : FSize) (d a : Reg) (sc : Stall) (s : State) : Result :=
  .next (s.fpBits f d a sc fun m p => p % 2 ^ (m.width - 1))
/-- FCVT (R391). -/
def execFcvt (dst src : BitVec 3) (d a : Reg) (sc : Stall) (s : State) : Result :=
  .next (s.scalarOp [a] d (.fixed 8) sc fun s => fcvtBits (pswRm s.cx.psw) dst.toNat src.toNat (s.rd a))

/-! ## The wide accumulator -/

namespace State

/-- Resolve an access that touches several places, each with its length: none when one of them must wait. -/
def resolveEach (s : State) (who : Party) (store : Bool) : List (Loc × Nat) → Option (State × List Nat)
  | [] => some (s, [])
  | (x, n) :: rest =>
    match s.resolve who store x n with
    | none => none
    | some (s, r) => match s.resolveEach who store rest with
      | none => none
      | some (s, r') => some (s, r ++ r')

/-- Log the old value of each dword an ordered task is about to change (R188). -/
def logEach (s : State) (uid : Nat) : List (Word × Loc) → Option State
  | [] => some s
  | (va, x) :: rest => match s.logWrite uid va x 8 with
    | none => none
    | some s => s.logEach uid rest

/-- The checks of R493 over the 536 bytes, page by page and line by line. -/
def checkAcc (s : State) (base : Word) (write : Bool) (k : State → Nat → State) : State :=
  let last := base + 535
  match vclass base, vclass last with
  | .scratch off, .scratch off' =>
    let b := s.cx.task.blk
    let pages := if off / 2048 == off' / 2048 then [off / 2048] else [off / 2048, off' / 2048]
    let owned := pages.any fun p => (s.ownerOf b p).isSome
    if off' < off || 2048 * s.myLaunch.sppages ≤ off' || off < s.myBlock.xb || (owned && !s.privileged) then s.trapProt base
    else match pages.find? fun p => !(s.pageEntry .run b p).2 with
    | some p => (s.pageEntry .run b p).1.wait .line
    | none => match pages.find? fun p => (s.page b p).lock || (s.page b p).st != .framed with
      | some p =>
        if (s.page b p).lock then s.wait .page
        else match s.pageFail b p with
          | some f => s.trapFail f
          | none => (s.pageFault b p).wait .page
      | none =>
        let lines := (List.range (off' / 64 - off / 64 + 1)).map fun i => 64 * (off / 64 + i)
        match lines.findSome? fun o => s.lockHit s.here s.asid (windowVa o) (.scr b o) write with
        | some c => s.trap 0x07 c.ticket base
        | none =>
          match pages.find? fun p => s.frameIsBad b p with
          | some p => s.trap 0x0F 2 (BitVec.ofNat 64 (s.page b p).tile)
          | none =>
            let s := pages.foldl (fun s p => ((s.stlbFill b p).touchPage b p).wakeTile (s.page b p).tile) s
            k (pages.foldl (fun s p => match s.ownerOf b p with | some o => s.syncOut o | none => s) s) off
  | _, _ => s.trapProt base

def accBytes (s : State) (b off : Nat) : Nat :=
  leNat ((List.range 67).flatMap fun j => s.frameRead b (off + 8 * j) 8)

/-- The pages of an accumulator. -/
def accPages (off : Nat) : List Nat := if off / 2048 == (off + 535) / 2048 then [off / 2048] else [off / 2048, (off + 535) / 2048]

/-- Cycles that a command takes over the mesh from one tile to another: the hops, 60 cycles to another die, and an open amount on a
busy mesh (R25, R147). -/
def meshTime (s : State) (t u : Nat) : Nat :=
  if t == u then 0 else hops t u + (if dieOf t == dieOf u then 0 else 60) + Config.latency s.fresh

/-- An operation from byte `first` to `last` of the running block in the adder of the tile whose frame holds them, where it comes
over the mesh (R147). It starts once the operations that it overlaps have completed, in a cycle in which no other starts, and it
completes n cycles later (R148). The state with the operation, and the cycle in which its result is back. -/
def adderRun (s : State) (least first last n : Nat) : State × Nat :=
  let b := s.cx.task.blk
  let t := (s.page b (first / 2048)).tile
  let way := s.meshTime s.here t
  let live := (s.tile t).adder.filter fun r => s.cycle < r.until_
  let free := (live.filter fun r => r.blk == b && first ≤ r.last && r.first ≤ last).foldl (fun m r => max m r.until_)
    (max (s.cycle + way) least)
  let start := (leastFree (live.map fun r => r.start) free (live.length + 1)).getD free
  let done := start + s.span t n
  let s := s.tick.onTile t fun x => { x with adder := { blk := b, first := first, last := last, start := start, until_ := done } :: live }
  (s.onCx fun c => { c with accDone := max c.accDone done }, done + way)

/-- The dwords that hold a significant bit of an addend (R148). -/
def addendDwords (addend : Int) : List Nat :=
  (List.range 67).filter fun j => addend != 0 && j ≤ (addend.natAbs).log2 / 64 && addend.natAbs % 2 ^ (64 * (j + 1)) != 0

/-- The dwords in which two accumulator values differ. -/
def changedDwords (old new : Nat) : List Nat := (List.range 67).filter fun j => old >>> (64 * j) % 2 ^ 64 != new >>> (64 * j) % 2 ^ 64

/-- What an operation does to the accumulator: its new value, and the dwords that it reads and writes whatever their values. -/
structure AccOp where
  new   : Nat → Nat
  reach : List Nat
  /-- It writes and logs what it reaches even where the value stays the same (R493). -/
  all   : Bool

/-- The dwords that an operation touches and those that it writes, on an accumulator value (R147, R148). -/
def AccOp.touched (f : AccOp) (old : Nat) : List Nat := (List.range 67).filter fun j => f.reach.contains j || (changedDwords old (f.new old)).contains j
def AccOp.written (f : AccOp) (old : Nat) : List Nat := if f.all then f.reach else changedDwords old (f.new old)

/-- The conflicts of an operation: the value it reads is the one that the aborts leave (R147, R186). Each round aborts a task or
ends. -/
def accResolve (off : Nat) (f : AccOp) : Nat → List Nat → State → Option (State × List Nat)
  | 0, _, _ => none
  | n + 1, reps, s =>
    let b := s.cx.task.blk
    let old := s.accBytes b off
    match s.resolveEach s.party true ((f.touched old).map fun j => (Loc.scr b (off + 8 * j), 8)) with
    | none => none
    | some (s, r) => if s.accBytes b off == old then some (s, reps ++ r) else accResolve off f n (reps ++ r) s

/-- The accumulator's dwords are read and written as one access (R147): conflicts, the log, the writes, the signatures, the adder
(R148). `k` is given what is written. -/
def accUpdate (s : State) (off : Nat) (f : AccOp) (k : State → List Nat → State) : State :=
  let b := s.cx.task.blk
  let u := s.cx.task.uid
  let at_ := fun (j : Nat) => Loc.scr b (off + 8 * j)
  if (f.touched (s.accBytes b off)).any fun j => s.ownOverlap (at_ j) 8 then s.wait .store
  else match accResolve off f (s.specs.length + 1) [] s with
    | none => s.wait .speculative
    | some (s, reps) =>
      let old := s.accBytes b off
      let written := f.written old
      if (f.touched old).any fun j => s.ownOverlap (at_ j) 8 then s.wait .store
      else match (if s.ordered then s.logEach u (written.map fun j => (windowVa (off + 8 * j), at_ j)) else some s) with
      | none => s.wait .undo
      | some s =>
        let s := written.foldl (fun s j => s.frameWrite b (off + 8 * j) (leBytes 8 (f.new old >>> (64 * j)))) s
        let s := if s.ordered then (f.touched old).foldl (fun s j =>
          (((s.overlapsSym (at_ j) 8).plainRead (at_ j)).enterRead u (at_ j)).enterWrite u (at_ j)) s else s
        let s := (accPages off).foldl (fun s p => match s.ownerOf b p with | some o => s.syncIn o | none => s) s
        k ((s.ageElements (at_ 0) 536 none).requestRepairs reps) written

/-- WADD and WADDV: an exact addend in units of 2^−2148 (R492), in n cycles and one more for each further dword that a carry or
borrow enters (R148). -/
def accAdd (s : State) (d : Reg) (reads : List Reg) (regs : List RegRef) (sc : Stall) (n : Nat) (carries : Bool) (addend : State → Int) : State :=
  s.gate regs [] fun s =>
    let base := s.rd d
    if base.toNat % 8 != 0 then s.trapAlign base 8
    else s.checkAcc base true fun s off =>
      let x := addend s
      let own := addendDwords x
      s.accUpdate off { new := fun old => wideWrap (wideInt old + x), reach := own, all := false } fun s written =>
        let more := (written.filter fun j => !own.contains j).length
        let span := own ++ written
        let lo := span.foldl min 66
        let hi := span.foldl max 0
        let s := (s.adderRun 0 (off + 8 * lo) (off + 8 * hi + 7) (if carries then n + more else n)).1
        ((s.useTagged reads).popPorts reads).retire sc

/-- WSGN and WRND: all 67 dwords are read (R492), n cycles after the context's earlier operations complete (R148). -/
def accRead (s : State) (d a : Reg) (sc : Stall) (n : Nat) (f : State → Int → Word) : State :=
  s.gate [.w a] [.w d] fun s =>
    let base := s.rd a
    if base.toNat % 8 != 0 then s.trapAlign base 8
    else s.checkAcc base false fun s off =>
      let b := s.cx.task.blk
      let places := (List.range 67).map fun j => Loc.scr b (off + 8 * j)
      if places.any fun x => s.ownOverlap x 8 then s.wait .store
      else match s.resolveEach s.party false (places.map fun x => (x, 8)) with
        | none => s.wait .speculative
        | some (s, _) =>
          let s := if s.ordered then
            places.foldl (fun s x => ((s.overlapsSym x 8).plainRead x).enterRead s.cx.task.uid x) s else s
          let v := f s (wideInt (s.accBytes b off))
          let (s, at_) := s.adderRun s.cx.accDone off (off + 535) n
          (((s.useTagged [a]).popPorts [a]).putW d v 0 (.arrives (at_ - s.cycle))).retire sc

end State

/-- WACLR (R492): every dword becomes 0, and in an ordered task all 67 are logged (R493). -/
def execWaclr (d : Reg) (sc : Stall) (s : State) : Result :=
  .next (s.gate [.w d] [] fun s =>
    let base := s.rd d
    if base.toNat % 8 != 0 then s.trapAlign base 8
    else s.checkAcc base true fun s off =>
      s.accUpdate off { new := fun _ => 0, reach := List.range 67, all := true } fun s _ =>
        (((s.adderRun 0 off (off + 535) 8).1.useTagged [d]).popPorts [d]).retire sc)

/-- WADD (R492): a pair with an infinity or a NaN adds nothing. -/
def execWadd (d a b : Reg) (sc : Stall) (s : State) : Result :=
  .next (s.accAdd d [a, b, d] [.w a, .w b, .w d] sc 12 true fun s =>
    wideProduct (fp64.decode (s.rd a).toNat) (fp64.decode (s.rd b).toNat))

/-- WADDV (R492): the exact sum of eight products. -/
def execWaddv (d : Reg) (va vb : BitVec 4) (sc : Stall) (s : State) : Result :=
  .next (s.accAdd d [d] [.v va, .v vb, .w d] sc 16 false fun s =>
    ((List.range 8).map fun i => wideProduct (fp64.decode (elem (s.rdV va) 64 i)) (fp64.decode (elem (s.rdV vb) 64 i))).sum)

/-- WSGN (R492). -/
def execWsgn (d a : Reg) (sc : Stall) (s : State) : Result :=
  .next (s.accRead d a sc 20 fun _ x => if x < 0 then BitVec.allOnes 64 else if x == 0 then 0 else 1)

/-- WRND (R492). -/
def execWrnd (d a : Reg) (sc : Stall) (s : State) : Result :=
  .next (s.accRead d a sc 28 fun s x => BitVec.ofNat 64 (wideRound (pswRm s.cx.psw) x))

end Sys2Proof.Machine
end

