-- ==== Sys2Proof/Machine/Vector.lean ====
section
/-!
DEFINITION. Vector arithmetic, compares, conversion, permutation, masks and vector memory (R106..R109, R143, R471..R490).
-/
namespace Sys2Proof.Machine

/-! ## Elements -/

def VFmt.fmt : VFmt → FFmt
  | .f64 => fp64 | .f32 => fp32 | .bf16 => fpBf16 | .f16 => fp16

/-- Element width in bits (R471). -/
def ISize.width : ISize → Nat
  | .b => 8 | .h => 16 | .w => 32 | .d => 64

/-- Element i of n = 512/w elements is computed where Sel(i) is 1 and kept elsewhere (R472). -/
def selected (w : Nat) (m : Word) (old : Line) (f : Nat → Nat) : Line :=
  ofElems 512 w ((List.range (512 / w)).map fun i => if bit m i then f i else elem old w i)

/-- The mask a compare writes: 0 where Sel(i) is 0 and above N (R477). -/
def compared (w : Nat) (m : Word) (f : Nat → Bool) : Word :=
  ofElems 64 1 ((List.range (512 / w)).map fun i => (bit m i && f i).toNat)

/-- The tree of R143, one level. -/
def pairUp (op : Nat → Nat → Nat) : List (Option Nat) → List (Option Nat)
  | x :: y :: rest => (match x, y with
      | none, v => v
      | u, none => u
      | some u, some v => some (op u v)) :: pairUp op rest
  | rest => rest

/-- The tree of R143: log2 n levels. -/
def reduceTree (op : Nat → Nat → Nat) : Nat → List (Option Nat) → Option Nat
  | 0, xs => xs.headD none
  | k + 1, xs => reduceTree op k (pairUp op xs)

/-- Reduce (R143): a single selected element is the result as it stands, a NaN with its payload, since no addition, minimum or
maximum is made with it (R127; DESIGN CHOICE, log 92). -/
def reduce (w : Nat) (m : Word) (x : Line) (absent : Nat) (op : Nat → Nat → Nat) : Line :=
  let n := 512 / w
  let xs := (List.range n).map fun i => if bit m i then some (elem x w i) else none
  BitVec.ofNat 512 ((reduceTree op n.log2 xs).getD absent)

/-- An element as a signed number. -/
def sgn (w x : Nat) : Int := (BitVec.ofNat w x).toInt
/-- A number modulo 2^w. -/
def wrap (w : Nat) (x : Int) : Nat := (BitVec.ofInt w x).toNat

namespace State

/-! ## Issue and completion of a vector instruction -/

/-- The island of this tile runs in power mode 1 (R304). -/
def matrixMode (s : State) : Bool := s.modeNow.getD (quadrantOf s.here) 0 == 1

/-- Power mode 1 lets a vector instruction issue at most every second cycle of its tile (R304). -/
def vgate (s : State) (reads writes : List RegRef) (k : State → State) : State :=
  if s.matrixMode && s.cycle < (s.tile s.here).vecNext then s.wait .resource else s.gate reads writes k

def vretire (s : State) (sc : Stall) : State :=
  (if s.matrixMode then s.onTile s.here fun x => { x with vecNext := s.cycle + s.span s.here 2 } else s).retire sc

/-- A vector register written from vector sources. -/
def vecOp (s : State) (reads : List RegRef) (vd : BitVec 4) (lat : Latency) (sc : Stall) (f : State → Line) : State :=
  s.vgate reads [.v vd] fun s => (s.putV (.v vd) (f s) lat).vretire sc

/-- Two vector sources under a mask, element by element. -/
def vec2 (s : State) (w : Nat) (vd va vb : BitVec 4) (m : BitVec 3) (lat : Latency) (sc : Stall) (f : State → Nat → Nat → Nat) : State :=
  s.vecOp [.v va, .v vb, .m m] vd lat sc fun s =>
    selected w (s.rdM m) (s.rdV vd) fun i => f s (elem (s.rdV va) w i) (elem (s.rdV vb) w i)

def vec1 (s : State) (w : Nat) (vd va : BitVec 4) (m : BitVec 3) (lat : Latency) (sc : Stall) (f : State → Nat → Nat) : State :=
  s.vecOp [.v va, .m m] vd lat sc fun s => selected w (s.rdM m) (s.rdV vd) fun i => f s (elem (s.rdV va) w i)

/-- A map-A operation on exact values under psw.rm (R474). -/
def vecFp2 (s : State) (z : VFmt) (vd va vb : BitVec 4) (m : BitVec 3) (lat : Latency) (sc : Stall)
    (f : FFmt → Nat → FVal → FVal → Nat) : State :=
  let g := VFmt.fmt z
  s.vec2 g.width vd va vb m lat sc fun s x y => f g (pswRm s.cx.psw) (g.decode x) (g.decode y)

def vecFma (s : State) (z : VFmt) (vd va vb vc : BitVec 4) (m : BitVec 3) (sc : Stall) (f : Nat → FVal → FVal → FVal → FVal) : State :=
  let g := VFmt.fmt z
  let w := g.width
  s.vecOp [.v va, .v vb, .v vc, .m m] vd (.fixed 8) sc fun s =>
    let rm := pswRm s.cx.psw
    selected w (s.rdM m) (s.rdV vd) fun i =>
      g.ofVal rm (f rm (g.decode (elem (s.rdV va) w i)) (g.decode (elem (s.rdV vb) w i)) (g.decode (elem (s.rdV vc) w i)))

/-- A compare into a mask (R477). -/
def vecCmp (s : State) (w : Nat) (md : BitVec 3) (va vb : BitVec 4) (m : BitVec 3) (sc : Stall) (f : Nat → Nat → Bool) : State :=
  s.vgate [.v va, .v vb, .m m] [.m md] fun s =>
    (s.putV (.m md) ((compared w (s.rdM m) fun i => f (elem (s.rdV va) w i) (elem (s.rdV vb) w i)).setWidth 512) (.fixed 8)).vretire sc

def vecRed (s : State) (w : Nat) (vd va : BitVec 4) (m : BitVec 3) (sc : Stall) (absent : Nat) (f : State → Nat → Nat → Nat) : State :=
  s.vecOp [.v va, .m m] vd (.variable 1) sc fun s => reduce w (s.rdM m) (s.rdV va) absent (f s)

/-- A mask operation (R486). -/
def maskOp (s : State) (reads : List RegRef) (md : BitVec 3) (sc : Stall) (f : State → Word) : State :=
  s.vgate reads [.m md] fun s => (s.putV (.m md) ((f s).setWidth 512) (.fixed 8)).vretire sc

/-- A vector result from a scalar operand. -/
def fromScalar (s : State) (ws : Reg) (reads : List RegRef) (vd : BitVec 4) (sc : Stall) (f : State → Word → Line) : State :=
  s.vgate (.w ws :: reads) [.v vd] fun s =>
    let v := f s (s.rd ws)
    (((s.useTagged [ws]).popPorts [ws]).putV (.v vd) v (.fixed 8)).vretire sc

/-- A scalar result from vector or mask registers, untagged. -/
def toScalar (s : State) (ws : Reg) (reads : List RegRef) (sc : Stall) (f : State → Word) : State :=
  s.vgate reads [.w ws] fun s => (s.putW ws (f s) 0 (.fixed 8)).vretire sc

/-! ## Vector memory (R483..R485) -/

/-- VLD. -/
def vloadOp (s : State) (vd : BitVec 4) (ws : Reg) (sc : Stall) : State :=
  s.vgate [.w ws] [.v vd] fun s =>
    let va := s.rd ws
    s.checkAligned .run va 64 .load fun s loc mt =>
      let least := s.loadLatency va loc
      let plain := fun (s : State) => s.loadAt .run va 64 loc mt fun s bs =>
        let s := (((s.useTagged [ws]).overlapsSym loc 64).plainRead loc).popPorts [ws]
        (s.putV (.v vd) (BitVec.ofNat 512 (leNat bs)) (.variable least)).vretire sc
      match loc with
      | .mem pa =>
        if isCauseway pa then
          if s.ownPending then s.wait .store
          else s.outClaim va loc 64 true false fun s =>
            let at_ := (s.outTarget pa false).2
            (((s.useTagged [ws]).overlapsSym loc 64).plainRead loc).sendOuts pa ((List.range 8).map fun i => (at_ + 8 * i, []))
              [.v vd] [ws] (.load 64) false false none sc
        else plain s
      | .scr _ _ => plain s

/-- The bytes of each dword that VST stores, by offset in the line. -/
def vstDwords (x : Line) (w : Nat) (m : Word) : List (List (Nat × Byte)) :=
  ((List.range 8).map fun i => ((List.range 8).map fun j => 8 * i + j).filterMap fun o =>
    if bit m (8 * o / w) then some (o, BitVec.ofNat 8 (elem x 8 o)) else none).filter fun d => !d.isEmpty

/-- The runs of consecutive bytes of a dword's store: what each conflict check covers. -/
def firstSpan (d : List (Nat × Byte)) : Nat × Nat :=
  let o := (d.headD (0, 0)).1
  (o, (d.getLast?.map fun x => x.1 + 1 - o).getD 1)

/-- What precedes the writes of separate dwords: their conflicts, and for an ordered task the log, the records and the write
signature (R180, R184, R188, R484). `k` is given the repairs that start after the writes. -/
def claimEach (s : State) (va : Word) (loc : Loc) (ds : List (List (Nat × Byte))) (k : State → List Nat → State) : State :=
  let u := s.cx.task.uid
  let spans := ds.map firstSpan
  match s.resolveEach s.party true (spans.map fun d => (locAdd loc d.1, d.2)) with
  | none => s.wait .speculative
  | some (s, reps) =>
    if !s.ordered then k s reps
    else match s.logEach u (spans.map fun d => (va + BitVec.ofNat 64 (d.1 / 8 * 8), locAdd loc (d.1 / 8 * 8))) with
      | none => s.wait .undo
      | some s =>
        let s := (ds.flatMap fun d => d.map fun x => x.1).foldl (fun s o => s.overlapsSym (locAdd loc o) 1) s
        k (s.enterWrite u loc) reps

/-- Separate dwords enter a frame, and a Running task whose workspace it is sees them (R77). -/
def frameDwords (s : State) (b off : Nat) (ds : List (List (Nat × Byte))) : State :=
  let s := ds.foldl (fun (s : State) (d : List (Nat × Byte)) => s.frameWriteBytes b (d.map fun x => (off + x.1, x.2))) s
  match s.ownerOf b (off / 2048) with
  | some o => s.syncIn o
  | none => s

/-- An ordered VST is performed at issue (R186, R484). -/
def orderedVst (s : State) (va : Word) (loc : Loc) (ds : List (List (Nat × Byte))) (k : State → State) : State :=
  s.claimEach va loc ds fun s reps =>
    let s := match loc with
      | .scr b off => s.frameDwords b off ds
      | .mem pa =>
        if isRegister pa || isHostMem pa then ds.foldl (fun (s : State) (d : List (Nat × Byte)) =>
          s.uncachedStore (some s.here) none (d.map fun (x : Nat × Byte) => (pa + x.1, x.2))) s
        else ds.foldl (fun (s : State) (d : List (Nat × Byte)) =>
          s.writeBytes (some s.here) (d.map fun (x : Nat × Byte) => (pa + x.1, x.2))) s
    k (s.requestRepairs reps)

/-- Store separate dwords of one line, each by itself, and go on with `done` (R484); over Causeway the context waits for
the target's acknowledgement, and the instruction then pops `reads`. -/
def storeDwords (s : State) (va : Word) (loc : Loc) (mt : Nat) (ds : List (List (Nat × Byte))) (reads : List Reg) (sc : Stall)
    (done : State → State) : State :=
  let post := fun (s : State) (base : Nat) =>
    done (ds.foldl (fun (s : State) (d : List (Nat × Byte)) => s.postBytes va loc mt (d.map fun x => (base + x.1, x.2)) false none)
      (s.ageElements loc 64 none))
  if s.ownOverlap loc 64 then s.wait .store
  else match loc with
    | .scr b off =>
      if s.ordered then s.orderedVst va loc ds done
      else if (s.ownerOf b (off / 2048)).isSome then done (s.frameDwords b off ds)
      else post s off
    | .mem pa =>
      if isCauseway pa then
        if s.ownPending then s.wait .store
        else s.claimEach va loc ds fun s reps =>
          let at_ := (s.outTarget pa false).2
          (((s.useTagged reads).ageElements loc 64 none).requestRepairs reps).sendOuts pa
            (ds.flatMap fun d => (runsOf d).map fun r => (at_ + r.1, r.2)) [] reads (.store []) false false none sc
      else if s.ordered then
        if mt == 2 || mt == 3 then s.orderedVst va loc ds done
        else match s.l2Write (dieOf s.here) (pa / 64) with
          | (s, false) => s.wait .line
          | (s, true) => s.orderedVst va loc ds done
      else if mt == 3 && s.ownUncached then s.wait .store
      else post s pa

/-- VST. -/
def vstoreOp (s : State) (w : Nat) (vd : BitVec 4) (ws : Reg) (m : BitVec 3) (sc : Stall) : State :=
  s.vgate [.w ws, .v vd, .m m] [] fun s =>
    let va := s.rd ws
    let ds := vstDwords (s.rdV vd) w (s.rdM m)
    s.checkAligned .run va 64 .store fun s loc mt =>
      let done := fun (s : State) => ((s.useTagged [ws]).popPorts [ws]).vretire sc
      if ds.isEmpty then done s else s.storeDwords va loc mt ds [ws] sc done

end State

/-! ## Floating point, map A -/

/-- VADD (R474). -/
def execVaddFp (f : VFmt) (vd va vb : BitVec 4) (m : BitVec 3) (sc : Stall) (s : State) : Result :=
  .next (s.vecFp2 f vd va vb m (.fixed 8) sc fun g rm x y => g.ofVal rm (FVal.add rm x y))
/-- VSUB (R474). -/
def execVsubFp (f : VFmt) (vd va vb : BitVec 4) (m : BitVec 3) (sc : Stall) (s : State) : Result :=
  .next (s.vecFp2 f vd va vb m (.fixed 8) sc fun g rm x y => g.ofVal rm (FVal.sub rm x y))
/-- VMUL (R474). -/
def execVmulFp (f : VFmt) (vd va vb : BitVec 4) (m : BitVec 3) (sc : Stall) (s : State) : Result :=
  .next (s.vecFp2 f vd va vb m (.fixed 8) sc fun g rm x y => g.ofVal rm (FVal.mul x y))
/-- VFMA (R482). -/
def execVfma (f : VFmt) (vd va vb vc : BitVec 4) (m : BitVec 3) (sc : Stall) (s : State) : Result :=
  .next (s.vecFma f vd va vb vc m sc fun rm x y z => FVal.fma rm x y z)
/-- VFMS (R482). -/
def execVfms (f : VFmt) (vd va vb vc : BitVec 4) (m : BitVec 3) (sc : Stall) (s : State) : Result :=
  .next (s.vecFma f vd va vb vc m sc fun rm x y z => FVal.fma rm x y z.neg)
/-- VDIV (R480). -/
def execVdiv (f : VFmt) (vd va vb : BitVec 4) (m : BitVec 3) (sc : Stall) (s : State) : Result :=
  .next (s.vecFp2 f vd va vb m (.variable 1) sc fun g rm x y => g.div rm x y)
/-- VSQRT (R480). -/
def execVsqrt (f : VFmt) (vd va : BitVec 4) (m : BitVec 3) (sc : Stall) (s : State) : Result :=
  .next (s.vec1 (VFmt.fmt f).width vd va m (.variable 1) sc fun s x => (VFmt.fmt f).sqrt (pswRm s.cx.psw) ((VFmt.fmt f).decode x))
/-- VMIN, map A (R474): not rounded. -/
def execVminFp (f : VFmt) (vd va vb : BitVec 4) (m : BitVec 3) (sc : Stall) (s : State) : Result :=
  .next (s.vec2 (VFmt.fmt f).width vd va vb m (.fixed 8) sc fun _ x y => (VFmt.fmt f).minMax false x y)
/-- VMAX, map A (R474): not rounded. -/
def execVmaxFp (f : VFmt) (vd va vb : BitVec 4) (m : BitVec 3) (sc : Stall) (s : State) : Result :=
  .next (s.vec2 (VFmt.fmt f).width vd va vb m (.fixed 8) sc fun _ x y => (VFmt.fmt f).minMax true x y)
/-- VABS, map A (R474): the sign bit cleared. -/
def execVabsFp (f : VFmt) (vd va : BitVec 4) (m : BitVec 3) (sc : Stall) (s : State) : Result :=
  .next (s.vec1 (VFmt.fmt f).width vd va m (.fixed 8) sc fun _ x => x % 2 ^ ((VFmt.fmt f).width - 1))
/-- VNEG, map A (R474): the sign bit inverted. -/
def execVnegFp (f : VFmt) (vd va : BitVec 4) (m : BitVec 3) (sc : Stall) (s : State) : Result :=
  .next (s.vec1 (VFmt.fmt f).width vd va m (.fixed 8) sc fun _ x => x ^^^ 2 ^ ((VFmt.fmt f).width - 1))
/-- VCMPEQ, map A (R477). -/
def execVcmpeqFp (f : VFmt) (md : BitVec 3) (va vb : BitVec 4) (m : BitVec 3) (sc : Stall) (s : State) : Result :=
  .next (s.vecCmp (VFmt.fmt f).width md va vb m sc fun x y => FVal.eq ((VFmt.fmt f).decode x) ((VFmt.fmt f).decode y))
/-- VCMPLT, map A (R477). -/
def execVcmpltFp (f : VFmt) (md : BitVec 3) (va vb : BitVec 4) (m : BitVec 3) (sc : Stall) (s : State) : Result :=
  .next (s.vecCmp (VFmt.fmt f).width md va vb m sc fun x y => FVal.lt ((VFmt.fmt f).decode x) ((VFmt.fmt f).decode y))
/-- VCMPLE (R477). -/
def execVcmple (f : VFmt) (md : BitVec 3) (va vb : BitVec 4) (m : BitVec 3) (sc : Stall) (s : State) : Result :=
  .next (s.vecCmp (VFmt.fmt f).width md va vb m sc fun x y => FVal.le ((VFmt.fmt f).decode x) ((VFmt.fmt f).decode y))
/-- VREDSUM, map A (R143, R488): an absent sum is +0. -/
def execVredsumFp (f : VFmt) (vd va : BitVec 4) (m : BitVec 3) (sc : Stall) (s : State) : Result :=
  .next (s.vecRed (VFmt.fmt f).width vd va m sc 0 fun s x y =>
    (VFmt.fmt f).ofVal (pswRm s.cx.psw) (FVal.add (pswRm s.cx.psw) ((VFmt.fmt f).decode x) ((VFmt.fmt f).decode y)))
/-- VREDMIN (R143, R488): absent gives the canonical NaN. -/
def execVredmin (f : VFmt) (vd va : BitVec 4) (m : BitVec 3) (sc : Stall) (s : State) : Result :=
  .next (s.vecRed (VFmt.fmt f).width vd va m sc (VFmt.fmt f).nanPat fun _ x y => (VFmt.fmt f).minMax false x y)
/-- VREDMAX (R143, R488). -/
def execVredmax (f : VFmt) (vd va : BitVec 4) (m : BitVec 3) (sc : Stall) (s : State) : Result :=
  .next (s.vecRed (VFmt.fmt f).width vd va m sc (VFmt.fmt f).nanPat fun _ x y => (VFmt.fmt f).minMax true x y)

/-! ## Integers, map B -/

/-- VADD, map B (R473). -/
def execVaddInt (sz : ISize) (vd va vb : BitVec 4) (m : BitVec 3) (sc : Stall) (s : State) : Result :=
  .next (s.vec2 (ISize.width sz) vd va vb m (.fixed 8) sc fun _ x y => x + y)
/-- VSUB, map B (R473). -/
def execVsubInt (sz : ISize) (vd va vb : BitVec 4) (m : BitVec 3) (sc : Stall) (s : State) : Result :=
  .next (s.vec2 (ISize.width sz) vd va vb m (.fixed 8) sc fun _ x y => wrap (ISize.width sz) ((x : Int) - y))
/-- VMUL, map B (R473): the low W bits. -/
def execVmulInt (sz : ISize) (vd va vb : BitVec 4) (m : BitVec 3) (sc : Stall) (s : State) : Result :=
  .next (s.vec2 (ISize.width sz) vd va vb m (.fixed 8) sc fun _ x y => x * y)
/-- VMIN, map B, signed (R473). -/
def execVminInt (sz : ISize) (vd va vb : BitVec 4) (m : BitVec 3) (sc : Stall) (s : State) : Result :=
  .next (s.vec2 (ISize.width sz) vd va vb m (.fixed 8) sc fun _ x y => if sgn (ISize.width sz) x ≤ sgn (ISize.width sz) y then x else y)
/-- VMAX, map B, signed (R473). -/
def execVmaxInt (sz : ISize) (vd va vb : BitVec 4) (m : BitVec 3) (sc : Stall) (s : State) : Result :=
  .next (s.vec2 (ISize.width sz) vd va vb m (.fixed 8) sc fun _ x y => if sgn (ISize.width sz) x ≤ sgn (ISize.width sz) y then y else x)
/-- VMINU (R473). -/
def execVminu (sz : ISize) (vd va vb : BitVec 4) (m : BitVec 3) (sc : Stall) (s : State) : Result :=
  .next (s.vec2 (ISize.width sz) vd va vb m (.fixed 8) sc fun _ x y => min x y)
/-- VMAXU (R473). -/
def execVmaxu (sz : ISize) (vd va vb : BitVec 4) (m : BitVec 3) (sc : Stall) (s : State) : Result :=
  .next (s.vec2 (ISize.width sz) vd va vb m (.fixed 8) sc fun _ x y => max x y)
/-- VAND (R475). -/
def execVand (sz : ISize) (vd va vb : BitVec 4) (m : BitVec 3) (sc : Stall) (s : State) : Result :=
  .next (s.vec2 (ISize.width sz) vd va vb m (.fixed 8) sc fun _ x y => x &&& y)
/-- VOR (R475). -/
def execVor (sz : ISize) (vd va vb : BitVec 4) (m : BitVec 3) (sc : Stall) (s : State) : Result :=
  .next (s.vec2 (ISize.width sz) vd va vb m (.fixed 8) sc fun _ x y => x ||| y)
/-- VXOR (R475). -/
def execVxor (sz : ISize) (vd va vb : BitVec 4) (m : BitVec 3) (sc : Stall) (s : State) : Result :=
  .next (s.vec2 (ISize.width sz) vd va vb m (.fixed 8) sc fun _ x y => x ^^^ y)
/-- VSLL (R490): the low log2(W) bits of the amount. -/
def execVsll (sz : ISize) (vd va vb : BitVec 4) (m : BitVec 3) (sc : Stall) (s : State) : Result :=
  .next (s.vec2 (ISize.width sz) vd va vb m (.fixed 8) sc fun _ x y => x <<< (y % ISize.width sz))
/-- VSRL (R490). -/
def execVsrl (sz : ISize) (vd va vb : BitVec 4) (m : BitVec 3) (sc : Stall) (s : State) : Result :=
  .next (s.vec2 (ISize.width sz) vd va vb m (.fixed 8) sc fun _ x y => x >>> (y % ISize.width sz))
/-- VSRA (R490). -/
def execVsra (sz : ISize) (vd va vb : BitVec 4) (m : BitVec 3) (sc : Stall) (s : State) : Result :=
  .next (s.vec2 (ISize.width sz) vd va vb m (.fixed 8) sc fun _ x y =>
    ((BitVec.ofNat (ISize.width sz) x).sshiftRight (y % ISize.width sz)).toNat)
/-- VCMPEQ, map B (R477). -/
def execVcmpeqInt (sz : ISize) (md : BitVec 3) (va vb : BitVec 4) (m : BitVec 3) (sc : Stall) (s : State) : Result :=
  .next (s.vecCmp (ISize.width sz) md va vb m sc fun x y => x == y)
/-- VCMPLT, map B, signed (R477). -/
def execVcmpltInt (sz : ISize) (md : BitVec 3) (va vb : BitVec 4) (m : BitVec 3) (sc : Stall) (s : State) : Result :=
  .next (s.vecCmp (ISize.width sz) md va vb m sc fun x y => decide (sgn (ISize.width sz) x < sgn (ISize.width sz) y))
/-- VCMPLTU (R477). -/
def execVcmpltu (sz : ISize) (md : BitVec 3) (va vb : BitVec 4) (m : BitVec 3) (sc : Stall) (s : State) : Result :=
  .next (s.vecCmp (ISize.width sz) md va vb m sc fun x y => decide (x < y))
/-- VREDSUM, map B (R143): wraps at W. -/
def execVredsumInt (sz : ISize) (vd va : BitVec 4) (m : BitVec 3) (sc : Stall) (s : State) : Result :=
  .next (s.vecRed (ISize.width sz) vd va m sc 0 fun _ x y => (x + y) % 2 ^ ISize.width sz)
/-- VABS, map B (R474). -/
def execVabsInt (sz : ISize) (vd va : BitVec 4) (m : BitVec 3) (sc : Stall) (s : State) : Result :=
  .next (s.vec1 (ISize.width sz) vd va m (.fixed 8) sc fun _ x => wrap (ISize.width sz) (sgn (ISize.width sz) x).natAbs)
/-- VNEG, map B (R474). -/
def execVnegInt (sz : ISize) (vd va : BitVec 4) (m : BitVec 3) (sc : Stall) (s : State) : Result :=
  .next (s.vec1 (ISize.width sz) vd va m (.fixed 8) sc fun _ x => wrap (ISize.width sz) (-(sgn (ISize.width sz) x)))

/-! ## Conversion, permutation, elements -/

/-- The register VCVT leaves (R138, R479): every bit outside the written elements is kept. -/
def vcvtResult (rm src dst part : Nat) (sat : Bool) (m : Word) (x old : Line) : Line :=
  let ws := vcvtWidth src
  let wd := vcvtWidth dst
  let n := 512 / max ws wd
  let from_ := fun i => if ws ≤ wd then part * n + i else i
  let dest := fun i => if ws ≤ wd then i else part * n + i
  (List.range n).foldl (fun v i =>
    if bit m i then setBits v (wd * dest i) wd (convertCode rm sat src dst (elem x ws (from_ i))) else v) old

/-- VCVT (R479). -/
def execVcvt (src dst : BitVec 4) (part : BitVec 3) (sat : Bool) (vd va : BitVec 4) (m : BitVec 3) (sc : Stall) (s : State) : Result :=
  .next (s.vecOp [.v va, .m m] vd (.fixed 8) sc fun s =>
    vcvtResult (pswRm s.cx.psw) src.toNat dst.toNat part.toNat sat (s.rdM m) (s.rdV va) (s.rdV vd))

/-- One shuffle at a width (R489). -/
def shuffled (w : Nat) (m : Word) (a b old : Line) : Line :=
  selected w m old fun i => elem a w (elem b w i % (512 / w))

/-- VSHUF.d (R489). -/
def execVshufD (vd va vb : BitVec 4) (m : BitVec 3) (sc : Stall) (s : State) : Result :=
  .next (s.vecOp [.v va, .v vb, .m m] vd (.fixed 8) sc fun s => shuffled 64 (s.rdM m) (s.rdV va) (s.rdV vb) (s.rdV vd))
/-- VSHUF.w (R489). -/
def execVshufW (vd va vb : BitVec 4) (m : BitVec 3) (sc : Stall) (s : State) : Result :=
  .next (s.vecOp [.v va, .v vb, .m m] vd (.fixed 8) sc fun s => shuffled 32 (s.rdM m) (s.rdV va) (s.rdV vb) (s.rdV vd))
/-- VSHUF.b (R489). -/
def execVshufB (vd va vb : BitVec 4) (m : BitVec 3) (sc : Stall) (s : State) : Result :=
  .next (s.vecOp [.v va, .v vb, .m m] vd (.fixed 8) sc fun s => shuffled 8 (s.rdM m) (s.rdV va) (s.rdV vb) (s.rdV vd))
/-- VSEL.d (R489): m selects; every element is written. -/
def execVselD (vd va vb : BitVec 4) (m : BitVec 3) (sc : Stall) (s : State) : Result :=
  .next (s.vecOp [.v va, .v vb, .m m] vd (.fixed 8) sc fun s => selected 64 (s.rdM m) (s.rdV vb) fun i => elem (s.rdV va) 64 i)
/-- VSEL.w (R489). -/
def execVselW (vd va vb : BitVec 4) (m : BitVec 3) (sc : Stall) (s : State) : Result :=
  .next (s.vecOp [.v va, .v vb, .m m] vd (.fixed 8) sc fun s => selected 32 (s.rdM m) (s.rdV vb) fun i => elem (s.rdV va) 32 i)
/-- VBCAST.d (R476). -/
def execVbcastD (vd : BitVec 4) (ws : Reg) (m : BitVec 3) (sc : Stall) (s : State) : Result :=
  .next (s.fromScalar ws [.m m] vd sc fun s x => selected 64 (s.rdM m) (s.rdV vd) fun _ => x.toNat)
/-- VBCAST.w (R476). -/
def execVbcastW (vd : BitVec 4) (ws : Reg) (m : BitVec 3) (sc : Stall) (s : State) : Result :=
  .next (s.fromScalar ws [.m m] vd sc fun s x => selected 32 (s.rdM m) (s.rdV vd) fun _ => x.toNat)
/-- VEXT.d (R481). -/
def execVextD (ws : Reg) (va k : BitVec 4) (sc : Stall) (s : State) : Result :=
  .next (s.toScalar ws [.v va] sc fun s => BitVec.ofNat 64 (elem (s.rdV va) 64 k.toNat))
/-- VEXT.w (R481): sign-extended. -/
def execVextW (ws : Reg) (va k : BitVec 4) (sc : Stall) (s : State) : Result :=
  .next (s.toScalar ws [.v va] sc fun s => signExtend (BitVec.ofNat 32 (elem (s.rdV va) 32 k.toNat)) 32)
/-- VINS.d (R481). -/
def execVinsD (vd : BitVec 4) (ws : Reg) (k : BitVec 4) (sc : Stall) (s : State) : Result :=
  .next (s.fromScalar ws [] vd sc fun s x => setBits (s.rdV vd) (64 * k.toNat) 64 x.toNat)
/-- VINS.w (R481). -/
def execVinsW (vd : BitVec 4) (ws : Reg) (k : BitVec 4) (sc : Stall) (s : State) : Result :=
  .next (s.fromScalar ws [] vd sc fun s x => setBits (s.rdV vd) (32 * k.toNat) 32 x.toNat)
/-- VMOV (R487). -/
def execVmov (vd va : BitVec 4) (m : BitVec 3) (sc : Stall) (s : State) : Result :=
  .next (s.vec1 64 vd va m (.fixed 8) sc fun _ x => x)

/-! ## Masks -/

/-- VMAND (R486). -/
def execVmand (md ma mb : BitVec 3) (sc : Stall) (s : State) : Result :=
  .next (s.maskOp [.m ma, .m mb] md sc fun s => s.rdM ma &&& s.rdM mb)
/-- VMOR (R486). -/
def execVmor (md ma mb : BitVec 3) (sc : Stall) (s : State) : Result :=
  .next (s.maskOp [.m ma, .m mb] md sc fun s => s.rdM ma ||| s.rdM mb)
/-- VMXOR (R486). -/
def execVmxor (md ma mb : BitVec 3) (sc : Stall) (s : State) : Result :=
  .next (s.maskOp [.m ma, .m mb] md sc fun s => s.rdM ma ^^^ s.rdM mb)
/-- VMNOT (R486). -/
def execVmnot (md ma : BitVec 3) (sc : Stall) (s : State) : Result :=
  .next (s.maskOp [.m ma] md sc fun s => ~~~(s.rdM ma))
/-- VMPUT (R486). -/
def execVmput (md : BitVec 3) (ws : Reg) (sc : Stall) (s : State) : Result :=
  .next (s.vgate [.w ws] [.m md] fun s =>
    let v := s.rd ws
    (((s.useTagged [ws]).popPorts [ws]).putV (.m md) (v.setWidth 512) (.fixed 8)).vretire sc)
/-- VMGET (R486). -/
def execVmget (ws : Reg) (ma : BitVec 3) (sc : Stall) (s : State) : Result :=
  .next (s.toScalar ws [.m ma] sc fun s => s.rdM ma)

/-! ## Memory -/

/-- VLD (R483). -/
def execVld (vd : BitVec 4) (ws : Reg) (sc : Stall) (s : State) : Result := .next (s.vloadOp vd ws sc)
/-- VST.d (R483). -/
def execVstD (vd : BitVec 4) (ws : Reg) (m : BitVec 3) (sc : Stall) (s : State) : Result := .next (s.vstoreOp 64 vd ws m sc)
/-- VST.w (R483). -/
def execVstW (vd : BitVec 4) (ws : Reg) (m : BitVec 3) (sc : Stall) (s : State) : Result := .next (s.vstoreOp 32 vd ws m sc)
/-- VST.b (R483). -/
def execVstB (vd : BitVec 4) (ws : Reg) (m : BitVec 3) (sc : Stall) (s : State) : Result := .next (s.vstoreOp 8 vd ws m sc)

end Sys2Proof.Machine
end

