-- ==== Sys2Proof/Machine/Heron.lean ====
section
/-!
DEFINITION. Heron and tensor handles (R265..R270, R399..R405, R440..R442).
-/
namespace Sys2Proof.Machine

/-! ## Handles (R265) -/

structure Handle where
  f1 : Nat
  vfmt : Nat
  isz : Bool
  cf : Nat
  rows : Nat
  cols : Nat
  pos : Word
  crd : Word
  val : Word
  vstride : Word
  blk : Nat
  gbase : Word
  gstride : Word
  grow : Nat
deriving DecidableEq, Repr

def handleOf (h : Line) : Handle :=
  let d := handleDword h
  { f1 := bits (d 0) 4 3, vfmt := bits (d 0) 8 4, isz := bit (d 0) 12, cf := bits (d 0) 13 2, rows := bits (d 1) 0 32,
    cols := bits (d 1) 32 32, pos := d 2, crd := d 3, val := d 4, vstride := signExtend (d 5) 32, blk := bits (d 5) 48 16,
    gbase := d 6, gstride := signExtend (d 7) 32, grow := bits (d 7) 32 10 }

/-- The handle keeps the table of R265. -/
def handleOk (h : Line) : Bool :=
  let d := handleDword h
  let x := handleOf h
  bits (d 0) 0 3 == 0 && bits (d 0) 15 49 == 0 && !bit (d 0) 3 && !bit (d 0) 7 && x.f1 ≤ 4 && x.vfmt ≤ 10 && x.cf != 3
    && 1 ≤ x.rows && x.rows ≤ 2 ^ 31 && 1 ≤ x.cols && x.cols ≤ 2 ^ 31 && (x.f1 != 4 || x.cols % 4 == 0)
    && bits (d 5) 32 16 == 0 && bits (d 7) 42 22 == 0 && 1 ≤ x.grow && x.grow ≤ 512

/-- Bytes of a pointer or coordinate. -/
def Handle.ptr (h : Handle) : Nat := if h.isz then 8 else 4
/-- Bits of a value. -/
def Handle.width (h : Handle) : Nat := vcvtWidth h.vfmt

/-- An entry of a row: its column and where its value stands, as an element number from a base (R266). -/
structure Entry where
  col  : Nat
  base : Word
  idx  : Nat
deriving DecidableEq, Repr

/-- Entry i of an array of n-byte numbers. -/
def engItem (t : Nat) (c : Cmd) (base : Word) (n i : Nat) : Eng Nat := engNat t c (base + BitVec.ofNat 64 (n * i)) n

/-- The places of the set bits of a number, lowest first. -/
def setBitsOf (x n : Nat) : List Nat := (List.range n).filter fun i => x.testBit i

/-- The entries of row i that have their columns named by structure: how many, and the first position (R266). -/
def rowSize (t : Nat) (c : Cmd) (h : Handle) (i : Nat) : Eng (Nat × Nat) := do
  match h.f1 with
  | 0 => return (h.cols, 0)
  | 1 =>
    let lo ← engItem t c h.pos h.ptr i
    let hi ← engItem t c h.pos h.ptr (i + 1)
    if hi < lo then throw (.fault 0x03)
    return (hi - lo, lo)
  | 2 => return (1, i)
  | 3 =>
    let n := 8 * ceilDiv h.cols 64
    let x ← engNat t c (h.pos + BitVec.ofNat 64 (n * i)) n
    let lo ← engItem t c h.crd h.ptr i
    let hi ← engItem t c h.crd h.ptr (i + 1)
    if hi < lo then throw (.fault 0x03)
    return ((setBitsOf x (8 * n)).length, lo)
  | _ => return (h.cols / 2, 0)

/-- Entry j of row i, given the first position of the row (R266). -/
def rowEntry (t : Nat) (c : Cmd) (h : Handle) (i first j : Nat) : Eng Entry := do
  let e ← (match h.f1 with
    | 0 => return { col := j, base := h.val + BitVec.ofNat 64 i * h.vstride, idx := j }
    | 1 => do
      let col ← engItem t c h.crd h.ptr (first + j)
      return { col := col, base := h.val, idx := first + j }
    | 2 => do
      let col ← engItem t c h.crd h.ptr i
      return { col := col, base := h.val, idx := i }
    | 3 => do
      let n := 8 * ceilDiv h.cols 64
      let x ← engNat t c (h.pos + BitVec.ofNat 64 (n * i)) n
      return { col := (setBitsOf x (8 * n)).getD j h.cols, base := h.val, idx := first + j }
    | _ => do
      let b ← engNat t c (h.pos + BitVec.ofNat 64 (i * (h.cols / 4) + j / 2)) 1
      return { col := 4 * (j / 2) + b / 4 ^ (j % 2) % 4, base := h.val, idx := i * (h.cols / 2) + j } : Eng Entry)
  if h.cols ≤ e.col then throw (.fault 0x03)
  return e

/-- Every entry of a row. -/
def rowEntries (t : Nat) (c : Cmd) (h : Handle) (i : Nat) : Eng (List Entry) := do
  let (n, first) ← rowSize t c h i
  let rec go : List Nat → Eng (List Entry)
    | [] => return []
    | j :: js => do
      let e ← rowEntry t c h i first j
      let es ← go js
      return e :: es
  go (List.range n)

/-- The pattern at an element number of an array of w-bit values. -/
def readValue (t : Nat) (c : Cmd) (base : Word) (w idx : Nat) : Eng Nat := do
  if w == 4 then
    let b ← engNat t c (base + BitVec.ofNat 64 (idx / 2)) 1
    return b / 16 ^ (idx % 2) % 16
  else engNat t c (base + BitVec.ofNat 64 (w / 8 * idx)) (w / 8)

def writeValue (t : Nat) (c : Cmd) (base : Word) (w idx v : Nat) : Eng Unit := do
  if w == 4 then
    let at_ := base + BitVec.ofNat 64 (idx / 2)
    let b ← engNat t c at_ 1
    let new := if idx % 2 == 0 then b / 16 * 16 + v else b % 16 + 16 * v
    engWrite t c at_ (leBytes 1 new)
  else engWrite t c (base + BitVec.ofNat 64 (w / 8 * idx)) (leBytes (w / 8) v)

/-- The columns of a row as patterns, absent entries +0 (R267, R268). -/
def rowValues (t : Nat) (c : Cmd) (h : Handle) (i n : Nat) : Eng (List Nat) := do
  let es ← rowEntries t c h i
  let rec go : List Entry → List Nat → Eng (List Nat)
    | [], acc => return acc
    | e :: rest, acc => do
      if e.col < n then
        let v ← readValue t c e.base h.width e.idx
        go rest (acc.set e.col v)
      else go rest acc
  go es (List.replicate n (zeroPattern h.vfmt))

/-! ## Gather and scatter (R270) -/

/-- One table row moved by a command: GATHER, SCATTER or SCATTER.ADD (R270). An element of SCATTER.ADD at an address that is no
multiple of its size faults with cause protection, as one outside a range does (DESIGN CHOICE, log 81). -/
def heronMove (t : Nat) (c : Cmd) (table : Word) (rb cf i : Nat) : Eng Unit := do
  let side := c.a + BitVec.ofNat 64 (i * rb)
  match vclass side with
    | .scratch off => if 2 ^ 24 < off + rb then throw (.fault 0x03)
    | .memory | .nonCanonical => throw (.fault 0x03)
  match c.op with
  | .gather =>
    let bs ← engRead t c table rb
    engWrite t c side bs
  | .scatter =>
    let bs ← engRead t c side rb
    engWrite t c table bs
  | _ =>
    let fmt : CrFmt := match cf with | 0 => .i64 | 1 => .f32 | _ => .f64
    let w := CrFmt.bytes fmt
    let bs ← engRead t c side rb
    let rec go : List Nat → Eng Unit
      | [] => return ()
      | k :: ks => do
        let va := table + BitVec.ofNat 64 (k * w)
        let s ← get
        match s.commRange c.lq va with
        | none => throw (.fault 0x03)
        | some r =>
          if r.fmt != fmt || va.toNat % w != 0 then throw (.fault 0x03)
          let (loc, mt) ← engPlace t c va true
          let s ← get
          match loc with
          | .scr _ _ => throw (.fault 0x03)
          | .mem pa =>
            if mt != 0 then throw (.fault 0x03)
            match s.craddAt (dieOf t) pa fmt (BitVec.ofNat 64 (leNat ((bs.drop (k * w)).take w))) with
            | none => throw (.ask (pa / 64) none)
            | some s => set s
        go ks
    go (List.range (rb / w))

/-- The rows of GATHER, SCATTER and SCATTER.ADD: from an index list, or from a row of a handle (R268, R270). -/
def heronPlan (t : Nat) (c : Cmd) : Eng (List (Eng Unit)) := do
  match c.handle with
  | none =>
    let base := c.params.getD 0 0
    let stride := c.params.getD 1 0
    let ctl := c.params.getD 2 0
    let rb := 8 * hctlRow ctl
    let n := if bit ctl 40 then 8 else 4
    return (List.range (hctlCount ctl)).map fun i => do
      let x ← engItem t c c.b n i
      heronMove t c (base + BitVec.ofNat 64 x * stride) rb (bits ctl 44 2) i
  | some line =>
    let h := handleOf line
    let row := c.b.toNat
    if h.rows ≤ row then throw (.fault 0x03)
    let (n, first) ← rowSize t c h row
    return (List.range (min n (h.cols + 1))).map fun i => do
      if h.cols ≤ i then throw (.fault 0x03)
      let e ← rowEntry t c h row first i
      heronMove t c (h.gbase + BitVec.ofNat 64 e.col * h.gstride) (8 * h.grow) h.cf i

/-- HLD and HST, a unit for each row (R267, R405). -/
def imagePlan (t : Nat) (c : Cmd) (line : Line) : List (Eng Unit) :=
  let h := handleOf line
  let pitch := handlePitch line
  let rows := (List.range (min (max h.blk 1) (h.rows - c.b.toNat)))
  rows.map fun j => do
    let at_ := c.a + BitVec.ofNat 64 (j * pitch)
    let i := c.b.toNat + j
    if c.op == .hld then
      let vs ← rowValues t c h i h.cols
      let x := vs.foldr (fun v acc => v + 2 ^ h.width * acc) 0
      engWrite t c at_ (leBytes pitch x)
    else
      let es ← rowEntries t c h i
      let rec go : List Entry → Eng Unit
        | [] => return ()
        | e :: rest => do
          let v ← readValue t c at_ h.width e.col
          writeValue t c e.base h.width e.idx v
          go rest
      go es

namespace State

/-! ## The order of a Heron's commands (R270) -/

/-- Two commands may write one byte: those that write rows reached by indices, or two whose write ranges meet. -/
def heronClash (a b : Cmd) : Bool :=
  let rows := fun (c : Cmd) => c.op == .scatter || c.op == .hst || c.op == .scatterAdd
  if rows a || rows b then !(a.op == .scatterAdd && b.op == .scatterAdd)
  else a.ranges.any fun x => b.ranges.any fun y => x.write && y.write && x.scratch == y.scratch && x.space == y.space
    && x.firstLine ≤ y.lastLine && y.firstLine ≤ x.lastLine

/-- A command arrives at its cluster's Heron before another: earlier, or in the same cycle from a lower tile. -/
def heronBefore (a : Nat × Cmd) (b : Nat × Cmd) : Bool :=
  a.2.issued < b.2.issued || (a.2.issued == b.2.issued && (a.1 < b.1 || (a.1 == b.1 && a.2.seq < b.2.seq)))

/-- The Heron takes up to eight commands at once in arrival order, one whose launch has no budget left waiting in the queue
(R56); a later-taken one writes a byte after an earlier one (R270). -/
def heronReady (s : State) (t : Nat) (c : Cmd) : Bool :=
  let all := s.tiles.flatMap fun (u, x) =>
    if clusterOf u == clusterOf t then (x.cmds.vals.filter fun o => CmdOp.kind o.op == .heron && o.registered).map fun o => (u, o) else []
  let before := all.filter fun o => heronBefore o (t, c) && !s.overBudget o.2.lq 2
  before.length < 8 && !(before.any fun o => heronClash o.2 c)

/-! ## Issue -/

/-- hctl keeps its map: cf, count and rw (R269, R440). -/
def hctlOk (x : Word) : Bool := bits x 44 2 != 3 && hctlCount x ≤ 65536 && 1 ≤ hctlRow x && hctlRow x ≤ 512

/-- A handle row that is found to have no entries as its command issues (R400). -/
def rowEmpty (s : State) (c : Cmd) (line : Line) : Option State :=
  if (handleOf line).rows ≤ c.b.toNat then none
  else match (rowSize s.here c (handleOf line) c.b.toNat).run.run s with
    | (.ok (0, _), s) => some s
    | _ => none

/-- GATHER, SCATTER and SCATTER.ADD at issue (R401, R441): `write` for the scratchpad side of GATHER. -/
def heronIssue (s : State) (op : CmdOp) (e : BitVec 3) (a b : Reg) (src : EngSrc) (sc : Stall) : State :=
  let regs := match src with | .set _ => [] | .handle n => [RegRef.h n]
  if s.ordered then s.trapIllegal
  else s.gate ([.w a, .w b] ++ regs) [.e e] fun s =>
    let va := s.rd a
    let idx := s.rd b
    let write := op == .gather
    match src with
      | .set n =>
        let params := (s.tile s.here).heron[n.toNat].toList
        let ctl := params.getD 2 0
        let unit := if bit ctl 40 then 8 else 4
        let count := hctlCount ctl
        let span := 8 * hctlRow ctl * count
        if !hctlOk ctl then s.trapIllegal
        else if va.toNat % 8 != 0 then s.trapAlign va 8
        else if idx.toNat % unit != 0 then s.trapAlign idx unit
        else if count == 0 then s.issueDone op e [a, b] va idx params none sc
        else match vclass va with
          | .scratch off =>
            if !s.spanOk off 0 span then s.trapProt va
            else s.issueCmd op e [a, b] va idx params none
              [s.lockRange idx (unit * count) false, s.lockRange va span write] sc id
          | .memory | .nonCanonical => s.trapProt va
      | .handle n =>
        let line := s.cx.h[n.toNat]
        if !handleOk line then s.trapIllegal
        else if va.toNat % 8 != 0 then s.trapAlign va 8
        else match s.rowEmpty (s.capture op e va idx [] (some line) 0 []) line with
          | some s => s.issueDone op e [a, b] va idx [] (some line) sc
          | none =>
            s.issueCmd op e [a, b] va idx [] (some line) [s.lockRange va (handleCols line * 8 * handleGrow line) write] sc id

/-- HLD and HST at issue (R405). -/
def imageIssue (s : State) (op : CmdOp) (e : BitVec 3) (a b : Reg) (n : BitVec 2) (sc : Stall) : State :=
  if s.ordered then s.trapIllegal
  else s.gate [.w a, .w b, .h n] [.e e] fun s =>
    let va := s.rd a
    let row := s.rd b
    let line := s.cx.h[n.toNat]
    let h := handleOf line
    let span := handlePitch line * min (max h.blk 1) (h.rows - row.toNat)
    if !handleOk line then s.trapIllegal
    else if va.toNat % 8 != 0 then s.trapAlign va 8
    else if h.rows ≤ row.toNat then s.issueDone op e [a, b] va row [] (some line) sc
    else match vclass va with
      | .scratch off =>
        if !s.spanOk off 0 span then s.trapProt va
        else s.issueCmd op e [a, b] va row [] (some line) [s.lockRange va span (op == .hld)] sc id
      | .memory | .nonCanonical => s.trapProt va

/-! ## HSET and HGET (R403) -/

def hset (s : State) (a : Reg) (n : BitVec 2) (sc : Stall) : State :=
  s.gate [.w a] [.h n] fun s =>
    let va := s.rd a
    s.checkAligned .run va 64 .load fun s loc mt =>
      let least := s.loadLatency va loc
      let plain := fun (s : State) => s.loadAt .run va 64 loc mt fun s bs =>
        let s := (((s.useTagged [a]).overlapsSym loc 64).plainRead loc).popPorts [a]
        (s.putV (.h n) (BitVec.ofNat 512 (leNat bs)) (.variable least)).retire sc
      match loc with
      | .mem pa =>
        if isCauseway pa then
          if s.ownPending then s.wait .store
          else s.outClaim va loc 64 true false fun s =>
            let at_ := (s.outTarget pa false).2
            (((s.useTagged [a]).overlapsSym loc 64).plainRead loc).sendOuts pa ((List.range 8).map fun i => (at_ + 8 * i, []))
              [.h n] [a] (.load 64) false false none sc
        else plain s
      | .scr _ _ => plain s

def hget (s : State) (a : Reg) (n : BitVec 2) (sc : Stall) : State :=
  s.gate [.w a, .h n] [] fun s =>
    let va := s.rd a
    let ds := vstDwords s.cx.h[n.toNat] 64 (BitVec.allOnes 64)
    if va.toNat % 64 == 0 && vclass va == .memory && (s.pubRegion s.cx.task.lq va).isSome then s.trapProt va
    else s.checkAligned .run va 64 .store fun s loc mt =>
      s.storeDwords va loc mt ds [a] sc fun s => ((s.useTagged [a]).popPorts [a]).retire sc

end State

/-- GATHER (R400). -/
def execGather (e : BitVec 3) (a b : Reg) (src : EngSrc) (sc : Stall) (s : State) : Result :=
  .next (s.heronIssue .gather e a b src sc)
/-- SCATTER (R440). -/
def execScatter (e : BitVec 3) (a b : Reg) (src : EngSrc) (sc : Stall) (s : State) : Result :=
  .next (s.heronIssue .scatter e a b src sc)
/-- SCATTER.ADD (R440). -/
def execScatterAdd (e : BitVec 3) (a b : Reg) (src : EngSrc) (sc : Stall) (s : State) : Result :=
  .next (s.heronIssue .scatterAdd e a b src sc)
/-- HLD (R405). -/
def execHld (e : BitVec 3) (a b : Reg) (h : BitVec 2) (sc : Stall) (s : State) : Result := .next (s.imageIssue .hld e a b h sc)
/-- HST (R405). -/
def execHst (e : BitVec 3) (a b : Reg) (h : BitVec 2) (sc : Stall) (s : State) : Result := .next (s.imageIssue .hst e a b h sc)
/-- HSET (R403). -/
def execHset (a : Reg) (h : BitVec 2) (sc : Stall) (s : State) : Result := .next (s.hset a h sc)
/-- HGET (R403). -/
def execHget (a : Reg) (h : BitVec 2) (sc : Stall) (s : State) : Result := .next (s.hget a h sc)

end Sys2Proof.Machine
end

