-- ==== Sys2Proof/Machine/Reedbed.lean ====
section
/-!
DEFINITION. Reedbed: leases, formats, planes and streams (R139..R142, R257..R264, R416..R423).
-/
namespace Sys2Proof.Machine

/-! ## Formats (R259) -/

def wordWfmt (x : Word) : Nat := bits x 12 4
def wordAfmt (x : Word) : Nat := bits x 8 4

/-- A format takes block scales (R132). -/
def takesScale (f : Nat) : Bool := f == 4 || f == 5 || f == 6 || f == 7

/-- A legal format word (R259). -/
def fmtWordOk (x : Word) : Bool :=
  let w := wordWfmt x
  let a := wordAfmt x
  let pair := (w == 2 && a == 2) || (w == 8 && a == 8) || ((4 ≤ w && w ≤ 7) && (4 ≤ a && a ≤ 6))
  bits x 16 48 == 0 && bits x 2 6 == 0 && pair && (!bit x 1 || takesScale w) && (!bit x 0 || takesScale a)

/-- A legal geometry word (R260). -/
def geoWordOk (x : Word) : Bool := bits x 15 49 == 0 && !bit x 7

/-! ## Arithmetic (R139..R142) -/

/-- The weight is zero, so its product is omitted (R140). -/
def zeroWeight (wfmt p : Nat) : Bool := match valOfCode wfmt p with
  | .fin _ m _ => m == 0
  | .nan => false
  | .inf _ => false

/-- The two scales as one power of two, or none for a NaN scale (R132, R139). -/
def scaleSum (ca cw : Option Nat) : Option Int :=
  let one := fun (c : Option Nat) => match c with
    | none => some 0
    | some x => e8m0 x
  match one ca, one cw with
  | some x, some y => some (x + y)
  | _, _ => none

/-- CellProduct (R139, R140), as an FP32 pattern. A zero product of integer elements takes its sign from the elements' signs, as
one of floating-point elements does (DESIGN CHOICE, log 80). -/
def cellProduct (afmt wfmt a w : Nat) (ca cw : Option Nat) : Nat :=
  match scaleSum ca cw with
  | none => fp32.nanPat
  | some k =>
    match FVal.mul (valOfCode afmt a) (valOfCode wfmt w) with
    | .fin neg m e => fp32.ofVal 0 (.fin neg m (e + k))
    | v => fp32.ofVal 0 v

def add32 (x y : Nat) : Nat := fp32.ofVal 0 (FVal.add 0 (fp32.decode x) (fp32.decode y))

/-- ColumnSum (R141) over reduction rows: products from the top, the first taken as it is. -/
def columnSum (afmt wfmt : Nat) : List (Nat × Nat × Option Nat × Option Nat) → Option Nat → Nat
  | [], s => s.getD 0
  | (a, w, ca, cw) :: rest, s =>
    if zeroWeight wfmt w then columnSum afmt wfmt rest s
    else
      let p := cellProduct afmt wfmt a w ca cw
      columnSum afmt wfmt rest (some (match s with | none => p | some x => add32 x p))

/-! ## Leases (R257, R258) -/

namespace State

/-- The context holds or has requested the tile's lease (R247, R257). -/
def leaseMine (s : State) : Bool := s.hasLease s.here s.cx.task.uid

/-- A task's lease is released, or its request withdrawn (R253, R257). -/
def leaseDrop (s : State) (t uid : Nat) : State :=
  let k := s.cluster (clusterOf t)
  let other := fun (l : Lease) => !(l.tile == t && l.uid == uid)
  let held := k.holder.filter other
  (s.setCluster (clusterOf t) { k with
    leaseQ := k.leaseQ.filter other, holder := held, ending := if held.isSome then k.ending else [] }).later (.leaseGrant (clusterOf t))

/-- A lease that its task has left, granted, with every command of the task complete: the implicit MREL (R257). -/
def leaseOver (s : State) (l : Lease) : Bool :=
  l.leaving && l.granted && !((s.tile l.tile).cmds.any fun (_, c) => c.uid == l.uid)

/-- The leases that end by themselves are released. -/
def leaseSettle (s : State) (c : Nat) : State :=
  let k := s.cluster c
  let held := k.holder.filter fun l => !s.leaseOver l
  s.setCluster c { k with
    leaseQ := k.leaseQ.filter fun l => !s.leaseOver l, holder := held, ending := if held.isSome then k.ending else [] }

/-- The request that the Reedbed grants next: the first whose tile has no other lease in force (R257). -/
def leaseFirst (k : ClusterS) : Option Lease :=
  k.leaseQ.find? fun l => l.granted || !(k.leaseQ.any fun o => o.granted && o.tile == l.tile)

/-- The MLEASE that made a request, while it waits for its grant. -/
def leaseCmd (s : State) (l : Lease) : Option (Nat × Cmd) :=
  if l.granted then none else (s.tile l.tile).cmds.find? fun (_, c) => c.op == .mlease && c.uid == l.uid

/-- A request is granted, and its MLEASE's ticket completes (R257). -/
def leaseInstall (s : State) (c : Nat) (l : Lease) : State :=
  let k := s.cluster c
  let cmd := s.leaseCmd l
  let s := (s.setCluster c { k with
    holder := some { l with granted := true }, leaseQ := k.leaseQ.erase l, grantAt := s.cycle, count := 0, ending := [] }).after 4096
      (.leaseRearbitrate c)
  match cmd with
  | some (e, _) => s.endCmd l.tile e none
  | none => s.leaseCheck l.tile l.uid

/-- The Reedbed grants the next request once its MLEASE has registered (R251, R257). -/
def leaseGrant (s : State) (c : Nat) : State :=
  let s := s.leaseSettle c
  match (s.cluster c).holder, leaseFirst (s.cluster c) with
  | none, some l => if (s.leaseCmd l).all fun e => e.2.registered then s.leaseInstall c l else s
  | _, _ => s

/-- The task has a place with the Reedbed: a lease or a request, left behind or not. -/
def leaseKnown (s : State) (t uid : Nat) : Bool :=
  let k := s.cluster (clusterOf t)
  (k.holder.toList ++ k.leaseQ).any fun l => l.tile == t && l.uid == uid

/-- Whether a Reedbed command may be performed (R257, R258, R264, R416): its task has the lease in force, re-arbitration does
not hold it back, and the commands before it are complete. Those are its task's own, since another task's stand under another
lease; MSWAP and MDRAIN wait for those too that stand under none. Without a lease is a command that was issued between an MREL
and its completion, or under a request that a cancellation has withdrawn: it stands until its task leases the Reedbed again
(DESIGN CHOICE, log 79). -/
def reedReady (s : State) (t : Nat) (c : Cmd) : Bool :=
  let k := s.cluster (clusterOf t)
  let before := (s.cmdsOf t).filter fun o => o.seq < c.seq
  let earlier := before.filter fun o => o.uid == c.uid
  let reed := earlier.filter fun o => CmdOp.kind o.op == .reedbed
  let stray := before.filter fun o => CmdOp.kind o.op == .reedbed && o.uid != c.uid && !s.leaseKnown t o.uid
  (k.holder.any fun l => l.tile == t && l.uid == c.uid) && (k.ending.isEmpty || k.ending.contains c.seq)
    && match c.op with
      | .mlease => false
      | .mrel => earlier.isEmpty
      | .mloadw => reed.all fun o => o.op == .mstream
      | .mswap => reed.isEmpty && stray.all fun o => o.op != .mloadw && o.op != .mstream
      | .mdrain => reed.isEmpty && stray.isEmpty
      | _ => reed.isEmpty

/-- The lease returns to the tail of the queue for another tile's, or is renewed (R258). -/
def leasePass (s : State) (c : Nat) (l : Lease) : State :=
  let k := s.cluster c
  if k.leaseQ.any fun o => o.tile != l.tile then
    (s.setCluster c { k with holder := none, leaseQ := k.leaseQ ++ [l], ending := [] }).leaseGrant c
  else (s.setCluster c { k with grantAt := s.cycle, count := 0, ending := [] }).after 4096 (.leaseRearbitrate c)

/-- Re-arbitration (R258): after the 64th command, or 4,096 cycles after the grant; the commands that run then complete first. -/
def leaseTurn (s : State) (c : Nat) : State :=
  let k := s.cluster c
  match k.holder with
  | none => s
  | some l =>
    if k.count < 64 && s.cycle < k.grantAt + 4096 then s
    else if !(k.leaseQ.any fun o => o.tile != l.tile) then s.leasePass c l
    else if 64 ≤ k.count && k.ending.isEmpty then s.leasePass c l
    else
      let running := ((s.cmdsOf l.tile).filter fun o => o.registered && CmdOp.kind o.op == .reedbed && s.reedReady l.tile o).map fun o => o.seq
      if running.isEmpty then s.leasePass c l else s.setCluster c { k with ending := running }

/-- The commands of a tile that ran alongside one that has just ended: an MLOADW beside an earlier MSTREAM, or the reverse
(R264). -/
def runsBeside (s : State) (t : Nat) (c : Cmd) : List Nat :=
  ((s.cmdsOf t).filter fun o => o.registered && s.reedReady t o &&
    ((o.op == .mstream && c.op == .mloadw && o.seq < c.seq) || (o.op == .mloadw && c.op == .mstream && c.seq < o.seq))).map fun o => o.seq

/-- A Reedbed command has ended: it counts toward re-arbitration, and the last of those that run on past it lets the lease
pass (R258). -/
def reedEnded (s : State) (t : Nat) (c : Cmd) : State :=
  let i := clusterOf t
  let k := s.cluster i
  match k.holder with
  | some l =>
    if l.tile != t || l.uid != c.uid then s
    else
      let left := removeNat c.seq k.ending
      let s := s.setCluster i { k with count := k.count + 1, ending := left }
      if !k.ending.isEmpty && left.isEmpty then s.leasePass i l
      else if k.ending.isEmpty && 64 ≤ k.count + 1 then
        let beside := s.runsBeside t c
        if beside.isEmpty || !(k.leaseQ.any fun o => o.tile != t) then s.after 0 (.leaseRearbitrate i)
        else s.setCluster i { k with count := k.count + 1, ending := beside }
      else s
  | none => s

end State

/-! ## Planes and streams (R262, R263) -/

/-- Element c of a row of w-bit elements. -/
def rowElem (w : Nat) (bs : List Byte) (c : Nat) : Nat := leNat bs >>> (w * c) % 2 ^ w

/-- The zero flags of a plane, by 16×16 block in row order (R262). -/
def zeroFlags (wfmt k n : Nat) (weights : List Nat) : List Bool :=
  (List.range 64).map fun b => (List.range 256).all fun i =>
    let r := 16 * (b / 8) + i / 16
    let c := 16 * (b % 8) + i % 16
    k ≤ r || n ≤ c || zeroWeight wfmt (weights.getD (r * n + c) 0)

def onShadow (t : Nat) (f : Plane → Plane) : Eng Unit :=
  modify fun s => s.setCluster (clusterOf t) { s.cluster (clusterOf t) with shadow := f (s.cluster (clusterOf t)).shadow }

/-- MLOADW: a fresh shadow plane, a unit for each weight row, then the scales and the zero flags (R262). What it has not read when
it faults stays as the fresh plane has it, and a fault in the scales has the index K (DESIGN CHOICE, log 100). -/
def loadPlan (t : Nat) (c : Cmd) : Eng (List (Eng Unit)) := do
  let s ← get
  let x := s.tile t
  let k := x.geoK
  let n := x.geoN
  let wfmt := wordWfmt x.fmtWord
  let w := vcvtWidth wfmt
  let wsc := bit x.fmtWord 1
  let stride := c.params.getD 0 0
  let blank : Plane := { loaded := true, tile := t, wfmt := wfmt, afmt := wordAfmt x.fmtWord, wsc := wsc, asc := bit x.fmtWord 0,
                         k := k, n := n, weights := List.replicate (k * n) (zeroPattern wfmt), scales := [],
                         zeros := List.replicate 64 true }
  onShadow t fun _ => blank
  let row := fun (i : Nat) => (do
    let va := c.a + BitVec.ofNat 64 i * stride
    let len := ceilDiv (n * w) 8
    engRun c.a va len
    let bs ← engRead t c va len
    let vs := (List.range n).map (rowElem w bs)
    onShadow t fun p => { p with weights := p.weights.take (i * n) ++ vs ++ p.weights.drop ((i + 1) * n) } : Eng Unit)
  let last : Eng Unit := do
    if wsc then
      let g := ceilDiv k 32
      engRun c.b c.b (n * g)
      let bs ← engRead t c c.b (n * g)
      onShadow t fun p => { p with scales := bs.map fun b => b.toNat }
    onShadow t fun p => { p with zeros := zeroFlags wfmt k n p.weights }
  return (List.range k).map row ++ [last]

/-- One streamed row's activations as patterns, with its scales (R263, R268). Through a handle whose vfmt is not the active plane's
format, the patterns are read at vfmt's width and taken in the plane's format (DESIGN CHOICE, log 98). -/
def activations (t : Nat) (c : Cmd) (p : Plane) (scaleAddr : Word) (r : Nat) : Eng (List Nat × List Nat) := do
  let w := vcvtWidth p.afmt
  let acts ← (match c.handle with
    | none => do
      let va := c.a + BitVec.ofNat 64 r * c.params.getD 1 0
      let len := ceilDiv (p.k * w) 8
      engRun c.a va len
      let bs ← engRead t c va len
      return (List.range p.k).map (rowElem w bs)
    | some line => do
      let h := handleOf line
      if h.rows ≤ c.a.toNat + r then throw (.fault 0x03)
      rowValues t c h (c.a.toNat + r) p.k : Eng (List Nat))
  if p.asc then
    let g := ceilDiv p.k 32
    let bs ← engRead t c (scaleAddr + BitVec.ofNat 64 (r * g)) g
    return (acts, bs.map fun b => b.toNat)
  else return (acts, [])

/-- The sum that a plane delivers for column col of a row: +0 where it holds no weights of this tile (R141, R263). -/
def delivered (p : Plane) (own : Bool) (acts ascales : List Nat) (col : Nat) : Nat :=
  if !own || p.n ≤ col then 0
  else
    let g := ceilDiv p.k 32
    columnSum p.afmt p.wfmt ((List.range p.k).map fun k =>
      (acts.getD k 0, p.weights.getD (k * p.n + col) 0,
        if p.asc then some (ascales.getD (k / 32) 255) else none,
        if p.wsc then some (p.scales.getD (col * g + k / 32) 255) else none)) none

/-- MSTREAM: a unit for each row; its sums are added into the window (R142, R263). -/
def streamPlan (t : Nat) (c : Cmd) : Eng (List (Eng Unit)) := do
  let s ← get
  let p := (s.cluster (clusterOf t)).active
  let own := p.loaded && p.tile == t
  let x := s.tile t
  let n := x.geoN
  let win := c.params.getD 2 0
  let acc := bit (c.params.getD 3 0) 0
  if !own then set (s.onTile t fun x => { x with lost := true })
  return (List.range c.b.toNat).map fun r => do
    let (acts, scales) ← activations t c p x.scaleAddr r
    let at_ := win + BitVec.ofNat 64 (512 * r)
    let old ← if acc then engRead t c at_ (4 * n) else pure (List.replicate (4 * n) 0)
    let new := (List.range n).flatMap fun col =>
      leBytes 4 (add32 (leNat ((old.drop (4 * col)).take 4)) (delivered p own acts scales col))
    engWrite t c at_ new

namespace State

/-! ## Issue (R247, R417) -/

/-- The lease check, after the others (R247 check 5). -/
def needLease (s : State) (k : State → State) : State := if s.leaseMine then k s else s.trapProt 0

/-- A Reedbed command without operands. -/
def reedPlain (s : State) (op : CmdOp) (e : BitVec 3) (sc : Stall) : State :=
  if s.ordered then s.trapIllegal
  else s.gate [] [.e e] fun s =>
    s.needLease fun s => s.issueCmd op e [] 0 0 [] none [] sc id

/-- MLEASE (R257): at once complete for a context that holds or has requested the lease. -/
def mlease (s : State) (e : BitVec 3) (sc : Stall) : State :=
  if s.ordered then s.trapIllegal
  else s.gate [] [.e e] fun s =>
    if s.leaseMine then s.issueDone .mlease e [] 0 0 [] none sc
    else
      let l : Lease := { tile := s.here, uid := s.cx.task.uid, lq := s.cx.task.lq, granted := false, leaving := false }
      s.issueCmd .mlease e [] 0 0 [] none [] sc fun s =>
        let k := s.cluster (clusterOf l.tile)
        s.setCluster (clusterOf l.tile) { k with leaseQ := k.leaseQ ++ [l] }

/-- MFMT and MGEO. -/
def reedWord (s : State) (op : CmdOp) (e : BitVec 3) (a : Reg) (bs : List Reg) (set_ : BitVec 3) (ok : Word → Bool) (sc : Stall) : State :=
  if s.ordered then s.trapIllegal
  else s.gate ((a :: bs).map .w) [.e e] fun s =>
    let x := s.rd a
    let y := (bs.head?.map s.rd).getD 0
    let params := (s.tile s.here).reed[set_.toNat].toList
    if !ok x then s.trapIllegal
    else s.needLease fun s => s.issueCmd op e (a :: bs) x y params none [] sc id

/-- A span of rows: refused in scratchpad, or its range (R247, R273). -/
def rowsSide (s : State) (va stride : Word) (count len : Nat) : Option LockRange :=
  let reach := ((count : Int) - 1) * stride.toInt
  let lo := min 0 reach
  let hi := max 0 reach
  let r := s.lockRange (va + BitVec.ofInt 64 lo) ((hi - lo).toNat + len) false
  match vclass va with
  | .scratch off => if s.spanOk off lo (hi + len) then some r else none
  | .memory | .nonCanonical => some r

/-- MLOADW (R420, R421). -/
def mloadw (s : State) (e : BitVec 3) (a b : Reg) (set_ : BitVec 3) (sc : Stall) : State :=
  if s.ordered then s.trapIllegal
  else s.gate [.w a, .w b] [.e e] fun s =>
    let va := s.rd a
    let vb := s.rd b
    let t := s.here
    let params := (s.tile t).reed[set_.toNat].toList
    let v := s.reedView t s.cx.task.uid (s.tile t).cmdSeq
    let scales : Option (List LockRange) :=
      if bit v.fmt 1 then (s.rowsSide vb 0 1 (v.n * ceilDiv v.k 32)).map fun r => [r] else some []
    match s.rowsSide va (params.getD 0 0) v.k (ceilDiv (v.n * vcvtWidth (wordWfmt v.fmt)) 8), scales with
      | none, _ => s.trapProt va
      | some _, none => s.trapProt vb
      | some r, some rs => s.needLease fun s => s.issueCmd .mloadw e [a, b] va vb params none (r :: rs) sc id

/-- MSTREAM (R422, R423): its spans and scales are those of the plane it will find active (R263, R273). -/
def mstream (s : State) (e : BitVec 3) (a b : Reg) (src : EngSrc) (sc : Stall) : State :=
  let regs := match src with | .set _ => [] | .handle n => [RegRef.h n]
  if s.ordered then s.trapIllegal
  else s.gate ([.w a, .w b] ++ regs) [.e e] fun s =>
    let va := s.rd a
    let rows := (s.rd b).toNat
    let t := s.here
    let x := s.tile t
    let set_ := match src with | .set n => n.toNat | .handle _ => 0
    let params := (x.reed.toList.getD set_ (Vector.replicate 4 0)).toList
    let line : Option Line := match src with | .set _ => none | .handle n => some s.cx.h[n.toNat]
    let v := s.reedView t s.cx.task.uid x.cmdSeq
    let n := v.n
    let p := v.active
    let win := params.getD 2 0
    let badMap := 65535 < rows || match line with
      | some h => !handleOk h || handleVfmt h != wordAfmt v.fmt
      | none => false
    if rows == 0 then s.needLease fun s => s.issueDone .mstream e [a, b] va (s.rd b) params line sc
    else if badMap then s.trapIllegal
    else if win.toNat % 64 != 0 then s.trapAlign win 64
    else
      let window := 512 * (rows - 1) + 4 * n
      let winOk := match vclass win with | .scratch off => s.spanOk off 0 window | .memory | .nonCanonical => false
      let acts := match line with
        | some _ => some []
        | none => (s.rowsSide va (params.getD 1 0) rows (ceilDiv (p.k * vcvtWidth p.afmt) 8)).map fun r => [r]
      let scales := if p.asc then [s.lockRange v.scale (rows * ceilDiv p.k 32) false] else []
      match winOk, acts with
      | false, _ => s.trapProt win
      | true, none => s.trapProt va
      | true, some rs =>
        s.needLease fun s => s.issueCmd .mstream e [a, b] va (s.rd b) params line (rs ++ scales ++ [s.lockRange win window true]) sc id

end State

/-- MLEASE (R416). -/
def execMlease (e : BitVec 3) (sc : Stall) (s : State) : Result := .next (s.mlease e sc)
/-- MREL (R416). -/
def execMrel (e : BitVec 3) (sc : Stall) (s : State) : Result := .next (s.reedPlain .mrel e sc)
/-- MFMT (R418). -/
def execMfmt (e : BitVec 3) (a b : Reg) (set : BitVec 3) (sc : Stall) (s : State) : Result :=
  .next (s.reedWord .mfmt e a [b] set fmtWordOk sc)
/-- MGEO (R419). -/
def execMgeo (e : BitVec 3) (a : Reg) (set : BitVec 3) (sc : Stall) (s : State) : Result :=
  .next (s.reedWord .mgeo e a [] set geoWordOk sc)
/-- MLOADW (R420). -/
def execMloadw (e : BitVec 3) (a b : Reg) (set : BitVec 3) (sc : Stall) (s : State) : Result := .next (s.mloadw e a b set sc)
/-- MSWAP (R416). -/
def execMswap (e : BitVec 3) (sc : Stall) (s : State) : Result := .next (s.reedPlain .mswap e sc)
/-- MSTREAM (R422). -/
def execMstream (e : BitVec 3) (a b : Reg) (src : EngSrc) (sc : Stall) (s : State) : Result := .next (s.mstream e a b src sc)
/-- MDRAIN (R416). -/
def execMdrain (e : BitVec 3) (sc : Stall) (s : State) : Result := .next (s.reedPlain .mdrain e sc)

/-- A lease is granted (R257). -/
def execLeaseGrant (cluster : Nat) (s : State) : Result := .next (s.leaseGrant cluster)
/-- A lease is re-arbitrated (R258). -/
def execLeaseRearbitrate (cluster : Nat) (s : State) : Result := .next (s.leaseTurn cluster)

end Sys2Proof.Machine
end

