-- ==== Sys2Proof/Machine/Paging.lean ====
section
/-!
DEFINITION. Page control (R170, R455..R458), the migration of blocks (R53, R168, R169, R320), and what finishes by itself:
page-ins (R165, R166) and pulls (R168).
-/
namespace Sys2Proof.Machine

namespace State

/-! ## Dispatch room (R54) -/

/-- The user contexts of a tile that hold tasks, of one launch or of all. -/
def taken (s : State) (t : Nat) (of : Nat → Bool) : List (Nat × Ctx) :=
  s.ctxs.filter fun (k, c) => k / 32 == t && k % 32 != 16 && c.status != .free && of c.task.lq

/-- The lowest free user slot of a tile. -/
def freeSlot (s : State) (t : Nat) : Option Nat := leastFree ((s.taken t fun _ => true).map fun e => e.1 % 32) 0 16

/-- A slot that a task of a launch may take: a free one within the launch's cap. -/
def slotFor (s : State) (t lq : Nat) : Option Nat :=
  if (s.launch lq).cap ≤ (s.taken t fun q => q == lq).length then none else s.freeSlot t

/-! ## Page commands at issue (R170) -/

/-- SPPIN's b[63] (R170). -/
def unpins (op : CmdOp) (b : Word) : Bool := match op with
  | .sppin => bit b 63
  | _ => false

/-- The pages of a range. -/
def pagesOf (off count : Nat) : List Nat := (List.range count).map fun i => off / 2048 + i

/-- The pages of a command (R170). -/
def cmdPages (c : Cmd) : List Nat := pagesOf (windowOff c.a) c.b.toNat

/-- The pages of an outstanding SPPIN that an unpin issued after it names: they do not stay pinned (R170). -/
def unpinned (c : Cmd) (p : Nat) : Bool := c.params.contains (BitVec.ofNat 64 p)

/-- Pages pinned on a tile, with those that outstanding SPPINs of its blocks will pin (R167). -/
def pinsOn (s : State) (t : Nat) : List (Nat × Nat) :=
  let now := s.blocks.flatMap fun (b, x) =>
    (x.pages.filter fun (_, p) => p.pin && (if p.st == .framed then p.tile == t else x.tile == t)).map fun (n, _) => (b, n)
  let coming := s.tiles.vals.flatMap fun x => x.cmds.vals.flatMap fun c =>
    if c.op == .sppin && s.blockTile c.blk == t then ((cmdPages c).filter fun p => !unpinned c p).map fun p => (c.blk, p) else []
  (now ++ coming).eraseDups

/-- The workspace pages of a block's tasks in contexts. -/
def workHeld (s : State) (b : Nat) : List Nat :=
  (s.ctxs.filter fun (k, c) => hasPage k c && c.task.blk == b).map fun (_, c) => workPage c

/-- Unpin pages, also those that an SPPIN issued before has still to pin (R170). -/
def unpin (s : State) (blk : Nat) (pages : List Nat) : State :=
  let s := pages.foldl (fun s p => match (s.block blk).pages.get? p with
    | some x => s.setPage blk p { x with pin := false }
    | none => s) s
  { s with tiles := s.tiles.mapVals fun _ x => { x with cmds := x.cmds.mapVals fun _ c =>
      if c.op == .sppin && c.blk == blk then
        { c with params := c.params ++ (pages.filter (cmdPages c).contains).map fun p => BitVec.ofNat 64 p }
      else c } }

/-- The system context outside its handler (R456). -/
def outsideHandler (s : State) : Bool := s.inSystem && !pswInh s.cx.psw

/-- SPMAP, SPFREE, SPPIN and SPFLUSH (R170, R455, R456). -/
def pageIssue (s : State) (op : CmdOp) (e : BitVec 3) (a b : Reg) (sc : Stall) : State :=
  if (s.ordered && op == .spfree) || s.outsideHandler then s.trapIllegal
  else s.gate [.w a, .w b] [.e e] fun s =>
    let va := s.rd a
    let vb := s.rd b
    let blk := s.cx.task.blk
    let unpin := unpins op vb
    let count := if unpin then bits vb 0 32 else vb.toNat
    match vclass va with
      | .memory | .nonCanonical => s.trapProt va
      | .scratch off =>
        if off % 2048 != 0 then s.trapAlign va 2048
        else if s.myLaunch.sppages < off / 2048 + count then s.trapProt va
        else if op == .spfree && count != 0 && (off < s.myBlock.xb || (pagesOf off count).any (s.workHeld blk).contains) then s.trapProt va
        else
          let pins := s.pinsOn (s.blockTile blk)
          let fresh := (pagesOf off count).filter fun p => !pins.contains (blk, p)
          if op == .sppin && !unpin && count != 0 && frameCount (s.tile (s.blockTile blk)) - 32 < pins.length + fresh.length then
            s.trapProt va
          else if unpin then
            (if (freeEntry (s.tile s.here)).isNone then s.wait .resource
            else (s.issueDone op e [a, b] va vb [] none sc).unpin blk (pagesOf off count))
          else if count == 0 then s.issueDone op e [a, b] va vb [] none sc
          else s.issueCmd op e [a, b] va vb [] none [] sc id

/-! ## SPMIG (R53, R168, R169, R320) -/

/-- Some context of the block holds or has requested a Reedbed lease (R320). -/
def blockLeased (s : State) (b : Nat) : Bool :=
  s.ctxs.any fun (k, c) => c.status != .free && c.task.blk == b && s.hasLease (k / 32) c.task.uid

/-- A move of a Resident block starts (R53). -/
def startMove (s : State) (b target : Nat) : State :=
  if (s.block b).st != .resident then s
  else
    let busy := s.ctxs.any fun (k, c) => k % 32 != 16 && c.task.blk == b && c.task.ord && c.status != .free
    s.onBlock b fun x => { x with st := if busy then .draining else .stopping, target := target, stopAt := s.cycle }

/-- The user contexts that hold tasks of a block, in ascending slot order. -/
def blockCtxs (s : State) (b : Nat) : List (Nat × Ctx) :=
  s.ctxs.filter fun (k, c) => k % 32 != 16 && c.status != .free && c.task.blk == b

/-- SPMIG; k of its promise is counted at issue (R170). One that names the block's current tile while the block moves is a second
SPMIG and completes with the first (R169, row 2 before row 1: DESIGN CHOICE, log 82). -/
def spmig (s : State) (e : BitVec 3) (a : Reg) (sc : Stall) : State :=
  if s.ordered || s.outsideHandler then s.trapIllegal
  else s.gate [.w a] [.e e] fun s =>
    let target := s.rd a
    let b := s.cx.task.blk
    let k : Word := BitVec.ofNat 64 (s.blockCtxs b).length
    if !s.live target.toNat || !s.myLaunch.tiles.contains target.toNat then s.trapProt target
    else if s.blockLeased b then s.trapProt 0
    else if target.toNat == s.blockTile b && (s.block b).st == .resident then s.issueDone .spmig e [a] target 0 [] none sc
    else
      let t := s.here
      match freeEntry (s.tile t) with
      | none => s.wait .resource
      | some _ => s.issueCmd .spmig e [a] target 0 [k] none [] sc fun s => s.startMove b target.toNat

/-! ## Pulls (R165, R168) -/

/-- Move a Remote page to a frame of the block's tile; none while no frame can be taken. Its other marks stay. The tile that the
page leaves wakes (R88). -/
def pullPage (s : State) (b p : Nat) : Option State :=
  let x := s.page b p
  let t := s.blockTile b
  if x.st != .framed || x.tile == t then some s
  else match s.takeFrame t b with
    | none => none
    | some (s, f) =>
      let old := frameBase x.tile x.frame
      let new := frameBase t f
      let cells := (Cells.range s.frames old 2048).map fun (k, v) => (k - old + new, v)
      let frames := Cells.writeCells (Cells.clear (Cells.clear s.frames new 2048) old 2048) cells
      let bad := s.frameBad.map fun e => if e == (x.tile, x.frame) then (t, f) else e
      some ((({ s with frames := frames, frameBad := bad }).setPage b p { x with tile := t, frame := f }).wakeTile x.tile)

/-- Start the next pull of a block: it locks its page (R168). -/
def nextPull (s : State) (b : Nat) : State :=
  let x := s.block b
  match x.st, x.pulls with
  | .resident, p :: _ => (s.setPage b p { s.page b p with lock := true }).later (.pagePullDone b p)
  | .draining, p :: _ => (s.setPage b p { s.page b p with lock := true }).later (.pagePullDone b p)
  | _, _ => s

/-- A Remote page arrives on the block's tile, and the next pull starts. -/
def pullDone (s : State) (b p : Nat) : State :=
  match s.blocks.get? b with
  | none => s
  | some _ =>
    match s.pullPage b p with
    | none => s.later (.pagePullDone b p)
    | some s =>
      ((s.setPage b p { s.page b p with lock := false }).onBlock b fun y => { y with pulls := removeNat p y.pulls }).nextPull b

/-! ## The thread-context store (R78) -/

/-- The entries of a tile's store that are taken: by the system context (R502), the tasks in user slots, and kept workspaces (R22,
R78). -/
def storeTaken (s : State) (t : Nat) : Nat := 1 + (s.taken t fun _ => true).length + (s.tile t).tcs.length

/-- The store's 20 entries are taken. -/
def storeFull (s : State) (t : Nat) : Bool := 20 ≤ s.storeTaken t

/-- A kept workspace awaits no result, so that it may leave the store (R68). -/
def mayLeave (s : State) (uid : Nat) : Bool := (s.kept.get? uid).all fun c => c.results.isEmpty

/-- n more workspaces may come into the store now: those it writes back for them, the least recently used, await no result (R68,
R78). -/
def storeTakes (s : State) (t n : Nat) : Bool :=
  let x := s.tile t
  (x.tcs.drop (x.tcs.length - (s.storeTaken t + n - 20))).all fun e => s.mayLeave e.1

/-- The least recently used kept workspace is written back where no entry is spare. -/
def storeMake (s : State) (t : Nat) : State := if s.storeFull t then s.onTile t fun x => { x with tcs := x.tcs.dropLast } else s

/-! ## The move (R168) -/

/-- Cycles of one workspace's transfer (R168). -/
def moveCycles (t u : Nat) : Nat := 48 + hops t u + (if dieOf t == dieOf u then 0 else 60)

/-- A context stands at an instruction boundary in this cycle (R53, R68): its last instruction has completed, and what it has
issued outside the tile too, and the appends its stream ports buffer are performed (R437). One that waits for a page stands there at once (R169). -/
def atBoundary (s : State) (c : Ctx) : Bool :=
  (match c.status with
    | .free | .halted => true
    | .ready | .waiting .entry => decide (c.next ≤ s.cycle)
    | .waiting w => !outside (.waiting w))
  && (c.busy.all fun b => decide (b.until_ ≤ s.cycle))
  && !(c.results.any fun p => match p.reg with | .e _ => true | .w _ | .v _ | .m _ | .h _ => false)
  && !(s.stores.any fun p => p.port.isSome && p.uid == c.task.uid)

/-- A context of a Stopping block that halts now (R53, R67). -/
def haltDue (s : State) (k : Nat) (c : Ctx) : Bool :=
  k % 32 != 16 && c.status != .free && c.status != .halted && (s.block c.task.blk).st == .stopping && s.atBoundary c

def haltCtx (s : State) (k : Nat) : State := s.onCtx k fun c => { c with status := .halted }

/-- Every context of a Stopping block has halted, what its workspaces await has landed in them (R68), and its SPMIGs have registered
(R53). -/
def canMove (s : State) (b : Nat) : Bool :=
  (s.block b).st == .stopping && (s.blockCtxs b).all (fun e => e.2.status == .halted && e.2.results.isEmpty)
    && s.kept.all (fun (_, c) => c.task.blk != b || c.results.isEmpty)
    && !(s.tiles.any fun (_, t) => t.cmds.any fun (_, c) => c.op == .spmig && c.blk == b && !c.registered)

/-- The block is Moving: the workspaces go one after another to the target's store, and ownership moves in the cycle after the
last (R168). -/
def beginMove (s : State) (b : Nat) : State :=
  let x := s.block b
  let d := (s.blockCtxs b).foldl (fun n e => n + moveCycles (e.1 / 32) x.target) 0
  (s.onBlock b fun x => { x with st := .moving }).afterOn x.tile (d + 1) (.blockMove b)

/-- A halted context on a slot of the target; fetched-ahead elements are dropped (R437). -/
def movedCtx (c : Ctx) (at_ : Nat) : Ctx :=
  { c with ahead := [], fetchBuf := [], busy := [], got := [], next := at_
           ctxf := setBit c.ctxf 16 false
           status := if c.heldFault.isSome then .waiting .deferred else .waiting .entry }

/-- Take one context: to a slot of the target, where it goes on four cycles later, or to its queue as a resumable record, sent
and received (R168). Its workspace takes an entry of the target's store, which writes one back for it where none is spare (R78). -/
def moveCtx (s : State) (target : Nat) (e : Nat × Ctx) : State :=
  match s.slotFor target e.2.task.lq with
  | some slot =>
    let wait := if s.storeFull target then 52 else 4
    ((s.storeMake target).vacate e.1).setCtx (ctxKey target slot) (movedCtx e.2 (s.cycle + s.span target wait))
  | none =>
    let (s, r) := (s.storeMake target).keep e.1
    let s := (s.tcsDrop r.uid).onTile target fun x => { x with tcs := (r.uid, r.lq) :: x.tcs }
    (s.countSent target r.lq).arrive target r (some s.cycle)

/-- Workspace pages become Framed on the target (R168); none while a frame is wanting (R167). -/
def moveWork (s : State) (b : Nat) : List Nat → Option State
  | [] => some s
  | p :: ps => (s.pullPage b p).bind fun s => s.moveWork b ps

/-- Kept workspaces of a block that moves are written back from the old tile's store (R78). -/
def storeLeft (s : State) (b : Nat) : State :=
  let ours := fun (uid : Nat) => (s.kept.get? uid).any fun c => c.task.blk == b
  s.onTile (s.blockTile b) fun x => { x with tcs := x.tcs.filter fun e => !ours e.1 }

/-- The remaining Framed pages of a block that has moved, in the order of their pulls: pinned ones first (R168). -/
def pullOrder (s : State) (b : Nat) : List Nat :=
  let x := s.block b
  let away := x.pages.filter fun e => e.2.st == .framed && e.2.tile != x.tile
  (away.filter fun e => e.2.pin).map (·.1) ++ (away.filter fun e => !e.2.pin).map (·.1)

/-- Ownership moves (R168): the tasks take slots, the tickets complete, the pulls begin. A page that is locked is transferred
first (R169), a workspace page waits for its frame (R167), and an entry of the target's store for what it still awaits (R68). -/
def blockMove (s : State) (b : Nat) : State :=
  let x := s.block b
  if x.st != .moving then s
  else
    let again := s.after 1 (.blockMove b)
    if (x.pages.any fun (_, p) => p.lock) || !s.storeTakes x.target (s.blockCtxs b).length then again
    else
      let cs := s.blockCtxs b
      let work := s.workHeld b
      let s := (s.storeLeft b).onTile x.tile fun y => { y with stlb := y.stlb.filter fun e => e.1 != b }
      match (s.onBlock b fun x => { x with tile := x.target, st := .resident }).moveWork b work with
      | none => again
      | some s =>
        let s := cs.foldl (fun s e => s.moveCtx x.target e) s
        let s := s.onBlock b fun y => { y with pulls := s.pullOrder b }
        let ends := s.tiles.flatMap fun (t, y) => (y.cmds.filter fun (_, c) => c.op == .spmig && c.blk == b).map fun (e, _) => (t, e)
        (ends.foldl (fun s e => s.endCmd e.1 e.2 none) s).nextPull b

/-! ## Page-in (R165, R166) -/

/-- A page-in ends: the page is Resident, or the failure waits for the replayed access; it waits for the launch's Peat
budget (R56) and for a frame (R167). -/
def pageIn (s : State) (b p : Nat) : State :=
  match s.blocks.get? b with
  | none => s
  | some x =>
    if !(s.page b p).lock then s
    else if s.overBudget x.lq 1 then s.after (s.nextPeriod - s.cycle) (.pageInDone b p)
    else match (s.charge x.lq 1).bringIn b p with
      | none => s.later (.pageInDone b p)
      | some s => s

end State

/-- A page of a command's range is locked: the command waits (R165, R170). -/
def pageLocked (c : Cmd) (p : Nat) : Eng Unit := do
  let s ← get
  if (s.page c.blk p).lock then throw .wait

/-- Bring one page Resident (R165): from its slot or zero-filled, which waits for the launch's Peat budget (R56), or pulled. -/
def pageBring (c : Cmd) (p : Nat) : Eng Unit := do
  pageLocked c p
  let s ← get
  match s.pageFail c.blk p with
  | some f => throw (.fault f.cause)
  | none =>
    let there := (s.page c.blk p).st == .framed
    if !there && s.overBudget c.lq 1 then throw .wait
    let s := if there then s else s.wakeSystem (s.blockTile c.blk)
    match (s.pullPage c.blk p).bind fun s => s.bringIn c.blk p with
    | none => throw .wait
    | some s =>
      let s := if there then s else s.charge c.lq 1
      set (s.onBlock c.blk fun y => { y with pulls := removeNat p y.pulls })

/-- One page of a page command (R170). -/
def pageUnit (c : Cmd) (p : Nat) : Eng Unit := do
  match c.op with
  | .spfree => do
    pageLocked c p
    modify fun s => s.freePage c.blk p
  | .sppin => do
    pageBring c p
    modify fun s => s.setPage c.blk p { s.page c.blk p with pin := !State.unpinned c p }
  | .spflush => do
    pageLocked c p
    modify fun s =>
      let s := match s.ownerOf c.blk p with | some k => s.syncOut k | none => s
      let x := s.page c.blk p
      if x.st == .framed && x.dirty && codePages (s.launch c.lq) ≤ p then
        (s.frameToMem (frameBase x.tile x.frame) (s.slotAt c.blk p)).setPage c.blk p { x with dirty := false }
      else s
  | _ => pageBring c p

/-- The pages of a page command, in order (R170). -/
def pagePlan (c : Cmd) : List (Eng Unit) := (State.cmdPages c).map (pageUnit c)

/-- SPMAP (R170). -/
def execSpmap (e : BitVec 3) (a b : Reg) (sc : Stall) (s : State) : Result := .next (s.pageIssue .spmap e a b sc)
/-- SPFREE (R170). -/
def execSpfree (e : BitVec 3) (a b : Reg) (sc : Stall) (s : State) : Result := .next (s.pageIssue .spfree e a b sc)
/-- SPPIN (R170). -/
def execSppin (e : BitVec 3) (a b : Reg) (sc : Stall) (s : State) : Result := .next (s.pageIssue .sppin e a b sc)
/-- SPMIG (R168). -/
def execSpmig (e : BitVec 3) (a : Reg) (sc : Stall) (s : State) : Result := .next (s.spmig e a sc)
/-- SPFLUSH (R170). -/
def execSpflush (e : BitVec 3) (a b : Reg) (sc : Stall) (s : State) : Result := .next (s.pageIssue .spflush e a b sc)
/-- A page-in ends (R165). -/
def execPageInDone (blk page : Nat) (s : State) : Result := .next (s.pageIn blk page)
/-- A pull ends (R168). -/
def execPagePullDone (blk page : Nat) (s : State) : Result := .next (s.pullDone blk page)
/-- A Stopping block begins to move, or a Moving one's ownership moves (R168). -/
def execBlockMove (blk : Nat) (s : State) : Result := .next (if s.canMove blk then s.beginMove blk else s.blockMove blk)

end Sys2Proof.Machine
end

