-- ==== Sys2Proof/Machine/Complete.lean ====
section
/-!
DEFINITION. How an outstanding command is performed and ends: complete, cancelled or faulted (R170, R251, R253, R255, R264).
-/
namespace Sys2Proof.Machine

namespace State

/-- An earlier page command still stands over one of this command's pages (R170). -/
def pageOrder (s : State) (c : Cmd) : Bool :=
  let mine := cmdPages c
  s.tiles.vals.any fun x => x.cmds.vals.any fun o =>
    CmdOp.kind o.op == .page && o.op != .spmig && o.blk == c.blk && (o.issued < c.issued || (o.issued == c.issued && o.seq < c.seq))
      && (cmdPages o).any mine.contains

/-- The budget whose end makes a command wait (R56): Heron's. A page-in that a command needs waits for Peat's by itself. -/
def budgetOf (op : CmdOp) : Option Nat := match CmdOp.kind op with
  | .heron => some 2
  | .page | .reedbed | .lode => none

/-- A command may be performed now: no earlier command's range holds it at its engine (R231), and what it must follow is
complete. -/
def cmdReady (s : State) (t : Nat) (c : Cmd) : Bool :=
  !s.heldByRange t c && match CmdOp.kind c.op with
  | .reedbed => s.reedReady t c
  | .page => !s.pageOrder c
  | .heron => s.heronReady t c
  | .lode => true

def cmdDeferred (s : State) (c : Cmd) : Bool := match budgetOf c.op with
  | some i => s.overBudget c.lq i
  | none => false

/-- A Reedbed command has been performed: it counts toward re-arbitration (R258). -/
def afterReed (s : State) (t : Nat) (c : Cmd) : State := if CmdOp.kind c.op == .reedbed then s.reedEnded t c else s

end State

/-- The units of a command whose effect is a sequence of rows, runs or pages. -/
def cmdPlan (t : Nat) (c : Cmd) : Eng (List (Eng Unit)) :=
  match c.op with
  | .mloadw => loadPlan t c
  | .mstream => streamPlan t c
  | .gather | .scatter | .scatterAdd => heronPlan t c
  | .hld | .hst => return (match c.handle with | some line => imagePlan t c line | none => [])
  | .cpy | .cpy2 | .cpy3 => lodePlan t c
  | .spmap | .spfree | .sppin | .spunpin | .spflush => return pagePlan c
  | .mlease | .mrel | .mfmt | .mgeo | .mswap | .mdrain | .spmig => return []

namespace State

/-- The effect of a command without units (R257, R259, R260, R263). -/
def plainEffect (s : State) (t : Nat) (c : Cmd) : State :=
  match c.op with
  | .mrel => s.leaseDrop t c.uid
  | .mfmt => s.onTile t fun x => { x with fmtWord := c.a, scaleAddr := c.b }
  | .mgeo => s.onTile t fun x => { x with geoK := bits c.a 0 7 + 1, geoN := bits c.a 8 7 + 1 }
  | .mswap =>
    let k := s.cluster (clusterOf t)
    s.setCluster (clusterOf t) { k with active := k.shadow, shadow := k.active }
  | _ => s

/-- What a cancellation leaves beside the units performed (R253); an MLOADW that no lease will ever serve touches no plane. The
commands issued under a request that is so withdrawn stand until the task leases again (DESIGN CHOICE, log 79). -/
def cancelEffect (s : State) (t : Nat) (c : Cmd) : State :=
  match c.op with
  | .mlease => s.leaseDrop t c.uid
  | .mloadw =>
    let k := s.cluster (clusterOf t)
    if s.leaseKnown t c.uid then s.setCluster (clusterOf t) { k with shadow := k.shadow.zeroed } else s
  | _ => s

/-- A command that ends at the start of this cycle, and so completes in the one before, is cancelled only if the cancellation
came in an earlier cycle (R256). -/
def cut (s : State) (c : Cmd) : Bool := c.cancel.any fun at_ => at_ + 1 < s.cycle

/-- Perform a command's units: all of them, or as many as a cancellation lets begin (a free choice, log 2). -/
def runCmd (s : State) (t : Nat) (c : Cmd) : EngEnd :=
  match (cmdPlan t c).run.run s with
  | (.error why, s) => why.at_ 0 s
  | (.ok us, s) => if s.cut c then runUnits (us.take (s.choose (us.length + 1))) 0 s.tick else runUnits us 0 s

/-- A command that has begun is performed and ends; one that cannot be performed yet is looked at again. -/
def commandDone (s : State) (t entry : Nat) : State :=
  match (s.tile t).cmds.get? entry with
  | none => s
  | some c =>
    if !c.registered || c.op == .spmig then s
    else if s.cut c && !s.cmdReady t c && (c.op != .mloadw || !s.leaseKnown t c.uid) then
      ((s.endCmd t entry none).cancelEffect t c).afterReed t c
    else if !s.cmdReady t c then s.later (.commandComplete t entry)
    else if s.cmdDeferred c then s.after (s.nextPeriod - s.cycle) (.commandComplete t entry)
    else match s.runCmd t c with
      | .wait after why => ((s.keepPages c after).tick.engHeld t entry why).later (.commandComplete t entry)
      | .fault s cause i => ((s.endCmd t entry (some (cause, i))).afterReed t c)
      | .done s =>
        let s := match budgetOf c.op with | some i => s.charge c.lq i | none => s
        let s := if s.cut c then s.cancelEffect t c else s.plainEffect t c
        (s.endCmd t entry none).afterReed t c

end State

/-- A command completes, faults or is cancelled (R251). -/
def execCommandComplete (tile entry : Nat) (s : State) : Result := .next (s.commandDone tile entry)

end Sys2Proof.Machine
end

