-- ==== Sys2Proof/Machine/Sched.lean ====
section
/-!
DEFINITION. The tile scheduler: dispatch (R48, R54, R55, R65, R76, R161), arriving and waiting records (R57), balancing (R58),
pre-emption (R286..R288), traps that the system context takes (R285, R502), power gating (R88) and budget periods (R56).
-/
namespace Sys2Proof.Machine

namespace State

/-! ## Tiebreakers (R48) -/

/-- The ordered tasks to which the tile gave a tiebreaker and that have neither committed nor become Gone (R48). -/
def numberedLeft (s : State) (t lq : Nat) : List Nat :=
  (s.tileLaunch t lq).numbered.filter fun u => (s.specs.get? u).isSome || (s.recordsOf lq).any fun p => p.1.uid == u

/-- AssignTb: the tiebreaker and the counter after it; none while the task cannot be numbered. -/
def assignTb (s : State) (t : Nat) (r : TaskRec) : Option (BitVec 32 × Nat) :=
  let ctr := (s.tileLaunch t r.lq).ctr
  if r.tb != 0 then some (r.tb, ctr)
  else
    let p := bits r.ptb 12 20
    let c := max ctr p + 1
    let restart := 0xFFFFF < c && (s.numberedLeft t r.lq).isEmpty
    let c := if restart then p + 1 else c
    if c ≤ 0xFFFFF then some (BitVec.ofNat 32 (c * 4096 + t), c)
    else if s.atGvt t r.lq (rankOf r) then some (r.ptb + 1, if restart then 0 else ctr)
    else none

/-! ## Dispatch (R54, R55, R161) -/

def specsOn (s : State) (t : Nat) : List Spec := s.specs.vals.filter fun y => y.tile == t

/-- The task of greatest virtual time. -/
def lastOf (xs : List Spec) : Option Spec := leastBy (fun x y => y.before x) xs

/-- The signature slots of a tile (R31, R181). -/
def sigSlots : Nat := 80

/-- The task holds a signature slot on the tile, or one is free (R54, R181). -/
def sigFree (s : State) (t : Nat) (r : TaskRec) : Bool :=
  (s.specs.get? r.uid).any (fun y => y.tile == t) || (s.specsOn t).length < sigSlots

/-- The tasks that hold or have reserved one of a tile's 64 finished-record places: Finished and Running ones (R31, R54). -/
def placesOn (s : State) (t : Nat) : List Spec := (s.specsOn t).filter fun y => y.st != .queued

/-- A signature slot and a finished-record place for an ordered task (R54): free ones, or those of the Finished task it would
displace. -/
def placeFor (s : State) (t : Nat) (r : TaskRec) : Option (Option Nat) :=
  if !r.ord then some none
  else if (s.placesOn t).length < 64 then (if s.sigFree t r then some none else none)
  else match lastOf ((s.placesOn t).filter fun y => y.st == .finished && y.task.lq == r.lq) with
    | some y => if rankOf r < rankOf y.task && !s.restoreHeld y.task.uid then some (some y.task.uid) else none
    | none => none

/-- The block takes this task (R53). -/
def blockTakes (s : State) (t : Nat) (r : TaskRec) : Bool :=
  let b := s.block r.blk
  b.tile == t && (b.st == .resident || (b.st == .draining && !r.ord))

/-- The task's workspace stands in the tile's thread-context store (R78). -/
def inStore (s : State) (t : Nat) (r : TaskRec) : Bool := r.res && (s.tile t).tcs.any fun e => e.1 == r.uid

/-- The task's workspace has an entry of the store, or may take one now (R68, R78). -/
def storeRoom (s : State) (t : Nat) (r : TaskRec) : Bool := s.inStore t r || s.storeTakes t 1

/-- A queued task that could take a slot now (R48, R54, R78, R161); one that Wisp repairs stays stopped (R196). -/
def dispatchable (s : State) (t : Nat) (r : TaskRec) : Bool :=
  s.blockTakes t r && !s.inRepair r.uid && (r.res || (s.freeWork r.blk).isSome) && (s.placeFor t r).isSome && s.storeRoom t r
    && (!r.ord || (s.assignTb t r).isSome)

/-- The records a tile may dispatch, in order of arrival: its queue, then its spilled records (R57). -/
def waitingAt (s : State) (t : Nat) : List TaskRec := (s.tile t).queue ++ (s.tile t).spilled.map fun e => e.rec_

/-- The running launches, by priority and then oldest start (R55). -/
def launchOrder (s : State) : List Launch :=
  sortBy (fun (a b : Launch) => b.prio < a.prio || (a.prio == b.prio && a.started < b.started)) s.launches.vals

def lowestRank (xs : List TaskRec) : Option TaskRec := leastBy (fun a b => rankOf a < rankOf b) xs

/-- The choice between a launch's dispatchable tasks (R55). -/
def pickKind (s : State) (t lq : Nat) (xs : List TaskRec) : Option TaskRec :=
  let ords := xs.filter fun r => r.ord
  let frees := xs.filter fun r => !r.ord
  if ords.isEmpty then frees.head?
  else if frees.isEmpty then lowestRank ords
  else if (s.tileLaunch t lq).lastKind.getD false then frees.head? else lowestRank ords

/-- A launch may take a context of the tile, a context about to be freed not counted (R54, R287). -/
def capLeft (s : State) (t : Nat) (l : Launch) (spare : Option Nat) : Bool :=
  ((s.taken t fun q => q == l.lq).filter fun e => some e.1 != spare).length < l.cap

/-- NextTask (R55). -/
def nextTask (s : State) (t : Nat) (spare : Option Nat) : Option TaskRec :=
  let xs := s.waitingAt t
  if xs.isEmpty then none
  else (s.launchOrder.filter fun l => s.capLeft t l spare).findSome? fun l =>
    s.pickKind t l.lq (xs.filter fun r => r.lq == l.lq && s.dispatchable t r)

end State

/-- psw at task start (R74). -/
def startPsw (l : Launch) (r : TaskRec) : Word :=
  BitVec.ofNat 64 (l.clamp.toNat * 2 ^ 15 + (r.ord && l.rep).toNat * 2 ^ 9 + r.ord.toNat * 2 ^ 8 + l.chk.toNat * 2 ^ 3)

/-- The workspace of a task that starts (R76). -/
def startCtx (l : Launch) (r : TaskRec) (wp : Word) : Ctx :=
  let w := (Ctx.reset.w.set 55 (if r.ord then r.ts else 0)).set 60 (BitVec.ofNat 64 (2 ^ 62 + r.blk))
  let arg := fun (i : Nat) => r.args.getD i 0
  let w := ((((w.set 56 (arg 0)).set 57 (arg 1)).set 58 (arg 2)).set 59 (arg 3)).set 63 wp
  { Ctx.reset with w := w, pc := BitVec.ofNat 24 r.entry, psw := startPsw l r, task := r }

namespace State

/-- Take a record out of a tile's queue, or out of its spill element, which goes back to its pool (R57). -/
def takeRecord (s : State) (t : Nat) (r : TaskRec) : State :=
  let x := s.tile t
  if x.queue.any fun q => q.uid == r.uid then s.onTile t fun x => { x with queue := x.queue.filter fun q => q.uid != r.uid }
  else match x.spilled.find? fun e => e.rec_.uid == r.uid with
    | none => s
    | some e =>
      (s.onTile t fun x => { x with spilled := x.spilled.filter fun q => q.rec_.uid != r.uid }).devicePut t r (s.launch r.lq).spill e.elem

/-- The signature slot of an ordered task: a new one with nothing in it, or its own, which moves with it to another tile (R51,
R181). It keeps the arguments the task was sent with, which a resumable record no longer carries and an abort with requeue needs
again (R200, R468). Of several dispatches of one task, the latest gives the cycle by which R47 orders equal virtual times (DESIGN
CHOICE, log 83). -/
def takeSpec (s : State) (t : Nat) (r : TaskRec) (c : Ctx) : State :=
  if !r.ord then s
  else
    let slot := (leastFree ((s.specsOn t).map fun y => y.slot) 0 sigSlots).getD 0
    match s.specs.get? r.uid with
    | some y =>
      let s := if y.tile == t then s else s.specMove r.uid t
      s.onSpec r.uid fun z => { z with
        task := { r with args := z.task.args }, st := .running, slot := if y.tile == t then z.slot else slot, since := s.cycle }
    | none =>
      let y : Spec :=
        { task := r, asid := (s.launch r.lq).asid, tile := t, st := .running, slot := slot, since := s.cycle, rsig := 0,
          wsig := 0, undo := [], elems := [], used := 0, plain := [], syms := [], cons := [], sstores := [], sspawns := [],
          held := [], unlogged := false, repairing := false, pending := false, elig := bit c.psw 9 }
      { s with specs := s.specs.set r.uid y }

/-- The cycles until a dispatched task's workspace is in the store: 48 to write back the least recently used kept one when no
entry is spare, 48 for a kept workspace to come in (R78). -/
def storeCycles (s : State) (t : Nat) (r : TaskRec) : Nat :=
  if s.inStore t r then 0 else (if s.storeFull t then 48 else 0) + (if r.res then 48 else 0)

/-- The task's workspace takes an entry of the store. -/
def storeTake (s : State) (t : Nat) (r : TaskRec) : State :=
  if s.inStore t r then s.onTile t fun x => { x with tcs := x.tcs.filter fun e => e.1 != r.uid } else s.storeMake t

/-- The earliest issue of a task that takes a slot: its workspace has come, and the stall of the slot's last issue is over (R69,
R78, R88). -/
def firstIssue (s : State) (t slot cost : Nat) : Nat :=
  max (s.cycle + max (s.span t cost) 1) (((s.tile t).slotNext.get? slot).getD 0)

/-- A record is dispatched: the counter and the last kind follow, and the tile has numbered a task that came without a tiebreaker
(R48, R55). A dispatch under R65 sets the last kind as any other does (DESIGN CHOICE, log 84). -/
def dispatchedOn (s : State) (t : Nat) (r : TaskRec) (ctr : Nat) : State :=
  let numbered := if r.ord && r.tb == 0 then insertNat r.uid (s.numberedLeft t r.lq) else s.numberedLeft t r.lq
  (s.onTileLaunch t r.lq fun x => { x with ctr := ctr, numbered := numbered, lastKind := some r.ord }).onTile t fun x =>
    { x with roomFor := x.roomFor.filter fun u => u != r.uid }

/-- A task takes a slot (R51, R52, R76, R78, R161). -/
def seat (s : State) (t slot : Nat) (r : TaskRec) : State :=
  let l := s.launch r.lq
  let s := match s.placeFor t r with
    | some (some u) => s.abortAll [(u, true)] []
    | _ => s
  let s := s.takeRecord t r
  let (tb, ctr) := if r.ord then (s.assignTb t r).getD (r.tb, 0) else (r.tb, (s.tileLaunch t r.lq).ctr)
  let s := s.dispatchedOn t r ctr
  let wp := if r.res then r.args.getD 0 0 else windowVa (2048 * (s.freeWork r.blk).getD 0)
  let cost := s.storeCycles t r
  let next := s.firstIssue t slot cost
  let s := s.storeTake t r
  let r := { r with tb := tb }
  let c := if r.res then s.resumed r else startCtx l r wp
  let r := { r with res := false }
  let c := { c with task := r, dispatched := s.cycle, sliceStart := s.cycle, preempt := false, next := next
                    status := if cost == 0 then .ready else .waiting .entry }
  let s := (s.takeSpec t r c).setCtx (ctxKey t slot) c
  let s := { s with kept := s.kept.erase r.uid }
  let s := (s.setWs r.blk (windowOff wp / 2048) true).onLaunch r.lq fun l => { l with lastSent := s.cycle }
  let s := if (s.page r.blk (windowOff wp / 2048)).st == .framed then s else s.pageFault r.blk (windowOff wp / 2048)
  if cost == 0 then s else s.afterOn t cost (.workspaceMoveDone t slot)

/-! ## Room for the earliest task (R65) -/

/-- The conditions under which pre-emption waits (R287). A workspace whose page is still on its way to a frame is coming in too
(DEDUCED, log 105). -/
def notPreemptible (s : State) (k : Nat) : Bool :=
  let c := s.ctx k
  let page := s.page c.task.blk (workPage c)
  page.lock || page.st != .framed || pswInh c.psw || c.heldFault.isSome || (s.block c.task.blk).st != .resident
    || (c.status == .waiting .entry && s.cycle < c.next)
    || s.hasLease (k / 32) c.task.uid

/-- The task is its launch's earliest unfinished ordered task. -/
def isEarliest (s : State) (t : Nat) (r : TaskRec) : Bool := r.ord && s.atGvt t r.lq (rankOf r)

/-- Abort the last of some tasks with requeue, passing over those whose restores must wait. -/
def abortLast (s : State) (xs : List Spec) : Option State :=
  (lastOf (xs.filter fun y => !s.restoreHeld y.task.uid)).map fun y => s.abortAll [(y.task.uid, true)] []

/-- The most recently dispatched of some contexts that may be pre-empted (R65). -/
def newestOf (s : State) (xs : List (Nat × Ctx)) : Option (Nat × Ctx) :=
  leastBy (fun (a b : Nat × Ctx) => b.2.dispatched < a.2.dispatched) (xs.filter fun e => !s.notPreemptible e.1)

/-- Mark a context for pre-emption; none if it is marked already. -/
def preemptMark (s : State) (e : Nat × Ctx) : Option State :=
  if e.2.preempt then none else some (s.setCtx e.1 { e.2 with preempt := true })

/-- Those of the lowest priority among some launches' holders. -/
def ofLowest (s : State) (lqs : List Nat) : List Nat :=
  let p := (lqs.map fun q => (s.launch q).prio).foldl min 31
  lqs.filter fun q => (s.launch q).prio == p

/-- The Running ordered tasks of a launch on a tile. -/
def orderedOn (s : State) (t lq : Nat) : List Spec :=
  let on := s.taken t fun _ => true
  s.specs.vals.filter fun y => y.st == .running && y.task.lq == lq && on.any fun x => x.2.task.uid == y.task.uid

/-- A context for the earliest task (R65); candidates that R287 excludes are passed over. -/
def roomSlot (s : State) (t : Nat) (e : TaskRec) : Option State :=
  let on := s.taken t fun _ => true
  let running := s.orderedOn t e.lq
  if !running.isEmpty then s.abortLast running
  else match s.newestOf (on.filter fun x => x.2.task.lq == e.lq && !x.2.task.ord) with
    | some x => s.preemptMark x
    | none =>
      if (s.freeSlot t).isSome then none
      else
        let others := on.filter fun x => x.2.task.lq != e.lq && (s.launch x.2.task.lq).prio ≤ (s.launch e.lq).prio
          && !s.isEarliest t x.2.task && !s.notPreemptible x.1
        let low := s.ofLowest (others.map fun x => x.2.task.lq)
        (s.newestOf (others.filter fun x => low.contains x.2.task.lq)).bind s.preemptMark

/-- A signature slot, or a finished-record place, taken from one of its holders for the earliest task (R65). Among other launches
of equal lowest priority, the holder of the highest rank gives it up (DESIGN CHOICE, log 85). -/
def roomPlace (s : State) (t : Nat) (e : TaskRec) (on : List Spec) : Option State :=
  let mine := on.filter fun y => y.task.lq == e.lq && y.task.uid != e.uid
  if !mine.isEmpty then s.abortLast mine
  else
    let others := on.filter fun y => y.task.lq != e.lq && !s.isEarliest t y.task
    let low := s.ofLowest (others.map fun y => y.task.lq)
    s.abortLast (others.filter fun y => low.contains y.task.lq)

/-- A workspace page for the earliest task. -/
def roomWork (s : State) (t : Nat) (e : TaskRec) : Option State :=
  s.abortLast ((s.waitingAt t).filterMap fun r => if r.lq == e.lq && r.ord && r.res then s.specs.get? r.uid else none)

/-- Room for each resource the earliest task lacks, then its dispatch into the room made; none while nothing can be done. While it
lacks a workspace page that only the launch's resumable free tasks can free, a context is made free for it once, and those tasks
take the contexts that come free (DEDUCED, log 66). -/
def makeRoom (t : Nat) (e : TaskRec) : Nat → State → Option State
  | 0, s => some s
  | n + 1, s =>
    let go := fun (x : Option State) => x.bind fun s' =>
      let s' := s'.onTile t fun y => { y with roomFor := some e.uid }
      some ((makeRoom t e n s').getD s')
    let noWork := !e.res && (s.freeWork e.blk).isNone
    match s.slotFor t e.lq with
    | none =>
      if noWork && (s.orderedOn t e.lq).isEmpty then
        match s.roomWork t e with
        | some s => go (some s)
        | none => if (s.tile t).roomFor == some e.uid then none else go (s.roomSlot t e)
      else go (s.roomSlot t e)
    | some slot =>
      if (s.placeFor t e).isNone then go (s.roomPlace t e (if s.sigFree t e then s.placesOn t else s.specsOn t))
      else if noWork then go (s.roomWork t e)
      else if !s.storeRoom t e then none
      else if (s.assignTb t e).isSome then some (s.seat t slot e)
      else none

/-- The earliest task of a launch, queued on a tile whose block would take it. -/
def earliestAt (s : State) (t : Nat) : Option TaskRec :=
  (s.waitingAt t).find? fun r => s.isEarliest t r && s.blockTakes t r && !s.inRepair r.uid

/-- The earliest task is Queued on a tile that cannot dispatch it, or room has been made for it (R65). -/
def lacks (s : State) (t : Nat) (e : TaskRec) : Bool :=
  (s.slotFor t e.lq).isNone || !s.dispatchable t e || (s.tile t).roomFor == some e.uid

/-- A queued record whose block has moved goes after it, as a task message (R42). -/
def stray (s : State) (t : Nat) : Option TaskRec := (s.tile t).queue.find? fun r => s.recordTile r.blk != t

/-- One dispatch choice of a tile; none when it has nothing to do. The earliest task comes first where it lacks something (R65). -/
def dispatchChoice (s : State) (t : Nat) : Option State :=
  if (s.waitingAt t).isEmpty then none
  else match s.stray t with
    | some r => some ((s.onTile t fun x => { x with queue := x.queue.filter fun q => q.uid != r.uid }).sendRecord t r)
    | none =>
      match ((s.earliestAt t).filter (s.lacks t)).bind fun e => makeRoom t e 5 s with
      | some s => some s
      | none => ((s.freeSlot t).bind fun slot => (s.nextTask t none).map fun r => (slot, r)).map fun x => s.seat t x.1 x.2

/-- A record with the fields it was sent with: a resumable one has given up its arguments (R468). -/
def asSent (s : State) (r : TaskRec) : TaskRec := if r.res then ((s.specs.get? r.uid).map fun y => y.task).getD r else r

/-! ## Records (R57) -/

/-- A kill key meets the resumable record of a kept task as it arrives: the task becomes Gone (R51, R201); none while a restore
of its undo has to wait. -/
def killArriving (s : State) (t : Nat) (r : TaskRec) (sent : Nat) (k : KillKey) : Option State :=
  if s.restoreHeld r.uid then none
  else
    let s := (s.countReceived t r.lq (some sent)).setWs r.blk (windowOff (r.args.getD 0 0) / 2048) false
    let s := s.abortAll [(r.uid, false)] []
    some (if k.one.isSome then s.useKey k else s)

/-- A record arrives at the tile it was sent to, or goes on to the tile on which its block now sits (R42). -/
def recordArrives (s : State) (t : Nat) (r : TaskRec) (sent : Nat) : State :=
  if (s.blocks.get? r.blk).isSome && s.recordTile r.blk != t then s.later (.taskRecordArrive (s.recordTile r.blk) r sent)
  else match (if r.res then (s.tile t).kills.find? fun k => k.hits (s.asSent r) else none) with
    | some k => (s.killArriving t r sent k).getD (s.later (.taskRecordArrive t r sent))
    | none => s.arrive t r (some sent)

/-- The handler of a launch's failing spill pool has not returned on this tile (R57, R285). -/
def spillHandling (s : State) (t lq : Nat) : Bool :=
  let x := s.tile t
  (x.trapQ ++ x.trapWait).any (fun i => i.lq == lq) ||
    (let c := s.ctx (ctxKey t 16); c.task.lq == lq && !restingSys c)

/-- A record that waited for a spill element tries again once its handler has returned. -/
def retrySpill (s : State) (t : Nat) : Option State :=
  ((s.tile t).spillWait.find? fun p => !s.spillHandling t p.1.lq).map fun p =>
    (s.onTile t fun x => { x with spillWait := x.spillWait.erase p }).letIn t p.1 p.2

/-- A record that waits at the inbound port enters the queue; while there is no room for it, one of another launch that waited for a
spill element passes it. -/
def admitRecord (s : State) (t : Nat) : Option State :=
  let x := s.tile t
  match x.inbound with
  | (r, counted) :: rest =>
    if x.queue.length < 256 then
      some ((s.onTile t fun x => { x with inbound := rest, queue := x.queue ++ [r] }).countReceived t r.lq counted)
    else s.retrySpill t
  | [] => s.retrySpill t

/-- A spilled record may come back in this cycle: from 192 queued records or fewer until the queue is full (R57). -/
def replayDue (s : State) (t : Nat) : Bool :=
  let x := s.tile t
  !x.spilled.isEmpty && x.queue.length < 256 && (x.replaying || x.queue.length ≤ 192) && x.replayed < s.cycle

/-- The oldest spilled record comes back through the loop-back port, one per cycle (R57). -/
def replay (s : State) (t : Nat) : State :=
  match (s.tile t).spilled with
  | [] => s
  | e :: rest =>
    let s := s.onTile t fun x =>
      { x with spilled := rest, queue := x.queue ++ [e.rec_], replaying := !rest.isEmpty && x.queue.length < 255, replayed := s.cycle }
    s.devicePut t e.rec_ (s.launch e.rec_.lq).spill e.elem

/-! ## Balancing (R58) -/

/-- The lowest-numbered Resident block of a launch on a tile. -/
def residentBlock (s : State) (lq t : Nat) : Option Nat :=
  (s.blocks.find? fun (_, b) => b.lq == lq && b.tile == t && b.st == .resident).map (·.1)

/-- The records that balancing may move to a neighbour, in the order they are taken. -/
def movable (s : State) (t n : Nat) : List TaskRec :=
  let xs := (s.tile t).queue.filter fun r => !r.pin && !r.dir && !r.res && (s.residentBlock r.lq n).isSome
  sortBy (fun (a b : TaskRec) => rankOf b < rankOf a) (xs.filter fun r => r.ord).reverse ++ (xs.filter fun r => !r.ord).reverse

def moveRecords (s : State) (t n : Nat) : List TaskRec → State
  | [] => s
  | r :: rs =>
    match s.residentBlock r.lq n with
    | none => s.moveRecords t n rs
    | some b =>
      let s := s.onTile t fun x => { x with queue := x.queue.filter fun q => q.uid != r.uid }
      (s.sendRecord t { r with blk := b }).moveRecords t n rs

/-- One tile's part of an exchange: north, east, south, west, from the samples. -/
def balanceTile (s : State) (t : Nat) : State :=
  [0, 1, 2, 3].foldl (fun s d => match s.neighbour t d with
    | none => s
    | some n =>
      let own := (s.tile t).sample
      let other := (s.tile n).sample
      if other < own then s.moveRecords t n ((s.movable t n).take ((own - other) / 4)) else s) s

/-! ## Pre-emption (R286..R288) -/

/-- The slice count has reached the slice (R286). -/
def sliceDue (s : State) (k : Nat) (c : Ctx) : Bool :=
  let l := s.launch c.task.lq
  l.slice != 0 && k % 32 != 16 && c.status != .free && !c.preempt
    && s.clockAt (k / 32) c.sliceStart + l.slice ≤ s.clockAt (k / 32) s.cycle

/-- The count starts again, or the context is to be pre-empted (R287). -/
def sliceEnd (s : State) (k : Nat) : State :=
  let c := s.ctx k
  if !s.sliceDue k c then s
  else if (s.nextTask (k / 32) (some k)).isSome then s.setCtx k { c with preempt := true }
  else s.setCtx k { c with sliceStart := s.cycle }

/-- A marked context may be pre-empted now (R68, R287). -/
def preemptDue (s : State) (k : Nat) (c : Ctx) : Bool :=
  c.preempt && c.status != .free && s.atBoundary c && !s.notPreemptible k

/-- Pre-emption (R288). -/
def preemptNow (s : State) (k : Nat) : State :=
  let c := s.ctx k
  if !s.preemptDue k c then s
  else
    let s := s.onSpec c.task.uid fun y => { y with st := .queued }
    let (s, r) := s.keep k
    s.arrive (s.recordTile r.blk) r none

/-! ## The system context's traps (R285, R502) -/

/-- The block for which a handler of a launch runs on a tile. -/
def handlerBlock (s : State) (t lq : Nat) : Nat :=
  match s.blocks.find? fun (_, b) => b.lq == lq && b.tile == t with
  | some (b, _) => b
  | none =>
    let l := s.launch lq
    l.blocks.getD (l.tiles.findIdx fun u => u == t) 65536

def trapReady (s : State) (t : Nat) : Bool := !(s.tile t).trapQ.isEmpty && restingSys (s.ctx (ctxKey t 16))

/-- The system context takes up the work of a launch in a block. Its registers are its own and stay, with the results it still
awaits (R68, R502); a page of another block that WPSW gave it takes them as they stand and is a workspace no longer (DESIGN
CHOICE, log 86). -/
def systemTask (s : State) (t lq : Nat) : State :=
  let k := ctxKey t 16
  let c := s.ctx k
  let blk := s.handlerBlock t lq
  let uid := if c.task.uid == 0 then s.nextUid else c.task.uid
  let leaves := hasPage k c && c.task.blk != blk
  let s := if leaves && (s.blocks.get? c.task.blk).isSome then
      (s.blockWrite c.task.blk (2048 * workPage c) c.pageBytes).setWs c.task.blk (workPage c) false
    else s
  let c := if leaves then { c with w := c.w.set 63 0 } else c
  { s with nextUid := max s.nextUid (uid + 1) }.setCtx k { c with task := { noTask with lq := lq, blk := blk, uid := uid }, pc := 0 }

/-- The next trap of the queue is entered; the oldest that found the queue full takes its place. A gated tile wakes for it (R88;
DEDUCED, log 87). -/
def systemTrap (s : State) (t : Nat) : State :=
  let x := s.tile t
  match x.trapQ with
  | [] => s
  | i :: rest =>
    let k := ctxKey t 16
    if !s.trapReady t then s
    else
      let s := s.onTile t fun x => { x with trapQ := rest ++ x.trapWait.take (16 - rest.length), trapWait := x.trapWait.drop (16 - rest.length) }
      if (s.launches.get? i.lq).isNone then s
      else
        let s := (((s.wakeTile t).systemTask t i.lq).routeTrap k i.info)
        if (s.ctxs.get? k).isSome then s.onCtx k fun c => { c with next := max c.next (((s.tile t).slotNext.get? 16).getD 0) } else s

/-! ## Power gating (R88) -/

/-- Out of the rotation under R62. -/
def asleepCtx (c : Ctx) : Bool := match c.status with
  | .waiting .fwdEmpty | .waiting .qinEmpty | .waiting .qoutFull | .waiting .barrier | .waiting .sleep => true
  | _ => false

/-- Every context of a tile is Free or asleep, its system context idle, and nothing is Queued. -/
def quiet (s : State) (t : Nat) : Bool :=
  let x := s.tile t
  (s.ctxs.all fun (k, c) => k / 32 != t || c.status == .free || asleepCtx c || c.status == .waiting .idle)
    && (recordsAt x).isEmpty && x.trapQ.isEmpty

/-- The island controller gates the tile (R88). -/
def gate_ (s : State) (t : Nat) : State :=
  if s.quiet t && (s.tile t).idleSince + s.period ≤ s.cycle then s.onTile t fun x => { x with gated := true, l1 := [] } else s

/-- A gated tile wakes: the first issue of every slot comes 200 cycles on, also of a task that takes its slot meanwhile (R88). -/
def ungate (s : State) (t : Nat) : State :=
  if !(s.tile t).gated then s
  else
    let at_ := s.cycle + s.span t 200
    let s := s.onTile t fun x =>
      { x with gated := false, idleSince := s.cycle, slotNext := (List.range 17).foldl (fun m i => m.set i (max at_ ((m.get? i).getD 0))) x.slotNext }
    { s with ctxs := s.ctxs.mapVals fun k c => if k / 32 == t then { c with next := max c.next at_ } else c }

end State

/-- A dispatch choice (R55). -/
def execTaskDispatch (tile : Nat) (s : State) : Result := .next ((s.dispatchChoice tile).getD s)
/-- A record arrives (R57). -/
def execTaskRecordArrive (tile : Nat) (rec : TaskRec) (s : State) : Result := .next (s.recordArrives tile rec s.cycle)
/-- A waiting record is admitted (R57). -/
def execInboundRecordAdmit (tile : Nat) (s : State) : Result := .next ((s.admitRecord tile).getD s)
/-- A spilled record is replayed (R57). -/
def execSpillReplay (tile : Nat) (s : State) : Result := .next (if s.replayDue tile then s.replay tile else s)
/-- A tile balances (R58). -/
def execBalance (tile : Nat) (s : State) : Result := .next (s.balanceTile tile)
/-- A slice ends (R287). -/
def execSliceExpiry (tile slot : Nat) (s : State) : Result := .next (s.sliceEnd (ctxKey tile slot))
/-- A context is pre-empted (R288). -/
def execPreempt (tile slot : Nat) (s : State) : Result := .next (s.preemptNow (ctxKey tile slot))
/-- The system context enters a trap (R285). -/
def execSystemTrapEnter (tile : Nat) (s : State) : Result := .next (s.systemTrap tile)
/-- A tile is gated (R88). -/
def execTilePowerGate (tile : Nat) (s : State) : Result := .next (s.gate_ tile)
/-- A tile wakes (R88). -/
def execTileWake (tile : Nat) (s : State) : Result := .next (s.ungate tile)
/-- The activity budgets restart (R56). -/
def execBudgetPeriod (s : State) : Result :=
  .next { s with launches := s.launches.mapVals fun _ l => { l with spent := [0, 0, 0, 0] } }

end Sys2Proof.Machine
end

