-- ==== Sys2Proof/Machine/Tasking.lean ====
section
/-!
DEFINITION. Spawns (R450..R454, R49, R302, R337), the end and the suspension of a task (R465..R469), and commit with its
held operations (R205).
-/
namespace Sys2Proof.Machine

def aRegs : List Reg := [56, 57, 58, 59]
def hintReg : Reg := 60

namespace State

/-- The record of R451. -/
def childRecord (s : State) (off : BitVec 24) (ord : Bool) (ts : Word) (blk : Nat) : TaskRec :=
  let h := s.rd hintReg
  let par := s.cx.task
  { entry := off.toNat, blk := blk, lq := par.lq, ord := ord, pin := hintPin h, dir := hintDir h, res := false
    ts := if ord then ts else 0, tb := 0, ptb := if ord && s.ordered then par.tb else 0
    pts := if ord && s.ordered then par.ts else 0, args := aRegs.map s.rd, uid := s.nextUid }

/-- The child's timestamp (R49; Gvt as the tile takes it, log 7). -/
def childTs (s : State) (ts : Word) : Word :=
  if s.ordered then (if ts.toNat < s.cx.task.ts.toNat then s.cx.task.ts else ts)
  else
    let g : Word := BitVec.ofNat 64 (s.frontAt s.here s.cx.task.lq / 2 ^ 32)
    if ts.toNat < g.toNat then g else ts

/-- The block a hint leads to (R42), or the key that names none. -/
def hintBlock (s : State) (h : Word) : Nat ⊕ Nat :=
  let l := s.myLaunch
  if hintDir h then
    let b := hintKey h % 2 ^ 16
    if l.blocks.contains b then .inl b else .inr b
  else .inl (l.blocks.getD (place (hintKey h) l.blocks.length) 0)

/-- A remote spawn's node (R302). -/
def remoteNode (h : Word) : Nat := hintKey h / 2 ^ 16 % 2 ^ 21
def isRemote (h : Word) : Bool := hintDir h && h.toNat.testBit 37

/-- The nodes of the launch's system level (R44, R302); the reduced service has no Causeway (R308). -/
def nodeAllowed (s : State) (node : Nat) : Bool :=
  s.full && node != s.node && s.myLaunch.dmap.any fun e => e.domain == 6 && e.first ≤ node && node < e.first + e.count

/-- Send a free record to another package (R302): it counts as sent now, as received at its acknowledgement. -/
def sendRemote (s : State) (t node : Nat) (r : TaskRec) : State :=
  (({ s with outbox := s.outbox ++ [Out.remoteSpawn node r] }).countSent t r.lq).onLaunch r.lq
    fun l => { l with remoteOut := l.remoteOut + 1 }

/-- A one-child key of the parent that names these fields is still held somewhere (R201 step 7). -/
def keyHeld (s : State) (r : TaskRec) : Bool :=
  let hit := fun (k : KillKey) => k.one.isSome && k.names r
  s.killsUp.any hit || s.rounds.any (fun (_, x) => x.kills.any hit) || s.tiles.any fun (_, x) => x.kills.any hit

/-- A symbolic spawn record, or what clears eligibility instead (R191, R194, R195). -/
def recordSpawn (s : State) (tsReg : Reg) (extra : List Reg) (r : TaskRec) : State :=
  if (hintReg :: extra).any s.tagged then s.dropElig
  else if !(tsReg :: aRegs).any s.tagged then s
  else match s.mySpec with
    | none => s
    | some y =>
      if !y.elig then s
      else if y.sspawns.length < 2 then
        let x : SymSpawn := { rec_ := r, hint := s.rd hintReg, ts := s.symVal tsReg, args := aRegs.map s.symVal, step := .idle }
        s.onSpec y.task.uid fun y => { y with sspawns := y.sspawns ++ [x] }
      else s.dropElig

/-- SPAWN and SPAWNR (R451..R453). No launch has ordered tasks without an undo pool (R174), nor while bring-up is in progress,
which leaves no speculation (R33; DEDUCED, log 78). -/
def spawnOrdered (s : State) (tsReg : Reg) (extra : List Reg) (off : State → BitVec 24) (sc : Stall) : State :=
  let reads := extra ++ [tsReg] ++ aRegs ++ [hintReg]
  if s.inSystem then s.trapIllegal
  else s.gate (reads.map .w) [] fun s =>
    let h := s.rd hintReg
    let o := off s
    if o.toNat % 4 != 0 then s.trapAlign (o.setWidth 64) 4
    else if s.myLaunch.undo == 0 || !s.full then s.trapProt 0
    else if isRemote h then s.trapProt (BitVec.ofNat 64 (remoteNode h))
    else match s.hintBlock h with
      | .inr key => s.trapProt (BitVec.ofNat 64 key)
      | .inl b =>
        let r := s.childRecord o true (s.childTs (s.rd tsReg)) b
        if s.keyHeld r then s.wait .killKey
        else if !s.ordered && s.ownPending then s.wait .fence
        else
          match (if s.ordered then s.undoAppend s.cx.task.uid { kind := 2, place := s.recordTile b, val := r.ts, va := 0 }
                 else some s) with
          | none => s.wait .undo
          | some s =>
            let s := (s.recordSpawn tsReg extra r).popPorts reads
            ({ s with nextUid := s.nextUid + 1 }.sendRecord s.here r).retire sc

/-- SPAWNF and SPAWNFR (R451..R453): held to commit in an ordered task, a release in a free one. -/
def spawnFree (s : State) (extra : List Reg) (off : State → BitVec 24) (sc : Stall) : State :=
  let reads := extra ++ aRegs ++ [hintReg]
  if s.inSystem && !pswInh s.cx.psw then s.trapIllegal
  else s.gate (reads.map .w) [] fun s =>
    let h := s.rd hintReg
    let o := off s
    let finish := fun (s : State) => (({ s with nextUid := s.nextUid + 1 }.useTagged reads).popPorts reads)
    if o.toNat % 4 != 0 then s.trapAlign (o.setWidth 64) 4
    else if isRemote h then
      if !s.nodeAllowed (remoteNode h) then s.trapProt (BitVec.ofNat 64 (remoteNode h))
      else
        let r := s.childRecord o false 0 (hintKey h % 2 ^ 16)
        if s.ordered then ((finish s).onSpec s.cx.task.uid fun y => { y with held := y.held ++ [.spawnf r h] }).retire sc
        else if s.ownPending then s.wait .fence
        else ((finish s).sendRemote s.here (remoteNode h) r).retire sc
    else match s.hintBlock h with
      | .inr key => s.trapProt (BitVec.ofNat 64 key)
      | .inl b =>
        let r := s.childRecord o false 0 b
        if s.ordered then ((finish s).onSpec s.cx.task.uid fun y => { y with held := y.held ++ [.spawnf r h] }).retire sc
        else if s.ownPending then s.wait .fence
        else ((finish s).sendRecord s.here r).retire sc

/-- The pc-relative target of SPAWN and SPAWNF (R450). -/
def spawnTarget (imm : BitVec 18) (s : State) : BitVec 24 := s.cx.pc + (signExtend imm 18 <<< 2).setWidth 24

/-! ## The end and the suspension of a task -/

/-- TDONE (R466): a free task's release toward .sys; every ordered write is performed at issue. -/
def tdone (s : State) (sc : Stall) : State :=
  if s.inSystem then s.trapIllegal
  else if s.ownPending then s.wait .fence
  else if s.leavesHeld s.cx.task s.cx.regs then s.wait .speculative
  else
    let u := s.cx.task.uid
    let s := (s.issuedWith sc).onSpec u fun y => { y with st := .finished }
    { s.endTask s.cur with kept := s.kept.erase u }

/-- TABORT (R467). -/
def tabort (s : State) (sc : Stall) : State :=
  if s.inSystem || !s.ordered then s.trapIllegal
  else
    let u := s.cx.task.uid
    match s.specs.get? u with
    | none => s.trapIllegal
    | some y =>
      if y.unlogged then s.raise { TrapInfo.plain 0x09 s.myLaunch.undo 0 with sup := true }
      else if s.restoreHeld u then s.wait .undo
      else (s.issuedWith sc).abortAll [(u, false)] []

/-- TYIELD (R468). -/
def tyield (s : State) (sc : Stall) : State :=
  if s.inSystem then s.trapIllegal
  else
    let c := s.cx
    if s.hasLease s.here c.task.uid then s.trapProt 0
    else if pswInh c.psw then s.trapIllegal
    else if s.ownPending then s.wait .fence
    else if s.cx.results.any fun p => match p.reg with | .e _ => true | _ => false then s.wait .scoreboard
    else
      let s := (s.issuedWith sc).onCx fun c => { c with pc := nextPc c.pc }
      let s := s.onSpec c.task.uid fun y => { y with st := .queued }
      let (s, r) := s.keep s.cur
      s.arrive (s.recordTile r.blk) r none

/-! ## Commit (R205) -/

/-- A range of an engine command of the tile covers what a held operation names (R231). -/
def carryLocked (s : State) (t : Nat) (task : TaskRec) (va : Word) (need : Need) : Bool :=
  let hit := fun (loc : Loc) => (s.lockHit t (s.launch task.lq).asid va loc true).isSome
  match s.locate task.lq task.blk va need with
  | .inl loc => hit loc
  | .inr f => f.cause == 0x0F && f.word == 1 && hit (.mem f.val2.toNat)

/-- A held CRADD at commit (R369); not yet while its line is in transit, or a copy of it out of reach (R241). -/
def carryCradd (s : State) (t : Nat) (task : TaskRec) (va x : Word) : State × Bool :=
  match s.commRange task.lq va with
  | none => (s.deviceTrap t task 0x03, true)
  | some r =>
    if va.toNat % CrFmt.bytes r.fmt != 0 then (s.deviceTrap t task 0x02, true)
    else if s.carryLocked t task va .add then (s.deviceTrap t task 0x07, true)
    else match s.locate task.lq task.blk va .add with
      | .inr f => (s.deviceTrap t task f.cause, true)
      | .inl (.scr _ _) => (s.deviceTrap t task 0x03, true)
      | .inl (.mem pa) =>
        match s.craddAt (dieOf t) pa r.fmt x with
        | some s => (s, true)
        | none => (s.enterF (pa / 64) none, false)

/-- A held POOLPUT at commit: a free write of the header and of the element's link (R176, R184, R221, R428); not yet while a
conflict has to wait. -/
def carryPut (s : State) (t : Nat) (task : TaskRec) (x desc : Word) : State × Bool :=
  let claim := fun (s : State) (va : Word) (n : Nat) => match s.locate task.lq task.blk va .pool with
    | .inr _ => some (s, [])
    | .inl loc => s.resolve .free true loc n
  let fails := fun (va : Word) (f : PageFail) =>
    (s.deviceTrap t task (if f.cause == 0x0F && s.carryLocked t task va .pool then 0x07 else f.cause), true)
  if desc.toNat % 64 == 0 && s.carryLocked t task desc .pool then (s.deviceTrap t task 0x07, true)
  else match s.poolPut (dieOf t) task.lq task.blk desc x with
    | .inr f => fails x f
    | .inl _ =>
      if s.carryLocked t task x .pool then (s.deviceTrap t task 0x07, true)
      else match (claim s desc 64).bind fun a => (claim a.1 x 8).map fun b => (b.1, a.2 ++ b.2) with
        | some (s, reps) => ((s.devicePut t task desc x).requestRepairs reps, true)
        | none => (s, false)

/-- One held operation of a committed task, on the tile where it committed (R205), and whether it is over. -/
def carryOut (s : State) (t : Nat) (task : TaskRec) (h : HeldOp) : State × Bool :=
  match h with
  | .spawnf r hint => (if isRemote hint then s.sendRemote t (remoteNode hint) r else s.sendRecord t r, true)
  | .poolput x desc => s.carryPut t task x desc
  | .crdecl fmt base len =>
    match s.crdeclCheck task.lq fmt base len with
    | some f => (s.deviceTrap t task f.cause, true)
    | none => (if (s.declared task.lq fmt base len).isSome then s else s.crdeclStart task.lq fmt base len, true)
  | .cradd va x => s.carryCradd t task va x

/-- The trap of a held operation of the task has found its queue full: the operation waits at commit (R285). -/
def carryHeld (s : State) (t : Nat) (task : TaskRec) : Bool :=
  (s.tile t).trapWait.any fun x => x.uid == task.uid && x.info.held

/-- The held operations in program order, and those that are left while one has to wait. -/
def carryOuts (s : State) (t : Nat) (task : TaskRec) : List HeldOp → State × List HeldOp
  | [] => (s, [])
  | h :: hs =>
    if s.carryHeld t task then (s, h :: hs)
    else match s.carryOut t task h with
      | (s, true) => s.carryOuts t task hs
      | (s, false) => (s, h :: hs)

/-- The held operations of committed tasks, in order of rank (R205): a task's follow when its predecessor's are over. -/
def carryTasks (t : Nat) : List (TaskRec × List HeldOp) → State → State × List (TaskRec × List HeldOp)
  | [], s => (s, [])
  | (task, hs) :: rest, s =>
    match s.carryOuts t task hs with
    | (s, []) => if s.carryHeld t task then (s, (task, []) :: rest) else carryTasks t rest s
    | (s, left) => (s, (task, left) :: rest)

/-- Held operations that had to wait go on. -/
def carryOn (s : State) (t : Nat) : State :=
  if (s.tile t).carry.isEmpty then s
  else
    let (s, left) := carryTasks t (s.tile t).carry s
    s.onTile t fun x => { x with carry := left }

/-- The commit of one Finished task on its tile (R205): undo elements return, slot and place are freed, held operations follow. -/
def commit (s : State) (y : Spec) : State :=
  let s := { s with specs := s.specs.erase y.task.uid }.specClear y.tile
  let s := s.devicePuts y.tile y.task (s.launch y.task.lq).undo y.elems
  if y.held.isEmpty then s else (s.onTile y.tile fun x => { x with carry := x.carry ++ [(y.task, y.held)] }).carryOn y.tile

/-- A kill of the task has not been broadcast yet (R199). -/
def killOutstanding (s : State) (y : Spec) : Bool :=
  let mine := fun (k : KillKey) => k.lq == y.task.lq && k.ts == y.task.ts && k.tb == y.task.tb
  s.killsUp.any mine || s.rounds.any fun (_, r) => r.kills.any mine

end State

/-- SPAWN (R451). -/
def execSpawn (d : Reg) (imm : BitVec 18) (sc : Stall) (s : State) : Result :=
  .next (s.spawnOrdered d [] (State.spawnTarget imm) sc)
/-- SPAWNF (R451). -/
def execSpawnf (imm : BitVec 18) (sc : Stall) (s : State) : Result := .next (s.spawnFree [] (State.spawnTarget imm) sc)
/-- SPAWNR (R451). -/
def execSpawnr (a b : Reg) (sc : Stall) (s : State) : Result :=
  .next (s.spawnOrdered b [a] (fun s => (s.rd a).setWidth 24) sc)
/-- SPAWNFR (R451). -/
def execSpawnfr (a : Reg) (sc : Stall) (s : State) : Result := .next (s.spawnFree [a] (fun s => (s.rd a).setWidth 24) sc)
/-- TDONE (R466). -/
def execTdone (sc : Stall) (s : State) : Result := .next (s.gate [] [] fun s => s.tdone sc)
/-- TABORT (R467). -/
def execTabort (sc : Stall) (s : State) : Result := .next (s.gate [] [] fun s => s.tabort sc)
/-- TYIELD (R468). -/
def execTyield (sc : Stall) (s : State) : Result := .next (s.gate [] [] fun s => s.tyield sc)

end Sys2Proof.Machine
end

