-- ==== Sys2Proof/Machine/Wisp.lean ====
section
/-!
DEFINITION. Wisp: the repair of a conflicted ordered task (R192..R199, R204). A repair is one event; one that has to wait keeps
what it has done and is tried again from its start.
-/
namespace Sys2Proof.Machine

/-- How a step of a repair goes on: with a result, or the repair waits, or it is abandoned (R196, R198). What it has done so far
stays in every case. -/
inductive Repair (α : Type)
  | ok (s : State) (x : α)
  | wait (s : State)
  | abandon (s : State)

/-- The next step of a repair. -/
def Repair.next {α β : Type} (r : Repair α) (f : State → α → Repair β) : Repair β := match r with
  | .ok s x => f s x
  | .wait s => .wait s
  | .abandon s => .abandon s

/-- The value of an operand under some symbol values (R192). -/
def SymVal.under (x : SymVal) (vals : List Word) : Word := match x with
  | .sym j c => vals.getD j 0 + c
  | .val v => v

def SymCmp.test (c : SymCmp) (a b : Word) : Bool := match c with
  | .eq => a == b
  | .ne => a != b
  | .lt => Word.slt a b
  | .ge => !Word.slt a b
  | .ltu => Word.ult a b

/-- Holds(c) (R192). -/
def SymCons.holds (c : SymCons) (vals : List Word) : Bool := c.cmp.test (c.l.under vals) (c.r.under vals) == c.out

/-- StoreValue (R193). -/
def SymStore.value (t : SymStore) (vals : List Word) : Nat := (vals.getD t.sym 0 + t.c).toNat % 2 ^ (8 * t.size)

/-- The arguments of a symbolic spawn under some symbol values (R194). -/
def SymSpawn.argsUnder (p : SymSpawn) (vals : List Word) : List Word := p.args.map fun a => a.under vals

namespace State

/-- Bring in the page that a device access of a block needs (R165). -/
def reach (s : State) (die : Nat) (loc : Loc) : Option State :=
  match loc with
  | .mem _ => some (s.locReady die loc)
  | .scr b off =>
    let x := s.page b (off / 2048)
    if x.lock then none else if x.st == .framed then some s else (s.wakeSystem (s.blockTile b)).bringIn b (off / 2048)

/-- Where an access of a repair leads, once its page is there (R198): a re-read needs what a load does, a rewrite what a store
does (R158). -/
def repairAt (s : State) (y : Spec) (va : Word) (need : Need) : Repair Loc :=
  match s.locate y.task.lq y.task.blk va need with
  | .inr _ => .abandon s
  | .inl loc => match s.reach (dieOf y.tile) loc with
    | none => .wait s
    | some s => .ok s loc

/-- ReRead of one symbolic load at the task's rank (R196). -/
def reRead (s : State) (y : Spec) (x : SymLoad) : Repair (Word × Loc) :=
  (s.repairAt y x.va .read).next fun s loc =>
    match s.resolve (.ordered y.task.uid) false loc x.size with
    | none => .wait s
    | some (s, _) => .ok (s.enterRead y.task.uid loc) (signExtend (BitVec.ofNat 64 (s.locNat loc x.size)) (8 * x.size), loc)

def reReads (s : State) (y : Spec) : List SymLoad → Repair (List (Word × Loc))
  | [] => .ok s []
  | x :: xs => (s.reRead y x).next fun s v => (s.reReads y xs).next fun s vs => .ok s (v :: vs)

/-- The rewrite of one symbolic store at the task's rank: it waits on a locked range (R231), and the repairs it causes start after
it (R186, R196, R197). -/
def reStore (s : State) (y : Spec) (t : SymStore) (vals : List Word) : Repair Unit :=
  (s.repairAt y t.va .write).next fun s loc =>
    let v := t.value vals
    if v == s.locNat loc t.size then .ok s ()
    else if (s.lockHit y.tile y.asid t.va loc true).isSome then .wait s
    else match s.resolve (.ordered y.task.uid) true loc t.size with
      | none => .wait s
      | some (s, reps) => match s.logWrite y.task.uid t.va loc t.size with
        | none => .wait s
        | some s => .ok (((s.locWrite (dieOf y.tile) loc (leBytes t.size v)).enterWrite y.task.uid loc).requestRepairs reps) ()

def reStores (s : State) (y : Spec) (vals : List Word) : List SymStore → Repair Unit
  | [] => .ok s ()
  | t :: ts => (s.reStore y t vals).next fun s _ => s.reStores y vals ts

/-- The record of a symbolic spawn with its new fields (R49, R194). -/
def newRecord (y : Spec) (p : SymSpawn) (vals : List Word) : TaskRec :=
  let ts := p.ts.under vals
  { p.rec_ with ts := if ts.toNat < y.task.ts.toNat then y.task.ts else ts, args := p.argsUnder vals }

/-- The child that stands for a symbolic spawn has to go: a tagged field differs under the new values (R196), or, once this repair
has sent the child again, from what it sent. -/
def spawnStale (y : Spec) (p : SymSpawn) (old new : List Word) : Bool :=
  match p.step with
  | .idle => p.ts.under old != p.ts.under new || p.argsUnder old != p.argsUnder new
  | .killed => false
  | .sent => newRecord y p new != p.rec_

/-- Kill the children that have to go (R196, R201). -/
def killStale (s : State) (y : Spec) (old new : List Word) : State :=
  let gone := y.sspawns.filter fun p => spawnStale y p old new
  let s := gone.foldl (fun s p => s.kill y (some (p.rec_.ts, p.rec_.args))) s
  s.onSpec y.task.uid fun z => { z with
    sspawns := z.sspawns.map fun p => if spawnStale y p old new then { p with step := .killed } else p }

/-- Send the child of symbolic spawn i again if it was killed, logged as a spawn (R188, R194, R196, R201 step 7). -/
def reSend (s : State) (y : Spec) (new : List Word) (i : Nat) : Repair Unit :=
  match ((s.specs.get? y.task.uid).bind fun z => z.sspawns[i]?).filter fun p => p.step == .killed with
  | none => .ok s ()
  | some p =>
    let r := { newRecord y p new with uid := s.nextUid }
    if s.keyHeld r then .wait s
    else match s.undoAppend y.task.uid { kind := 2, place := s.recordTile r.blk, val := r.ts, va := 0 } with
      | none => .wait s
      | some s =>
        let s := { s with nextUid := s.nextUid + 1 }.sendRecord y.tile r
        .ok (s.onSpec y.task.uid fun z => { z with
          sspawns := (List.range z.sspawns.length).zipWith (fun j q => if j == i then { q with rec_ := r, step := .sent } else q) z.sspawns }) ()

def reSends (s : State) (y : Spec) (new : List Word) : List Nat → Repair Unit
  | [] => .ok s ()
  | i :: is => (s.reSend y new i).next fun s _ => s.reSends y new is

end State

/-- A tagged value under the new values of its symbol (R196). -/
def retagged (g : BitVec 3) (old new : List Word) (v : Word) : Word :=
  if g == 0 then v else v + new.getD (g.toNat % 4) 0 - old.getD (g.toNat % 4) 0

/-- Every scalar register with a tag takes the change of its symbol, and so does a result that is still on its way to such a
register (R68, R196). -/
def retag (c : Ctx) (old new : List Word) : Ctx :=
  { c with w := Vector.ofFn fun i : Fin 64 => retagged c.tag[i] old new c.w[i]
           results := c.results.map fun p => match p.reg with
             | .w r => { p with val := (retagged (c.tag.getD r.toNat 0) old new (p.val.setWidth 64)).setWidth 512 }
             | .v _ | .m _ | .h _ | .e _ => p }

namespace State

/-- A tagged scalar register of a kept workspace takes the change of its symbol where it stands, in its page. -/
def retagPage (s : State) (c : Ctx) (old new : List Word) (i : Fin 64) : State :=
  if c.tag[i] == 0 then s
  else
    let off := 2048 * workPage c + 8 * i.val
    let v : Word := BitVec.ofNat 64 (leNat (s.frameRead c.task.blk off 8))
    s.blockWrite c.task.blk off (leBytes 8 (retagged c.tag[i] old new v).toNat)

/-- The registers of the task, in its context or in its kept workspace, whose page is brought in for it (R165). -/
def retagTask (s : State) (y : Spec) (old new : List Word) : Repair Unit :=
  match s.ctxOf y.task.uid with
  | some k => .ok (s.onCtx k fun c => retag c old new) ()
  | none => match s.kept.get? y.task.uid with
    | none => .ok s ()
    | some c =>
      if c.tag.toList.all fun g => g == 0 then .ok s ()
      else match s.reach (dieOf y.tile) (.scr c.task.blk (2048 * workPage c)) with
        | none => .wait s
        | some s =>
          let s := (List.finRange 64).foldl (fun s i => s.retagPage c old new i) s
          .ok { s with kept := s.kept.set y.task.uid (retag c old new) } ()

/-- The context goes on; a held fault is dropped and its instruction issued again (R204). -/
def resume (s : State) (uid : Nat) : State :=
  match s.ctxOf uid with
  | none => s
  | some k => s.onCtx k fun c =>
    if c.status == .halted || c.heldFault.isSome then { c with status := .ready, heldFault := none, got := [], next := max c.next (s.cycle + s.span (k / 32) 1) }
    else c

/-- The steps of Repair (R196); false where a constraint fails. What a repair that waits has done stays done: when it is tried
again, a child already killed or sent again is not so a second time. -/
def repairSteps (s : State) (y : Spec) : Repair Bool :=
  (s.reReads y y.syms).next fun s vs =>
    let new := vs.map (·.1)
    let old := y.syms.map fun x => x.val
    if !(y.cons.all fun c => c.holds new) then .ok s false
    else
      ((s.killStale y old new).reStores y new y.sstores).next fun s _ =>
        (s.reSends y new (List.range y.sspawns.length)).next fun s _ => (s.retagTask y old new).next fun s _ =>
          let syms := (y.syms.zip vs).map fun (x, v) => { x with val := v.1, loc := v.2 }
          let s := s.onSpec y.task.uid fun z => { z with
            syms := syms, sspawns := z.sspawns.map fun p => { p with step := .idle } }
          .ok s true

/-- The task's context has not reached an instruction boundary yet (R68, R196). -/
def midway (s : State) (uid : Nat) : Bool := match s.ctxOf uid with
  | some k => !s.atBoundary (s.ctx k)
  | none => false

/-- The task's turn has come in its Wisp: 16 repairs run at once, the rest wait in order of request (R197). -/
def wispTurn (s : State) (uid : Nat) : Bool :=
  !(s.clusters.any fun (_, c) => ((c.repairs.filter s.inRepair).drop 16).contains uid)

/-- A repair: it succeeds, or ends in an abort with requeue; a request that came meanwhile runs it again (R197, R198). Its
service work is charged whatever its end (R56). -/
def repair (s : State) (uid : Nat) : State :=
  match s.specs.get? uid with
  | none => s
  | some y =>
    let again := fun (s : State) => s.later (.wispRepair uid)
    let fail := fun (s : State) => if s.restoreHeld uid then again s else s.abortAll [(uid, true)] []
    if !y.repairing then s
    else if !s.wispTurn uid || s.midway uid then s.after 1 (.wispRepair uid)
    else if s.overBudget y.task.lq 1 then s.after (s.nextPeriod - s.cycle) (.wispRepair uid)
    else match (s.charge y.task.lq 1).repairSteps y with
      | .wait s => again s
      | .abandon s => fail s
      | .ok s false => fail s
      | .ok s true =>
        match s.specs.get? uid with
        | none => s
        | some z =>
          if z.pending then again (s.onSpec uid fun z => { z with pending := false })
          else (s.onSpec uid fun z => { z with repairing := false }).resume uid

end State

/-- Wisp repairs a task (R196). -/
def execWispRepair (uid : Nat) (s : State) : Result := .next (s.repair uid)

end Sys2Proof.Machine
end

