-- ==== Sys2Proof/Machine/Sluice.lean ====
section
/-!
DEFINITION. Sluice rounds: the sample (R59), the broadcast (R60), kill keys (R201), held faults (R203), commit (R199, R205),
the end of a launch (R61) and the all-asleep condition (R62..R64).
-/
namespace Sys2Proof.Machine

namespace State

/-! ## The sample (R59) -/

/-- The contexts that hold tasks of a launch on a tile. -/
def ctxsOn (s : State) (t lq : Nat) : List (Nat × Ctx) := s.taken t fun q => q == lq

/-- A tile is asleep for a launch (R63). -/
def tileAsleep (s : State) (l : Launch) (t : Nat) : Bool :=
  let mine := s.ctxsOn t l.lq
  let all := s.taken t fun _ => true
  mine.isEmpty || (mine.all (fun e => asleepCtx e.2) &&
    (!((recordsAt (s.tile t)).any fun r => r.lq == l.lq) || (all.length == 16 && all.all fun e => asleepCtx e.2)))

def sum64 (xs : List (BitVec 64)) : BitVec 64 := xs.foldl (· + ·) 0

/-- What a round carries for a launch. -/
def sampleOf (s : State) (l : Launch) : RoundSum :=
  let per := s.tiles.vals.filterMap fun x => x.perLaunch.get? l.lq
  let recs := s.recordsOf l.lq
  let eng := (s.tiles.vals.map fun x => (x.cmds.vals.filter fun c => c.lq == l.lq).length).sum
  let running := s.ctxs.filter fun (k, c) => k % 32 != 16 && c.status != .free && c.task.lq == l.lq
  { minvt := s.minvt l.lq
    tsent := sum64 (per.map fun x => x.tsent), trecv := sum64 (per.map fun x => x.trecv)
    qsent := sum64 (per.map fun x => x.qsent), qrecv := sum64 (per.map fun x => x.qrecv)
    eng := eng
    idle := recs.isEmpty && running.isEmpty && eng == 0
    asleep := l.tiles.all fun t => s.tileAsleep l t
    anyAsleep := running.any fun e => asleepCtx e.2
    oldsend := minOf (recs.filterMap fun p => p.2) (2 ^ 64 - 1) }

/-- A key may go up once every spawn message sent before the kill has been acknowledged (R201 step 1). -/
def keyReady (s : State) (k : KillKey) : Bool := !((s.recordsOf k.lq).any fun p => p.2.isSome && { k with one := none, used := false }.hits p.1)

/-- The most keys that a table of 64 entries still takes, keys on their way counted (R201). -/
def keyRoom (s : State) : Nat :=
  let held := (s.tiles.vals.map fun x => x.kills.length).foldl max 0
  64 - held - (s.rounds.vals.map fun r => r.kills.length).sum

/-- The tiles that a broadcast reaches: the tile sets of the running launches. -/
def broadcastTiles (s : State) : List Nat := s.launches.vals.foldl (fun acc l => l.tiles.foldl (fun acc t => insertNat t acc) acc) []

/-- About 600 cycles after the sample, and after every earlier round (R59; log 2). -/
def broadcastAt (s : State) : Nat :=
  let last := (s.agenda.filterMap fun (t, e) => match e with | .sluiceBroadcast _ _ => some t | _ => none).foldl max 0
  max (s.cycle + 590 + Config.latency s.fresh % 20) last

/-- Round k samples at package cycle 128·k (R59). -/
def sluiceSample (s : State) : State :=
  let no := s.cycle / 128
  let ready := (s.killsUp.filter s.keyReady).take s.keyRoom
  let spent := (s.tiles.vals.flatMap fun x => x.kills.filter fun k => k.used).eraseDups
  let round : Round :=
    { no := no, at_ := s.cycle, sums := s.launches.map fun (q, l) => (q, s.sampleOf l), kills := ready, spent := spent }
  let due := s.broadcastAt
  let tiles := s.broadcastTiles
  { s with
    rounds := s.rounds.set no round
    killsUp := s.killsUp.filter fun k => !ready.contains k
    agenda := tiles.foldl (fun a t => insertDue due (.sluiceBroadcast no t) a) s.agenda
    fresh := s.fresh + 1 }

/-! ## Kill keys at a tile (R201) -/

/-- The tasks that a tile holds and a key names. -/
def keyHits (s : State) (t : Nat) (k : KillKey) : List Nat :=
  (((recordsAt (s.tile t)).filter fun r => k.hits (s.asSent r)).map fun r => r.uid)
    ++ ((s.specs.vals.filter fun y => y.tile == t && y.st != .queued && k.hits y.task).map fun y => y.task.uid)

/-- A matching task becomes Gone; none where one of its restores has to wait (R231). -/
def killTask (s : State) (uid : Nat) : Option State :=
  if (s.specs.get? uid).isSome then
    (if s.restoreHeld uid then none else some (s.abortAll [(uid, false)] []))
  else some (s.unqueue uid)

/-- Every matching task becomes Gone; false where one had to wait. -/
def killTasks : List Nat → State → State × Bool
  | [], s => (s, true)
  | u :: us, s =>
    match s.killTask u with
    | none => let (s, _) := killTasks us s; (s, false)
    | some s => killTasks us s

/-- A one-child key goes out again for the one task it has chosen. -/
def keyAgain (s : State) (k : KillKey) (uid : Nat) : State :=
  { s with killsUp := s.killsUp ++ [{ k with only := some uid, used := false }] }

/-- A key arrives at a tile: it enters the table, and the tasks it names are aborted, one of several for a one-child key (a
free choice, log 19). A task that cannot be aborted yet is looked for again by the same key; a one-child key is used up by the
choice, and goes out again for that task alone. -/
def keyArrives (s : State) (t : Nat) (k : KillKey) : State :=
  let hits := s.keyHits t k
  let s := s.onTile t fun x => { x with kills := x.kills ++ [{ k with at_ := s.cycle }] }
  match k.one, hits with
  | _, [] => s
  | some _, u :: us =>
    let v := (u :: us).getD (s.choose (us.length + 1)) u
    match s.tick.killTask v with
    | some s => s.useKey k
    | none => (s.useKey k).keyAgain k v
  | none, us =>
    let (s, all) := killTasks us s
    if all then s else { s with killsUp := s.killsUp ++ [k] }

/-! ## The broadcast at a tile (R60, R61, R64, R203) -/

/-- The next task to commit: the lowest rank below Gvt as its tile takes it among the Finished tasks of a launch that neither a
repair nor an outstanding kill holds back (R60, R199, R205; log 7). -/
def nextCommit (s : State) (lq : Nat) (top : Nat) : Option Spec :=
  let ready := s.specs.vals.filter fun y => y.task.lq == lq && y.st == .finished && !y.repairing && !s.killOutstanding y && rankOf y.task < top
  (leastBy (fun (a b : Spec) => a.before b) ready).filter fun y => rankOf y.task < s.frontAt y.tile lq

/-- Commits in ascending rank. -/
def commits (lq top : Nat) : Nat → State → State
  | 0, s => s
  | n + 1, s => match s.nextCommit lq top with
    | none => s
    | some y => commits lq top n (s.commit y)

/-- A held fault is raised when the broadcast shows its task as the earliest (R65, R203). -/
def raiseDue (s : State) (t lq : Nat) : State :=
  ((s.ctxsOn t lq).filter fun e => e.2.heldFault.isSome && s.atGvt t lq (rankOf e.2.task)
      && !((s.specs.get? e.2.task.uid).any fun y => y.repairing)).foldl (fun s e => s.raiseHeld e.1) s

/-- The all-asleep trap at the lowest tile of the tile set (R64). -/
def asleepCheck (s : State) (t lq no : Nat) (x : RoundSum) : State :=
  let l := s.launch lq
  if l.tiles.head? != some t then s
  else if x.asleep && x.anyAsleep && x.tsent == x.trecv && x.qsent == x.qrecv && x.eng == 0 then
    (if l.trapArmed && (s.tile t).trapQ.length < 16 then
      (s.sendSysTrap t (sysTrap 0x0B (BitVec.ofNat 64 lq) (BitVec.ofNat 64 no) false lq (s.handlerBlock t lq) t 0)).onLaunch lq
        fun l => { l with trapArmed := false }
    else s)
  else s.onLaunch lq fun l => { l with trapArmed := true }

/-- Two rounds in succession that report the launch at rest (R61). -/
def atRest (a b : RoundSum) : Bool :=
  a.idle && b.idle && a.tsent == a.trecv && a.qsent == a.qrecv && a.tsent == b.tsent && a.trecv == b.trecv
    && a.qsent == b.qsent && a.qrecv == b.qrecv

/-- The Finished tasks of a launch in ascending rank. -/
def finishedOf (s : State) (lq : Nat) : List Spec :=
  sortBy (fun (a b : Spec) => a.before b) (s.specs.vals.filter fun y => y.task.lq == lq && y.st == .finished)

/-- Commit some tasks in turn, whatever Gvt (R61). -/
def commitAll (ys : List Spec) (s : State) : State := ys.foldl commit s

/-- Held operations of committed tasks of a launch still wait (R205, R285). -/
def carrying (s : State) (lq : Nat) : Bool := s.tiles.any fun (_, x) => x.carry.any fun e => e.1.lq == lq

/-- The end of a launch, at the last tile that the second round reaches (R61). Held operations that have to wait hold it back. -/
def endCheck (s : State) (t lq : Nat) (r : Round) (x : RoundSum) : State :=
  let l := s.launch lq
  if l.tiles.getLast? != some t then s
  else
    let keep := fun (s : State) (p : Option Round) => s.onLaunch lq fun l => { l with prev := p }
    match l.prev with
    | none => keep s (some r)
    | some p =>
      match p.sums.get? lq with
      | none => keep s (some r)
      | some y =>
        let rest := { s with rounds := s.rounds.erase r.no }
        if !atRest y x || p.no + 1 != r.no then keep s (some r)
        else if p.at_ ≤ l.lastSent || (s.specs.vals.any fun z => z.task.lq == lq && z.repairing) || !(rest.keysOut lq).isEmpty
          then keep s none
        else
          let sends := s.specs.vals.any fun z => z.task.lq == lq && z.held.any fun h => match h with
            | .spawnf _ _ => true
            | _ => false
          let s := commitAll (s.finishedOf lq) s
          if sends || s.carrying lq then keep s none else s.finishLaunch lq 2 0 0

/-- The Gvt that the root forms from a round and broadcasts: minvt, all ones where no tile has an unfinished ordered task (R59). -/
def rootGvt (x : RoundSum) : Nat := x.minvt

/-- The launch's Gvt at a tile when a round arrives: what the root broadcasts, never decreasing (R60). -/
def nextGvt (s : State) (t lq : Nat) (x : RoundSum) : Nat := max (s.gvtAt t lq) (rootGvt x)

/-- What a Gvt of all ones stands for, a launch without an unfinished ordered task: every Finished rank is past, and where a task has
been spawned since, what ranks before it (R60, R65, R220; DEDUCED, log 7). -/
def openFront (s : State) (lq : Nat) : Nat :=
  let reached := ((s.launch lq).tiles.map fun t => s.frontAt t lq).foldl max 0
  max reached (if s.minvt lq != noRank then s.minvt lq else ((s.finishedOf lq).map fun y => rankOf y.task + 1).foldl max 0)

/-- The rank up to which the tile takes the timeline as finished when a round arrives: Gvt, but where that is all ones (log 7). -/
def nextFront (s : State) (t lq : Nat) (x : RoundSum) : Nat :=
  max (s.frontAt t lq) (if rootGvt x == noRank then s.openFront lq else rootGvt x)

/-- A broadcast arrives at a tile, for one launch. -/
def broadcastFor (s : State) (t : Nat) (r : Round) (lq : Nat) (x : RoundSum) : State :=
  match s.launches.get? lq with
  | none => s
  | some l =>
    if !l.tiles.contains t then s
    else
      let gvt := s.nextGvt t lq x
      let front := s.nextFront t lq x
      let reported := fun (k : KillKey) => k.lq == lq && (r.spent.any k.same || k.at_ < x.oldsend)
      let s := s.onTile t fun y => { y with kills := y.kills.filter fun k => !(k.lq == lq && reported k) }
      let s := (r.kills.filter fun k => k.lq == lq).foldl (fun s k =>
        s.keyArrives t (((s.rounds.get? r.no).bind fun q => q.kills.find? k.same).getD k)) s
      let s := s.onTileLaunch t lq fun y => { y with gvt := gvt, front := front }
      let s := if s.overBudget lq 0 then s else (commits lq (s.frontAt t lq) (s.specs.length) s).charge lq 0
      let s := s.raiseDue t lq
      (s.asleepCheck t lq r.no x).endCheck t lq r x

/-- A broadcast arrives at a tile (R60); after the last tile the round is over. -/
def broadcastArrives (s : State) (no t : Nat) : State :=
  match s.rounds.get? no with
  | none => s
  | some r =>
    let s := r.sums.foldl (fun s e => s.broadcastFor t r e.1 e.2) s
    if s.agenda.any fun (_, e) => match e with | .sluiceBroadcast n _ => n == no | _ => false then s
    else { s with rounds := s.rounds.erase no }

end State

/-- A sample (R59). -/
def execSluiceSample (s : State) : Result := .next s.sluiceSample
/-- A broadcast arrives (R60). -/
def execSluiceBroadcast (round tile : Nat) (s : State) : Result := .next (s.broadcastArrives round tile)

end Sys2Proof.Machine
end

