-- ==== Sys2Proof/Machine/LaunchStart.lean ====
section
/-!
DEFINITION. Launch queues (R34..R37) and the start of a launch: the checks of its record (R38, R39, R44, R160, R163, R174,
R278, R308), its block numbers (R41), and what stands when it begins (R40, R50, R164, R258, R286).
-/
namespace Sys2Proof.Machine

/-- A launch record's bytes (R38). -/
structure LRec where
  bytes : List Byte
deriving DecidableEq, Repr

/-- A field of n bytes. -/
def LRec.get (r : LRec) (off n : Nat) : Nat := leNat ((r.bytes.drop off).take n)
def LRec.word (r : LRec) (off : Nat) : Word := BitVec.ofNat 64 (r.get off 8)
def LRec.dmap (r : LRec) : List Word := (List.range 8).map fun i => r.word (0xC0 + 8 * i)
def LRec.mode (r : LRec) (i : Nat) : Bool := (r.get 0x06 2).testBit i

/-- What a good record gives: its map's entries, tile set and vector tables. -/
structure LPlan where
  entries : List DomEntry
  tiles   : List Nat
  uvec    : List (BitVec 32)
  svec    : List (BitVec 32)
deriving DecidableEq, Repr

namespace State

/-- Read bytes at a virtual address of the memory class, or nothing where the queue cannot (R39 code 6). -/
def queueRead' (s : State) (asid : Nat) (va : Word) (n : Nat) : Option Nat :=
  match vclass va with
  | .scratch _ | .nonCanonical => none
  | .memory => match s.translateNow asid va with
    | .ok pa _ rd _ => if rd && !s.anyPoisoned pa n then some pa else none
    | .fault _ | .poison _ => none

/-- A pool descriptor: none, or a header that keeps R174 with the element size asked for, if any. -/
def poolOk (s : State) (asid : Nat) (desc : Word) (esize : Option Nat) : Bool :=
  desc == 0 || (desc.toNat % 64 == 0 && match s.queueRead' asid desc 64 with
    | none => false
    | some pa => s.poolWellFormed (.mem pa) && (esize.all fun n => (s.poolAt (.mem pa)).esize == n))

/-- A vector table as R277 and R278 have it; a zero field is a table of zero words. -/
def vectorTable (s : State) (asid : Nat) (va : Word) (codesz : Nat) : Option (List (BitVec 32)) :=
  if va == 0 then some (List.replicate 32 0)
  else if va.toNat % 128 != 0 then none
  else match s.queueRead' asid va 128 with
    | none => none
    | some pa =>
      let ws := (List.range 32).map fun i => leNat (s.bytesAt (pa + 4 * i) 4)
      let ok := (List.range 32).all fun i =>
        let w := ws.getD i 0
        w == 0 || (1 ≤ i && i != 5 && i < 16 && w % 4 == 0 && w < 2 ^ 24 && w < codesz)
      if ok then some (ws.map (BitVec.ofNat 32)) else none

/-- The code image lies in host memory (R308), page by page. -/
def codeInHost (s : State) (asid : Nat) (code : Word) (codesz : Nat) : Bool :=
  (List.range (codesz / 65536 + 2)).all fun i =>
    let off := min (65536 * i) (codesz - 1)
    match vclass (code + BitVec.ofNat 64 off) with
    | .memory => (match s.translateNow asid (code + BitVec.ofNat 64 off) with
      | .ok pa _ _ _ => isHostMem pa
      | .fault _ | .poison _ => false)
    | .scratch _ | .nonCanonical => false

/-- The Peat region (R163, R308). -/
def peatOk (s : State) (r : LRec) (n : Nat) : Bool :=
  let peat := r.get 0x60 8
  let size := r.get 0x68 8
  peat != 0 && size != 0 && peat % 2048 == 0 && areaBytes (r.get 0x44 2) * n ≤ size
    && (if s.full then peat + size ≤ deviceEnd else 0x8000000000000 ≤ peat && peat + size ≤ 0xC000000000000)

/-- The checks of R39 in its order: a refusal code, or what the record gives. -/
def checkRecord (s : State) (r : LRec) : Nat ⊕ LPlan :=
  let codesz := r.get 0x40 4
  let entry := r.get 0x00 4
  let sppages := r.get 0x44 2
  let minres := r.get 0x46 2
  let asid := r.get 0x04 2
  let code := r.word 0x38
  let hint := r.word 0x30
  let entries := domEntries r.dmap
  let tiles := entries.bind s.tileSet
  let hintBad := hintDir hint && match tiles with | some ts => ts.length ≤ hintKey hint % 2 ^ 16 | none => false
  if r.get 0x06 2 / 8 != 0 || r.get 0x8C 4 != 0 || r.get 0xA0 32 != 0 || r.dmap.any (fun x => bits x 6 2 != 0) || (!s.full && (r.mode 0 || r.mode 1)) then .inl 1
  else if entry % 4 != 0 || codesz ≤ entry then .inl 2
  else if code.toNat % 2048 != 0 || codesz < 4 || 2 ^ 24 < codesz || sppages < 1 || 8192 < sppages || minres < 1 || 160 < minres
      || sppages < (codesz + 2047) / 2048 + 2 * capOf r.dmap || hintBad then .inl 3
  else match entries with
    | none => .inl 4
    | some es =>
      if !s.includesHere es then .inl 4
      else match tiles with
        | none => .inl 5
        | some ts =>
          if !s.poolOk asid (r.word 0x48) (some 64) || !s.poolOk asid (r.word 0x50) (some 256) || !s.poolOk asid (r.word 0x58) none
              || (r.mode 0 && r.word 0x50 == 0) || !s.peatOk r ts.length || (!s.full && !s.codeInHost asid code codesz) then .inl 6
          else match s.vectorTable asid (r.word 0x70) codesz, s.vectorTable asid (r.word 0x78) codesz with
            | some u, some v => .inr { entries := es, tiles := ts, uvec := u, svec := v }
            | _, _ => .inl 6

/-! ## Block numbers (R41) -/

/-- The free block numbers, from a free one upward and around (log 21). -/
def freeNumbers (s : State) : List Nat :=
  let from_ := s.choose 65536
  ((List.range 65536).map fun i => (from_ + i) % 65536).filter fun b => (s.blocks.get? b).isNone

/-- Enough numbers are free (R41), and no tile of the set has a pending SRAM split (R152). -/
def mayBegin (s : State) (tiles : List Nat) : Bool :=
  s.blocks.length + tiles.length ≤ 65536 && tiles.all fun t => (s.tile t).spReq == (s.tile t).spCur

/-! ## The start -/

/-- A block at launch start (R50, R164). -/
def newBlock (lq idx tile codesz : Nat) : Block :=
  let n := (codesz + 2047) / 2048
  { Block.none with lq := lq, idx := idx, tile := tile, xb := 2048 * n
                    pages := (List.range n).map fun p => (p, { Page.unmapped with st := .parked }) }

/-- The launch as it begins (R38, R45, R286). -/
def newLaunch (s : State) (q at_ : Nat) (r : LRec) (p : LPlan) (blocks : List Nat) : Launch :=
  let slice := r.get 0x88 4
  { lq := q, asid := r.get 0x04 2, rep := r.mode 1, chk := r.mode 2, code := r.word 0x38, codesz := r.get 0x40 4,
    sppages := r.get 0x44 2, minres := r.get 0x46 2, spill := r.word 0x48, undo := r.word 0x50, alloc := r.word 0x58,
    peat := r.get 0x60 8, uvec := p.uvec, svec := p.svec, budget := r.word 0x80,
    slice := if 1 ≤ slice && slice < 96 then 96 else slice, clamp := 1 ≤ slice && slice < 96, done := r.get 0x90 8,
    statusAt := at_ + 0x98, dmap := p.entries, prio := min 23 (s.queue q).prio, started := s.oldestStart, tiles := p.tiles,
    cap := contextCap p.entries, blocks := blocks, prev := none, lastSent := s.cycle, trapArmed := true, ranges := [],
    regions := [], spent := [0, 0, 0, 0], remoteOut := 0 }

/-- The format contexts of tiles that no running launch uses are set anew (R258). -/
def freshFormats (s : State) (tiles : List Nat) : State :=
  let used := fun (t : Nat) => s.launches.any fun (_, l) => l.tiles.contains t
  { s with tiles := s.tiles.mapVals fun t x =>
      if tiles.contains t && !used t then { x with fmtWord := 0x2200, scaleAddr := 0, geoK := 128, geoN := 128 } else x }

/-- The entry task's record (R38, R42). -/
def entryTask (s : State) (l : Launch) (r : LRec) : TaskRec :=
  let hint := r.word 0x30
  let ord := r.mode 0
  let i := if hintDir hint then hintKey hint % 2 ^ 16 else place (hintKey hint) l.blocks.length
  { entry := r.get 0x00 4, blk := l.blocks.getD i 0, lq := l.lq, ord := ord, pin := hintPin hint, dir := hintDir hint, res := false
    ts := if ord then r.word 0x28 else 0, tb := 0, ptb := 0, pts := 0
    args := (List.range 4).map fun i => r.word (0x08 + 8 * i), uid := s.nextUid }

/-- The head record of a queue. -/
def headRecord (s : State) (q : Nat) : Nat × LRec :=
  let x := s.queue q
  let at_ := x.base * 256 + 256 * (x.head.toNat % 2 ^ x.lgsize)
  (at_, { bytes := s.bytesAt at_ 256 })

/-- The queue may look at its head record (R36, R308, R309), where its memory is present (R33; log 102). -/
def queueReady (s : State) (q : Nat) : Bool :=
  let x := s.queue q
  x.map && x.en && !x.run && x.head != x.tail && (s.full || q < 4) && !s.absentMemory (s.headRecord q).1

/-- A good record starts (R36, R38..R42). -/
def startLaunch (s : State) (q at_ : Nat) (r : LRec) (p : LPlan) : State :=
  let blocks := s.freeNumbers.take p.tiles.length
  let l := s.tick.newLaunch q at_ r p blocks
  let s := s.tick.freshFormats p.tiles
  let s := { s with
    blocks := (p.tiles.zip blocks).zipIdx.foldl
      (fun (m : AMap Block) (e : (Nat × Nat) × Nat) => m.set e.1.2 (newBlock q e.2 e.1.1 l.codesz)) s.blocks
    launches := s.launches.set q l
    oldestStart := s.oldestStart + 1 }
  let s := s.onQueue q fun x => { x with head := x.head + 1, started := x.started + 1, run := true, wait := false }
  let s := s.ownWrite l.statusAt (leBytes 8 1)
  let t := s.entryTask l r
  { s with nextUid := s.nextUid + 1 }.arrive (s.recordTile t.blk) t none

/-- The head record is refused, waits (R41, R152), or starts (R36, R39). -/
def launchStart (s : State) (q : Nat) : State :=
  if !s.queueReady q then s
  else
    let (at_, r) := s.headRecord q
    match s.checkRecord r with
    | .inl code =>
      let s := s.ownWrite (at_ + 0x98) (leBytes 8 (s.statusWord 3 0 code).toNat)
      s.onQueue q fun x => { x with head := x.head + 1, refused := x.refused + 1, wait := false }
    | .inr p =>
      if s.mayBegin p.tiles then s.startLaunch q at_ r p
      else s.onQueue q fun x => { x with wait := true }

/-- A queue has something to do: a waiting record only once it may begin (R41, R152). -/
def launchDue (s : State) (q : Nat) : Bool :=
  s.queueReady q && (!(s.queue q).wait || match s.checkRecord (s.headRecord q).2 with
    | .inl _ => true
    | .inr p => s.mayBegin p.tiles)

end State

/-- A queue acts on its head record (R36). -/
def execLaunchStart (q : Nat) (s : State) : Result := .next (s.launchStart q)
/-- map := 1 (R37). -/
def execLqctlMap (q : Nat) (s : State) : Result := .next (if (s.queue q).map then s else s.lqMap q)
/-- map := 0 (R37). -/
def execLqctlUnmap (q : Nat) (s : State) : Result := .next (if (s.queue q).map then s.lqUnmap q else s)
/-- A notify (R35, R289). -/
def execLqnotify (q : Nat) (tail : BitVec 16) (s : State) : Result := .next (s.lqNotify q tail)

end Sys2Proof.Machine
end

