-- ==== Sys2Proof/Machine/Host.lean ====
section
/-!
DEFINITION. The host's side: requests through the BARs and CXL.mem and their order (R242, R293, R294, R298, R322..R324,
R503), host fences (R243), translation invalidation (R159, R296), attestation (R307), and the SRAM split (R152).
-/
namespace Sys2Proof.Machine

namespace State

/-! ## Device memory as the host reaches it -/

/-- An access cut into pieces of which none crosses a dword (R322). -/
def dwordPieces : Nat → Nat → List Byte → List (Nat × List Byte)
  | 0, _, _ => []
  | _, _, [] => []
  | n + 1, pa, b :: bs =>
    let k := 8 - pa % 8
    (pa, (b :: bs).take k) :: dwordPieces n (pa + k) ((b :: bs).drop k)

def piecesOf (pa : Nat) (bs : List Byte) : List (Nat × List Byte) := dwordPieces bs.length pa bs

/-- The line of an address as the home has it for a read or a write by the host: device memory's under R238, host memory's own
(R298). -/
def homeFor (s : State) (pa : Nat) (write : Bool) : Option State :=
  if !isDevice pa then some (s.combine (pa / 64))
  else if write then s.homeWrite (pa / 64) else s.homeRead (pa / 64)

/-- The die of the service core that serves the page of an address (R17, R27). -/
def serviceDie (pa : Nat) : Nat := pa / 4096 % 32 / 4

/-- The declared publication region whose memory a device address is (R233). -/
def publishedAt (s : State) (pa : Nat) : Option (Nat × PubRegion) :=
  if !isDevice pa then none
  else s.launches.findSome? fun e => (e.2.regions.find? fun r =>
    (s.spanLines e.2.asid r.base.toNat r.len).any fun x => x.1 ≤ pa / 64 && pa / 64 ≤ x.2).map fun r => (e.1, r)

/-- Read a piece at the home as a free party (R184, R322), or, where a service core serves it, as a load on its die reads
(R234, R430); none while it has to wait. -/
def hostLoad (s : State) (served : Bool) (pa n : Nat) : Option (State × List Byte) :=
  (s.homeFor pa false).bind fun s => (s.resolve .free false (.mem pa) n).map fun (s, _) =>
    (s, if served then s.dieBytes (serviceDie pa) pa n else s.bytesAt pa n)

/-- Write a piece at the home as a free party (R184, R322), or, where a service core serves it, into its die's private copy of a
publication line (R430). A write of host memory comes after the AtomicOps that have found it as it was (R244). -/
def hostStore (s : State) (served : Bool) (pa : Nat) (bs : List Byte) : Option State :=
  match if served then s.publishedAt pa else none with
  | some (lq, r) => (s.resolve .free true (.mem pa) bs.length).map fun (s, reps) =>
      (s.privWrite (serviceDie pa) lq r.desc (addresses pa bs)).requestRepairs reps
  | none => (s.homeFor pa true).bind fun s =>
    (s.resolve .free true (.mem pa) bs.length).map fun (s, reps) => ((s.writeAt none pa bs).noteHost pa bs).requestRepairs reps

/-- A write at the home that waits has started the invalidations of its line where a sharer is out of reach (R241). -/
def heldUp (s : State) (pa : Nat) : State := if isDevice pa then s.enterF (pa / 64) none else s

/-- Perform the pieces of an access in ascending address order, each indivisible. It stops before a piece that has to wait,
and between two pieces where another access comes first, which is a free choice (R322). What has been read, and the pieces
that are left; `waits` is what a piece that has to wait leaves. -/
def hostPieces (waits : State → Nat → State) (f : State → Nat → List Byte → Option (State × List Byte)) :
    List (Nat × List Byte) → List Byte → State → State × List Byte × List (Nat × List Byte)
  | [], got, s => (s, got, [])
  | (pa, bs) :: es, got, s =>
    match f s pa bs with
    | none => (waits s pa, got, (pa, bs) :: es)
    | some (s, x) =>
      if !es.isEmpty && s.choose 2 == 1 then (s.tick, got ++ x, es) else hostPieces waits f es (got ++ x) s.tick

def hostReads (s : State) (served : Bool) (pa n : Nat) (got : List Byte) : State × List Byte × List (Nat × List Byte) :=
  hostPieces (fun s _ => s) (fun s pa bs => s.hostLoad served pa bs.length) (piecesOf pa (List.replicate n 0)) got s

def hostWrites (s : State) (served : Bool) (pa : Nat) (bs : List Byte) : State × List (Nat × List Byte) :=
  let r := hostPieces heldUp (fun s pa bs => (s.hostStore served pa bs).map fun s => (s, [])) (piecesOf pa bs) [] s
  (r.1, r.2.2)

/-- Write every piece in one step, or none. -/
def hostWriteAll (s : State) (pa : Nat) (bs : List Byte) : Option State :=
  (piecesOf pa bs).foldl (fun (acc : Option State) (e : Nat × List Byte) => acc.bind fun s => s.hostStore false e.1 e.2) (some s)

def respond (s : State) (st : HostStatus) (poisoned : Bool) (data : List Byte) : State :=
  { s with outbox := s.outbox ++ [Out.completion st poisoned data] }

/-- How a request goes on: what is left of it, or nothing. -/
abbrev Going := State × Option HostReq

/-- A request that a service core serves (R27): of the host, to device memory. -/
def servedByCore : HostWhat → Bool
  | .read .bar2 _ _ | .write .bar2 _ _ | .cxl _ _ _ => true
  | .read _ _ _ | .write _ _ _ | .atomic _ _ _ _ _ _ | .snoop _ _ | .remote _ _ _ => false

/-- What is left of an atomic request once a function has carried it out, or all of it while it has to wait. -/
def orWait (s : State) (r : HostReq) (pa : Nat) : Option State → Going
  | some s => (s, none)
  | none => (s.heldUp pa, some r)

/-- A read of device or host memory (R503: over a poisoned line its data carry EP). `rest` names the request for the bytes
that are left. -/
def memoryRead (s : State) (r : HostReq) (pa n : Nat) (rest : Nat → Nat → HostWhat) (done : State → State) : Going :=
  if s.anyPoisoned pa n then (done (s.respond .sc true []), none)
  else
    let t := s.hostReads (servedByCore r.what) pa n r.got
    let left := (t.2.2.map fun e => e.2.length).sum
    if left == 0 then (done (t.1.respond .sc false t.2.1), none)
    else (t.1, some { r with what := rest (n - left) left, got := t.2.1 })

/-- A write of device or host memory; one that touches a poisoned line is discarded (R503). -/
def memoryWrite (s : State) (r : HostReq) (pa : Nat) (bs : List Byte) (rest : Nat → HostWhat) (done : State → State) : Going :=
  if s.anyPoisoned pa bs.length then (done s, none)
  else
    let t := s.hostWrites (servedByCore r.what) pa bs
    let left := (t.2.map fun e => e.2.length).sum
    if left == 0 then (done t.1, none) else (t.1, some { r with what := rest (bs.length - left) })

/-! ## AtomicOps of the host (R297, R323) -/

/-- The sizes of the AtomicOps that the completer supports. -/
def atomicSize (op : HostAtomic) (width : Nat) : Bool := match op with
  | .fetchAdd | .swap => width == 4 || width == 8
  | .cas => width == 4 || width == 8 || width == 16

/-- The operand's new value. -/
def atomicNew (op : HostAtomic) (width old value cmp : Nat) : Nat := match op with
  | .fetchAdd => (old + value) % 2 ^ (8 * width)
  | .swap => value % 2 ^ (8 * width)
  | .cas => if old == cmp % 2 ^ (8 * width) then value % 2 ^ (8 * width) else old

/-- One indivisible read and write at the home (R323): the old bytes; none while it has to wait. -/
def homeRmw (s : State) (pa n : Nat) (f : Nat → Nat) : Option (State × List Byte) :=
  (s.homeFor pa true).bind fun s => (s.resolve .free true (.mem pa) n).map fun (s, reps) =>
    let old := s.bytesAt pa n
    let new := leBytes n (f (leNat old))
    (((s.writeAt none pa new).noteHost pa new).requestRepairs reps, old)

/-- An AtomicOp of the host (R323, R503). -/
def hostRmw (s : State) (op : HostAtomic) (pa width value cmp : Nat) : Option State :=
  if s.anyPoisoned pa width then some (s.respond .ca false [])
  else (s.homeRmw pa width fun old => atomicNew op width old value cmp).map fun (s, old) => s.respond .sc false old

def hostAtomicAt (s : State) (op : HostAtomic) (pa width value cmp : Nat) : Option State :=
  if !atomicSize op width then some (s.respond .ur false [])
  else if pa % width != 0 then some (s.respond .ca false [])
  else s.hostRmw op pa width value cmp

/-! ## Accesses of other packages (R301) -/

def remoteReply (s : State) (node : Nat) (data : List Byte) : State := { s with outbox := s.outbox ++ [Out.response node data] }

/-- One indivisible read and write for another package; over a poisoned line nothing changes and no data come back. -/
def remoteRmw (s : State) (node pa k : Nat) (f : Nat → Nat) : Option State :=
  if s.anyPoisoned pa k then some (s.remoteReply node [])
  else (s.homeRmw pa k f).map fun (s, old) => s.remoteReply node old

/-- A Causeway access performed at this package's home as a .sys access; an address that is no memory answers nothing, and
under the reduced service there is no Causeway (R308). -/
def remoteAccess (s : State) (r : HostReq) (node pa : Nat) (op : RemoteOp) : Going :=
  if !s.full then (s, none)
  else if !isDevice pa && !isHostMem pa then (s.remoteReply node [], none)
  else match op with
    | .load k =>
      if s.anyPoisoned pa k then (s.remoteReply node [], none)
      else
        let t := s.hostReads false pa k r.got
        let left := (t.2.2.map fun e => e.2.length).sum
        if left == 0 then (t.1.remoteReply node t.2.1, none)
        else (t.1, some { r with what := .remote node (pa + (k - left)) (.load left), got := t.2.1 })
    | .store data =>
      s.memoryWrite r pa data (fun n => .remote node (pa + n) (.store (data.drop n))) fun s => s.remoteReply node []
    | .atomic order k val => s.orWait r pa (s.remoteRmw node pa k fun old => atomicValue order (8 * k) old val.toNat)
    | .cas k cmp new => s.orWait r pa (s.remoteRmw node pa k fun old => if old == cmp then new else old)

/-! ## Requests -/

/-- The launch whose pages a request to device memory goes to (R56). -/
def launchOf (s : State) (pa : Nat) : Option Nat :=
  (s.launches.find? fun (_, l) => l.peat ≤ pa && pa < l.peat + areaBytes l.sppages * l.tiles.length).map (·.1)

/-- Service work for a launch's pages, charged to its host budget; none in a period whose budget is used up (R56). -/
def hostBudget (s : State) (r : HostReq) (pa : Nat) (f : State → Going) : Going :=
  match s.launchOf pa with
  | none => f s
  | some lq =>
    if s.overBudget lq 3 then (s, some r)
    else match f s with
      | (s, left) => (if left == some r then s else s.charge lq 3, left)

/-- A snoop at one die: an owner is handled as FwdX, a sharer as Inv when the host takes the line for itself (R298). -/
def snoopDie (line : Nat) (excl : Bool) (s : State) (d : Nat) : State :=
  match s.l2St d line with
  | .e | .o | .m => s.leave d line .i
  | .s => if excl then s.leave d line .i else s
  | .i | .p | .is_ | .im | .sm | .mi => s

def snoop (s : State) (line : Nat) (excl : Bool) : State :=
  let had := (List.range 8).any fun d => match s.l2St d line with | .e | .o | .m => true | _ => false
  let s := (List.range 8).foldl (snoopDie line excl) s
  let kept := (List.range 8).filter fun d => s.l2St d line == .s
  let s := s.setHome line { HomeLine.idle with st := if kept.isEmpty then .i else .s, mask := kept }
  { s with outbox := s.outbox ++ [Out.snoopReply line had] }

/-- Device memory that a request can reach: none beyond its end, and none under the reduced service, which has no HBM and no
AtomicOp completer (R33, R292, R308; log 43). -/
def bar2Ok (s : State) (off : Nat) : Bool := s.full && off < deviceEnd

/-- Perform a request as far as it goes. -/
def performHost (s : State) (r : HostReq) : Going :=
  match r.what with
  | .read .bar0 off width =>
    (s.respond .sc false (if width == 4 || width == 8 then leBytes width (s.windowRead off width) else List.replicate width 0), none)
  | .write .bar0 off data => (s.windowWrite off data.length (leNat data), none)
  | .atomic .bar0 _ _ _ _ _ => (s.respond .ur false [], none)
  | .read .bar2 off width =>
    if !s.bar2Ok off then (s.respond .ur false [], none)
    else s.hostBudget r off fun s => s.memoryRead r off width (fun n k => .read .bar2 (off + n) k) fun s => s
  | .write .bar2 off data =>
    if !s.bar2Ok off then (s.respond .ur false [], none)
    else s.hostBudget r off fun s => s.memoryWrite r off data (fun n => .write .bar2 (off + n) (data.drop n)) fun s => s
  | .atomic .bar2 op off width value cmp =>
    if !s.bar2Ok off then (s.respond .ur false [], none)
    else s.hostBudget r off fun s => s.orWait r off (s.hostAtomicAt op off width value cmp)
  | .read .hostMem off width =>
    s.memoryRead r (0x8000000000000 + off) width (fun n k => .read .hostMem (off + n) k) fun s => s
  | .write .hostMem off data =>
    s.memoryWrite r (0x8000000000000 + off) data (fun n => .write .hostMem (off + n) (data.drop n)) fun s => s
  | .atomic .hostMem op off width value cmp => s.orWait r (0x8000000000000 + off) (s.hostRmw op (0x8000000000000 + off) width value cmp)
  | .cxl pa width data =>
    if !s.cxlOn || !s.bar2Ok pa then (s.respond .ur false [], none)
    else match data with
      | none =>
        s.memoryRead r pa width (fun n k => .cxl (pa + n) k none) fun s => { s with hostHeld := insertNat (pa / 64) s.hostHeld }
      | some x =>
        s.memoryWrite r pa (leBytes width x) (fun n => .cxl (pa + n) (width - n) (some (x / 256 ^ n))) fun s => s.respond .sc false []
  | .snoop line excl => if !s.cxlOn then (s, none) else if s.lineBusy line then (s, some r) else (s.snoop line excl, none)
  | .remote node pa op => s.remoteAccess r node pa op

/-- The service core of a request (R27, R293); requests without one keep order only with those of the same line or side. -/
def serverOf : HostWhat → Nat
  | .read .bar0 _ _ | .write .bar0 _ _ | .atomic .bar0 _ _ _ _ _ => 0
  | .read .bar2 off _ | .write .bar2 off _ | .atomic .bar2 _ off _ _ _ => off / 4096 % 32
  | .cxl pa _ _ => pa / 4096 % 32
  | .read .hostMem _ _ | .write .hostMem _ _ | .atomic .hostMem _ _ _ _ _ => 32
  | .snoop line _ => 64 + line
  | .remote _ pa _ => 64 + pa / 64

/-- Waiting requests stay in order of arrival (R242). -/
def keepReq (s : State) (r : HostReq) : State :=
  { s with hostQ := s.hostQ.filter (fun q => q.id < r.id) ++ r :: s.hostQ.filter fun q => r.id < q.id }

/-- An AtomicOp that a service core performs at a slice comes after the operations of every tile in the cycle (R347). -/
def afterTiles : HostWhat → Bool
  | .atomic .bar2 _ _ _ _ _ => true
  | .atomic .bar0 _ _ _ _ _ | .atomic .hostMem _ _ _ _ _ | .read _ _ _ | .write _ _ _ | .cxl _ _ _ | .snoop _ _ | .remote _ _ _ => false

/-- A request arrives: behind one that waits at the same service core it waits as well (R242, R324). -/
def hostRequest (s : State) (w : HostWhat) : State :=
  let r : HostReq := { id := s.nextReq, core := serverOf w, what := w, got := [], tried := 0 }
  let s := { s with nextReq := s.nextReq + 1 }
  let queued := fun (s : State) (r : HostReq) => if s.hostQ.isEmpty then (s.keepReq r).later .hostServe else s.keepReq r
  if (s.hostQ.any fun q => q.core == r.core) || (afterTiles w && !s.turn.isEmpty) then queued s r
  else match s.performHost r with
    | (s, none) => s
    | (s, some r) => queued s r

/-- Try every waiting request once, in order of arrival, those behind a waiting one of the same core left alone. -/
def serveAll (blocked : List Nat) : List HostReq → State → State
  | [], s => s
  | r :: rs, s =>
    if blocked.contains r.core then serveAll blocked rs s
    else if afterTiles r.what && !s.turn.isEmpty then serveAll (r.core :: blocked) rs s
    else match { s with hostQ := s.hostQ.filter (fun q => q.id != r.id) }.performHost r with
      | (s, none) => serveAll blocked rs s
      | (s, some r) => serveAll (r.core :: blocked) rs (s.keepReq r)

def hostServe (s : State) : State :=
  let s := serveAll [] s.hostQ s
  if s.hostQ.isEmpty then s else s.later .hostServe

/-- The next AtomicOp whose turn has come at its service core, once every tile has had its turn in the cycle (R347). -/
def hostAtomicDue (s : State) : Option HostReq :=
  s.hostQ.find? fun r => afterTiles r.what && r.tried ≤ s.cycle && !(s.hostQ.any fun q => q.core == r.core && q.id < r.id)

/-- It is performed, or waits for the next cycle. -/
def hostAtomicEnd (s : State) (r : HostReq) : State :=
  match { s with hostQ := s.hostQ.filter fun q => q.id != r.id }.performHost { r with tried := s.cycle + 1 } with
  | (s, none) => s
  | (s, some r) => s.keepReq r

/-! ## Fences, invalidations, reports, splits -/

/-- A host fence completes once every earlier request has been performed; the next one starts (R243). -/
def fenceDone (s : State) : State :=
  match s.fences with
  | [] => s
  | mark :: rest =>
    if s.hostQ.any fun r => r.id < mark then s.later .hostFenceDone
    else
      let s := { s with seq := s.seq + 1, fences := rest }
      if rest.isEmpty then s else s.later .hostFenceDone

/-- An invalidation is complete once the accesses translated before it have been performed; a held write then starts
(R159, R296). -/
def xinvEnds (s : State) (die : Nat) : State :=
  let w := s.walkWin die
  if w.done then s
  else if (s.stores.any fun p => p.id < w.mark) || s.remote.any fun r => r.id < w.outMark then s.later (.xinvDone die)
  else
    (s.setWalk die { w with done := true }).xinvRun die w.held

/-- The report behind its nonce (R307). -/
def report (s : State) (nonce : List Byte) : List Byte :=
  let body := (List.range 16).map Config.serialByte ++ (List.range 48).map Config.firmwareDigest
    ++ (List.range 48).map (Config.fuseDigest s.retired) ++ leBytes 8 (s.reportCount + 1) ++ leBytes 8 0
  body ++ (List.range 96).map (Config.signatureByte s.fresh (nonce ++ body))

/-- A report is written, where its memory is present (R33; log 102), and the next one starts (R307). -/
def reportDone (s : State) : State :=
  match s.atreqBusy with
  | [] => s
  | addr :: rest =>
    let at_ := addr * 256
    let there := (isDevice at_ && !s.absentMemory at_) || isHostMem at_
    let written := if there then s.hostWriteAll (at_ + 0x20) (s.report (s.bytesAt at_ 32)) else some s
    match written with
    | none => ((List.range 6).foldl (fun s i => s.heldUp (at_ + 64 * i)) s).later .attestDone
    | some s =>
      let s := { s with atdone := true, atreqBusy := rest, reportCount := s.reportCount + 1 }.tick
      if rest.isEmpty then s else s.later .attestDone

/-- A tile with a change pending and no block of a running launch, of which it may hold no page either (R152). -/
def splitDue (s : State) (t : Nat) : Bool :=
  let x := s.tile t
  x.spReq != x.spCur && (s.blocks.all fun (_, b) => b.tile != t) && (s.framedOn t).isEmpty

/-- Apply the split (R152). -/
def splitApply (s : State) (t : Nat) : State :=
  if s.splitDue t then
    { s.onTile t (fun x => { x with spCur := x.spReq, l1 := [] }) with frameBad := s.frameBad.filter fun e => e.1 != t }
  else s

end State

/-- A read by the host (R242). -/
def execHostRead (bar : HostBar) (off width : Nat) (s : State) : Result := .next (s.hostRequest (.read bar off width))
/-- A posted write by the host (R242). -/
def execHostWrite (bar : HostBar) (off : Nat) (data : List Byte) (s : State) : Result :=
  .next (s.hostRequest (.write bar off data))
/-- An AtomicOp by the host (R323). -/
def execHostAtomicop (bar : HostBar) (op : HostAtomic) (off width value cmp : Nat) (s : State) : Result :=
  .next (s.hostRequest (.atomic bar op off width value cmp))
/-- A CXL.mem access (R298). -/
def execCxlMemAccess (pa width : Nat) (data : Option Nat) (s : State) : Result := .next (s.hostRequest (.cxl pa width data))
/-- A Causeway access to this package (R301). -/
def execRemoteAccessArrive (node pa : Nat) (op : RemoteOp) (s : State) : Result := .next (s.hostRequest (.remote node pa op))
/-- A host snoop (R298). -/
def execCxlSnoop (line : Nat) (excl : Bool) (s : State) : Result := .next (s.hostRequest (.snoop line excl))
/-- The link enters or leaves CXL operation; under the reduced service there is none (R292, R308). -/
def execCxlOperationChange (on : Bool) (s : State) : Result :=
  .next { s with cxlOn := on && s.full, hostHeld := if on then s.hostHeld else [] }
/-- A go write (R243). -/
def execHfgo (s : State) : Result := .next s.fenceGo
/-- A host fence completes (R243). -/
def execHostFenceDone (s : State) : Result := .next s.fenceDone
/-- A write of xinvc (R296). -/
def execXinvc (die : Nat) (value : Word) (s : State) : Result := .next (s.xinvWrite die value)
/-- An invalidation completes (R159). -/
def execXinvDone (die : Nat) (s : State) : Result := .next (s.xinvEnds die)
/-- A go write of atreq (R307). -/
def execAtreqGo (s : State) : Result := .next s.reportGo
/-- A report is written (R307). -/
def execAttestDone (s : State) : Result := .next s.reportDone
/-- A tile applies its split (R152). -/
def execSpcfgApply (tile : Nat) (s : State) : Result := .next (s.splitApply tile)
/-- A register is written (R5). -/
def execRegisterWrite (off : Nat) (value : Word) (s : State) : Result := .next (s.windowWrite off 8 value.toNat)

end Sys2Proof.Machine
end

