-- ==== Sys2Proof/Machine/Coherence.lean ====
section
/-!
DEFINITION. MOESI+P between the dies: the home directory (R238..R240, R333, R334), the die's L2 (R237), and invalidations that
a failed link holds up (R241).
-/
namespace Sys2Proof.Machine

namespace State

/-! ## Messages (R333) -/

/-- The die and line of a message from a home to a die. -/
def toDieOf : Event → Option (Nat × Nat)
  | .dataS d l | .dataE d l | .dataM d l | .upgack d l | .inv d l | .fwds d l | .fwdx d l | .wback d l => some (d, l)
  | _ => none

/-- A home's message to a die arrives after every earlier one of the same home to that die (R333), each in a cycle of its
own, so that an access that waited for a line finds it before the next message takes it away (log 41); it takes at least n
cycles. -/
def toDieBy (s : State) (n die line : Nat) (e : Event) : State :=
  let last := (s.agenda.filterMap fun (t, e) => match toDieOf e with
    | some (d, l) => if d == die && homeOf l == homeOf line then some t else none
    | none => none).foldl max 0
  { s with agenda := insertDue (max (last + 1) (s.cycle + n + Config.latency s.fresh)) e s.agenda, fresh := s.fresh + 1 }

def toDie (s : State) (die line : Nat) (e : Event) : State := s.toDieBy 1 die line e

/-- Data that a home reads from its memory: with the 40 cycles of the L2 it makes the 140 of the memory-side cache, or the 200 of
HBM, which of them being a free choice, and 60 more for a die that the home base die does not carry (R25, R172). -/
def fromMemory (s : State) (die line : Nat) (e : Event) : State :=
  let far := isDevice (64 * line) && homeOf line != die / 2
  s.toDieBy ((if s.choose 2 == 1 then 160 else 100) + (if far then 60 else 0)) die line e

/-- Data that another die's L2 sends: 60 cycles more (R25). -/
def fromOwner (s : State) (die line : Nat) : State := s.laterBy 60 (.fwddata die line)

/-- Send invalidations. Where the home's route to a die is down the home is in F and takes the alternate route; where that is
down as well nothing is delivered (R241). -/
def sendInvs (s : State) (line : Nat) (dies : List Nat) : State × Bool :=
  dies.foldl (fun (acc : State × Bool) d =>
    let (s, retry) := acc
    match s.routesUp line d with
    | (true, _) => (s.tick.toDie d line (.inv d line), retry)
    | (false, true) => (s.tick.toDie d line (.inv d line), true)
    | (false, false) => (s.tick, true)) (s, false)

/-! ## The home directory (R238) -/

def startBusy (s : State) (line : Nat) (h : HomeLine) (b : Busy) : State :=
  let (s, retry) := s.sendInvs line b.acks
  let s := s.setHome line { h with busy := some { b with retry := retry } }
  if retry then s.after (2 * s.period) (.invRetryTimeout line) else s

/-- The retries of a line are over (R241). -/
def endRetry (s : State) (line : Nat) : State := { s with agenda := s.agenda.filter fun e => e.2 != .invRetryTimeout line }

/-- A busy home that waits for nothing more answers its request (R238, R334). Where the owner's WriteBack has served a ReadS of a
line in O, the sharers that the home knows stay (R238). -/
def complete (s : State) (line : Nat) : State :=
  let h := s.homeLine line
  match h.busy with
  | none => s
  | some b =>
    if !b.acks.isEmpty || b.needData then s
    else
      let s := if b.retry then s.endRetry line else s
      let free := { h with busy := Option.none }
      let own := fun (s : State) (e : Event) =>
        let s := (s.backInval line).setHome line { free with st := .x, owner := b.die, mask := [] }
        if b.req != .upgrade && (h.st == .s || b.absent) then s.fromMemory b.die line e else s.toDie b.die line e
      match b.req with
      | .readx => own s (.dataM b.die line)
      | .upgrade => own s (.upgack b.die line)
      | .reads =>
        if b.absent then own s (.dataE b.die line)
        else
          let st := if b.served then HomeSt.s else if h.st == .o || b.ownerDirty then .o else .s
          let mask := if b.served then (if h.st == .o then insertNat b.die h.mask else [b.die]) else if st == .s then insertNat h.owner (insertNat b.die h.mask) else insertNat b.die h.mask
          let s := if st == .o then s.backInval line else s
          (s.setHome line { free with st := st, mask := mask }).toDie b.die line (.dataS b.die line)

/-- Serve a request that finds the line in a stable state. -/
def serve (s : State) (line : Nat) (r : HomeReq) (die : Nat) : State :=
  let s := if (s.homeLine line).st == .p then s.combine line else s
  let h := s.homeLine line
  let b : Busy :=
    { req := r, die := die, acks := [], needData := false, ownerDirty := false, served := false, absent := false, retry := false }
  let others := removeNat die h.mask
  match h.st, r with
  | .i, .reads | .p, .reads =>
    ((s.backInval line).setHome line { h with st := .x, owner := die, mask := [] }).fromMemory die line (.dataE die line)
  | .i, _ | .p, _ =>
    ((s.backInval line).setHome line { h with st := .x, owner := die, mask := [] }).fromMemory die line (.dataM die line)
  | .s, .reads => (s.setHome line { h with mask := insertNat die h.mask }).fromMemory die line (.dataS die line)
  | .s, .upgrade =>
    (s.startBusy line h { b with req := if h.mask.contains die then .upgrade else .readx, acks := others }).complete line
  | .s, .readx => (s.startBusy line h { b with acks := others }).complete line
  | .x, .reads | .o, .reads =>
    (s.startBusy line h { b with needData := true }).toDie h.owner line (.fwds h.owner line)
  | .o, .upgrade =>
    if h.owner == die then (s.startBusy line h { b with acks := others }).complete line
    else (s.startBusy line h { b with req := if h.mask.contains die then .upgrade else .readx, acks := others, needData := true }).toDie
      h.owner line (.fwdx h.owner line)
  | .x, _ | .o, .readx =>
    (s.startBusy line h { b with req := .readx, acks := others, needData := true }).toDie h.owner line (.fwdx h.owner line)

/-- Serve the queue while the line is in a stable state. -/
def serveQueue (line : Nat) : Nat → State → State
  | 0, s => s
  | n + 1, s =>
    let h := s.homeLine line
    match h.busy, h.queue with
    | none, (r, die) :: rest => serveQueue line n ((s.setHome line { h with queue := rest }).serve line r die)
    | _, _ => s

def goOn (s : State) (line : Nat) : State :=
  let s := s.complete line
  serveQueue line (s.homeLine line).queue.length s

/-- Another die of a lower number has a request for the line that arrives in this cycle. -/
def lowerFirst (s : State) (die line : Nat) : Bool :=
  s.agenda.any fun (t, e) => t ≤ s.cycle && match e with
    | .reads d l | .readx d l | .upgrade d l => l == line && d < die
    | _ => false

/-- A request arrives at its home: served, or queued behind what the home does, same-cycle requests by die (R238). -/
def request (s : State) (line : Nat) (r : HomeReq) (die : Nat) (e : Event) : State :=
  if s.lowerFirst die line then s.after 0 e
  else
    let h := s.homeLine line
    if h.busy.isSome || !h.queue.isEmpty then s.setHome line { h with queue := h.queue ++ [(r, die)] }
    else (s.serve line r die).goOn line

/-- A WriteBack arrives (R238, R240). -/
def writeBack (s : State) (die line : Nat) : State :=
  let h := s.homeLine line
  let s := if (h.st == .x || h.st == .o) && h.owner == die then
      match h.busy with
      | none => s.setHome line { h with st := if h.st == .x then .i else .s, mask := if h.st == .x then [] else h.mask }
      | some b =>
        if b.needData then s.setHome line { h with busy := some { b with needData := false, served := true }, drops := die :: h.drops }
        else s
    else s
  (s.toDie die line (.wback die line)).goOn line

/-- An owner's answer, with data or without, arrives (R238). -/
def ownerAnswer (s : State) (die line : Nat) (absent : Bool) : Option State :=
  let h := s.homeLine line
  if h.drops.contains die then some (s.setHome line { h with drops := h.drops.erase die })
  else match h.busy with
    | some b =>
      if b.needData && h.owner == die then
        some ((s.setHome line { h with busy := some { b with needData := false, absent := absent } }).goOn line)
      else none
    | none => none

/-- An InvAck arrives; one that came too late for R241 changes nothing. -/
def invAck (s : State) (die line : Nat) : State :=
  let h := s.homeLine line
  match h.busy with
  | some b => (s.setHome line { h with busy := some { b with acks := removeNat die b.acks } }).goOn line
  | none => s

/-! ## A die's L2 (R237) -/

/-- The home will learn from a forwarded answer that it still awaits that the owner held the line changed (R238, R240). -/
def dirtyAnswer (s : State) (die line : Nat) : State :=
  let h := s.homeLine line
  s.setHome line { h with busy := h.busy.map fun b => if b.needData && h.owner == die then { b with ownerDirty := true } else b }

/-- Data(S), Data(E), Data(M) and UpgAck. -/
def takeData (s : State) (die line : Nat) (want : L2St) : Option State :=
  match s.l2St die line, want with
  | .is_, .s => some (s.install die line .s)
  | .is_, .e => some (s.install die line .e)
  | .im, .m | .sm, .m => some ((s.install die line .m).performReady die line)
  | _, _ => none

/-- UpgAck. -/
def takeUpgAck (s : State) (die line : Nat) : Option State :=
  match s.l2St die line with
  | .sm => some ((s.setL2 die line .m).performReady die line)
  | _ => none

/-- Inv. A die that has asked for a line it does not hold answers as from I. -/
def takeInv (s : State) (die line : Nat) : Option State :=
  match s.l2St die line with
  | .s | .i => some ((s.leave die line .i).later (.invack die line))
  | .sm => some ((s.leave die line .im).later (.invack die line))
  | .is_ | .im => some (s.later (.invack die line))
  | .e | .o | .m | .p | .mi => none

/-- FwdS. -/
def takeFwdS (s : State) (die line : Nat) : Option State :=
  match s.l2St die line with
  | .m => some (((s.setL2 die line .o).dirtyAnswer die line).fromOwner die line)
  | .e => some ((s.setL2 die line .s).fromOwner die line)
  | .o | .mi | .sm => some ((s.dirtyAnswer die line).fromOwner die line)
  | .i | .is_ | .im => some (s.later (.fwdnone die line))
  | .s | .p => none

/-- FwdX. -/
def takeFwdX (s : State) (die line : Nat) : Option State :=
  match s.l2St die line with
  | .m | .e | .o => some ((s.leave die line .i).fromOwner die line)
  | .sm => some ((s.leave die line .im).fromOwner die line)
  | .mi => some (s.fromOwner die line)
  | .i | .is_ | .im => some (s.later (.fwdnone die line))
  | .s | .p => none

/-- WbAck. -/
def takeWbAck (s : State) (die line : Nat) : Option State :=
  match s.l2St die line with
  | .mi => some (s.setL2 die line .i)
  | _ => none

/-! ## Invalidations that fail (R241) -/

/-- 20 µs have passed: the line is poisoned and I at the home, and the write that asked is not performed: its context takes a
data-lost machine check at the writing instruction. -/
def retryTimeout (s : State) (line : Nat) : State :=
  let h := s.homeLine line
  match h.busy with
  | none => s
  | some b =>
    if !b.retry || b.acks.isEmpty then s
    else
      let s := { s with poison := insertNat line s.poison }
      let s := s.setHome line { h with st := .i, mask := [], busy := none, drops := if b.needData then h.owner :: h.drops else h.drops }
      let s := s.l1Drop line fun _ => true
      let s := if b.die < 8 then s.setL2 b.die line .i else s
      let mine := s.stores.filter fun p => p.ready && dieOf p.tile == b.die && (p.bytes.getD 0 (0, 0)).1 / 64 == line
      let s := mine.foldl (fun s p => s.lateFault p (.plain 0x0F 1 (BitVec.ofNat 64 ((p.bytes.getD 0 (0, 0)).1)))) s
      s.goOn line

/-- A transition of R237 and R238. An event that they do not list for the state "cannot occur": given all the same, it is
dropped and changes nothing (log 51). -/
def transition (s : State) (f : State → Option State) : Result := .next ((f s).getD s)

end State

/-- The home receives ReadS (R238). -/
def execReads (die line : Nat) (s : State) : Result := .next (s.request line .reads die (.reads die line))
/-- The home receives ReadX (R238). -/
def execReadx (die line : Nat) (s : State) : Result := .next (s.request line .readx die (.readx die line))
/-- The home receives Upgrade (R238, R239). -/
def execUpgrade (die line : Nat) (s : State) : Result := .next (s.request line .upgrade die (.upgrade die line))
/-- The home receives WriteBack (R238, R240). -/
def execWriteback (die line : Nat) (s : State) : Result := .next (s.writeBack die line)
/-- The home receives FwdData (R238). -/
def execFwddata (die line : Nat) (s : State) : Result := s.transition fun s => s.ownerAnswer die line false
/-- The home receives FwdNone (R238). -/
def execFwdnone (die line : Nat) (s : State) : Result := s.transition fun s => s.ownerAnswer die line true
/-- The home receives InvAck (R238). -/
def execInvack (die line : Nat) (s : State) : Result := .next (s.invAck die line)
/-- A die receives Data(S) (R237). -/
def execDataS (die line : Nat) (s : State) : Result := s.transition fun s => s.takeData die line .s
/-- A die receives Data(E) (R237). -/
def execDataE (die line : Nat) (s : State) : Result := s.transition fun s => s.takeData die line .e
/-- A die receives Data(M) (R237). -/
def execDataM (die line : Nat) (s : State) : Result := s.transition fun s => s.takeData die line .m
/-- A die receives UpgAck (R237). -/
def execUpgack (die line : Nat) (s : State) : Result := s.transition fun s => s.takeUpgAck die line
/-- A die receives Inv (R237). -/
def execInv (die line : Nat) (s : State) : Result := s.transition fun s => s.takeInv die line
/-- A die receives FwdS (R237). -/
def execFwds (die line : Nat) (s : State) : Result := s.transition fun s => s.takeFwdS die line
/-- A die receives FwdX (R237). -/
def execFwdx (die line : Nat) (s : State) : Result := s.transition fun s => s.takeFwdX die line
/-- A die receives WbAck (R237). -/
def execWback (die line : Nat) (s : State) : Result := s.transition fun s => s.takeWbAck die line
/-- The home's retries have run out (R241). -/
def execInvRetryTimeout (line : Nat) (s : State) : Result := .next (s.retryTimeout line)

end Sys2Proof.Machine
end

