-- ==== Sys2Proof/Machine/Causeway.lean ====
section
/-!
DEFINITION. Free spawns across Causeway (R302, R303): the arrival of a record of another package, and what comes back for a
record of this one. The reduced service has no Causeway (R308).
-/
namespace Sys2Proof.Machine

namespace State

/-- A record of another package arrives: queued at the block it names, or refused (R302). It counts neither as sent nor as
received here. -/
def remoteArrives (s : State) (node asid : Nat) (r : TaskRec) : State :=
  let good := match s.launches.get? r.lq with
    | some l => l.asid == asid && l.blocks.contains r.blk
    | none => false
  let reply := fun (s : State) (ok : Bool) => { s with outbox := s.outbox ++ [Out.spawnAck node r.lq ok] }
  if good then
    let r := { r with ord := false, res := false, ts := 0, tb := 0, ptb := 0, pts := 0, uid := s.nextUid }
    let s := { s with nextUid := s.nextUid + 1 }.onLaunch r.lq fun l => { l with lastSent := s.cycle }
    reply (s.arrive (s.recordTile r.blk) r none) true
  else reply s false

/-- A remote spawn of a launch has been acknowledged, and counts as received here (R302). -/
def remoteAcked (s : State) (lq : Nat) : State :=
  let l := s.launch lq
  if l.remoteOut == 0 then s
  else (s.countReceived (l.tiles.headD 0) lq (some 0)).onLaunch lq fun l => { l with remoteOut := l.remoteOut - 1 }

/-- The target has refused it: protection in the system context of the launch's lowest-numbered live tile (R302). -/
def remoteRefused (s : State) (lq node : Nat) : State :=
  let l := s.launch lq
  if l.remoteOut == 0 then s
  else
    let t := l.tiles.headD 0
    (s.remoteAcked lq).sendSysTrap t (sysTrap 0x03 (BitVec.ofNat 64 node) 0 false lq (s.handlerBlock t lq) t 0)

end State

/-- A remote spawn arrives (R302). -/
def execRemoteSpawnArrive (node asid : Nat) (rec : TaskRec) (s : State) : Result :=
  .next (if s.full then s.remoteArrives node asid rec else s)
/-- A remote spawn is acknowledged (R302). -/
def execRemoteSpawnAck (lq : Nat) (s : State) : Result := .next (s.remoteAcked lq)
/-- A remote spawn is refused (R302). -/
def execRemoteSpawnRefuse (lq node : Nat) (s : State) : Result := .next (s.remoteRefused lq node)

end Sys2Proof.Machine
end

