-- ==== Sys2Proof/Machine/Service.lean ====
section
/-!
DEFINITION. Power (R29, R304, R305), resets (R6, R19, R306), the end of the reduced service (R309), retirement (R32), and
errors that the hardware reports (R165, R173, R290).
-/
namespace Sys2Proof.Machine

/-- A pair put in front of a list that does not hold it. -/
def insertPair (x : Nat × Nat) (xs : List (Nat × Nat)) : List (Nat × Nat) := if xs.contains x then xs else x :: xs

namespace State

/-! ## The current arbiter (R304) -/

/-- An island's projected power at a step. -/
def islandPower (reports steps : List Nat) (i : Nat) : Nat := Config.projectedPower (reports.getD i 0) (steps.getD i 0)

def totalPower (reports steps : List Nat) : Nat := ((List.range 36).map (islandPower reports steps)).sum

/-- Lower islands one step each in the order given, until the projection fits. -/
def lowerSteps (reports : List Nat) (budget : Nat) : List Nat → List Nat → List Nat
  | [], steps => steps
  | i :: is, steps =>
    if totalPower reports steps ≤ budget then steps
    else lowerSteps reports budget is (steps.set i (min 5 (steps.getD i 0 + 1)))

/-- The next interval's steps: 0..5 are 2.4, 2.2, 2.0, 1.8, 1.6 and 1.2 GHz. -/
def nextSteps (reports : List Nat) (budget : Nat) (steps : List Nat) : List Nat :=
  let total := totalPower reports steps
  if budget < total then
    lowerSteps reports budget (sortBy (fun a b => islandPower reports steps b < islandPower reports steps a) (List.range 36)) steps
  else if total * 100 < budget * 95 then steps.map fun x => x - 1
  else steps

/-- An interval boundary: the steps change, and a written mode takes effect, 3 as 0 (R304, R305). -/
def interval (s : State) (reports : List Nat) : State :=
  { s with
    islandStep := nextSteps reports s.pctlBudget s.islandStep
    modeNow := List.replicate 36 (if s.pctlMode == 3 then 0 else s.pctlMode) }

/-! ## Resets -/

/-- What the host's own memory holds outlives a reset of the device. -/
def hostCells (s : State) : List Host.Cell := s.mem.filter fun (k, _) => isHostMem k

/-- Power-on reset (R6): every register at its reset value, node 0; the boot ROM verifies the firmware (R306). The retired
tiles stay retired. -/
def powerOn (s : State) : State :=
  { State.reset with
    mem := s.hostCells, retired := s.retired, fwRun := Config.firmwareVerified s.fresh, fresh := s.fresh + 1 }

/-- A package reset by firmware (R6, R19): node is kept, the report counter goes on (R307), memory keeps its contents. -/
def packageReset_ (s : State) : State :=
  { State.reset with
    node := s.node, mem := s.mem, poison := s.poison, retired := s.retired, reportCount := s.reportCount
    fwRun := Config.firmwareVerified s.fresh, fresh := s.fresh + 1 }

/-- Firmware sets full, with no launch running (R306, R309). It configures the fabric then, which gives the package its node number
(R19; DESIGN CHOICE, log 12). -/
def fullService (s : State) : State :=
  if s.fwRun && s.launches.isEmpty then { s with full := true, node := Config.nodeNumber s.node s.fresh % 2 ^ 21, fresh := s.fresh + 1 } else s

/-! ## Hardware faults -/

def endLaunches (s : State) (lqs : List Nat) (kind : Nat) : State := lqs.foldl (fun s q => s.endLaunch q kind 0x0F) s

/-- A tile is retired: the launches whose tile set it is in end (R32, R290, R291). -/
def retireTile (s : State) (t : Nat) : State :=
  if !isTile t || s.retired.contains t then s
  else
    let s := s.endLaunches ((s.launches.filter fun (_, l) => l.tiles.contains t).map (·.1)) 4
    let s := { s with retired := insertNat t s.retired, tiles := s.tiles.erase t, turn := removeNat t s.turn
                      ctxs := s.ctxs.filter (fun (k, _) => k / 32 != t)
                      tlb := s.tlb.filter (fun e => e.tile != t), frameBad := s.frameBad.filter (fun e => e.1 != t) }
    let k := s.cluster (clusterOf t)
    s.setCluster (clusterOf t) { k with leaseQ := k.leaseQ.filter (fun l => l.tile != t), holder := k.holder.filter fun l => l.tile != t }

/-- A bridge is down (R11). -/
def failLink (s : State) (a b : Nat) : State := { s with linksDown := insertPair (min a b, max a b) s.linksDown }

/-- Both bridge routes between some two base dies have failed (R11, R290). -/
def cutOff (s : State) : Bool :=
  (List.range 4).any fun a => (List.range 4).any fun b => (routes a b 0).all fun r => !s.routeUp r

/-- Both routes between two base dies fail: which of its bridges fails on each is a free choice (log 17). -/
def failRoutes (s : State) (a b : Nat) : State :=
  if a == b then s
  else (routes a b 0).foldl (fun s r => match r[s.choose r.length]? with
    | some l => s.tick.failLink l.1 l.2
    | none => s) s

/-- The launch that owns an entry of a tile's thread-context store: entries 0..16 are those of the slots, the rest those of kept
workspaces, the most recently used first (R78). -/
def entryOwner (s : State) (t entry : Nat) : Option Nat :=
  if entry ≤ 16 then
    let c := s.ctx (ctxKey t entry)
    if c.status == .free || restingSys c then none else some c.task.lq
  else ((s.tile t).tcs[entry - 17]?).map fun e => e.2

/-- A line is poisoned, and no L1 holds it (R154, R173). -/
def poisonLine (s : State) (line : Nat) : State := { s.l1Drop line (fun _ => true) with poison := insertNat line s.poison }

/-- An uncorrectable error in a die's L2: a dirty line is poisoned, a clean one is read again (R290). A line that waits for its
upgrade is dirty where its die owns it. -/
def l2Error (s : State) (die line : Nat) : State :=
  match s.l2St die line with
  | .m | .o | .mi | .p => s.poisonLine line
  | .sm => if (s.homeLine line).owner == die && (s.homeLine line).st == .o then s.poisonLine line else s
  | .s | .e => s.evictLine die line
  | .i | .is_ | .im => s

end State

/-- An interval of the current arbiter (R304). -/
def execPowerInterval (reports : List Nat) (s : State) : Result := .next (s.interval reports)
/-- Power-on reset (R6). -/
def execPowerOnReset (s : State) : Result := .next s.powerOn
/-- A package reset by firmware (R6). -/
def execPackageReset (s : State) : Result := .next s.packageReset_
/-- Full service begins (R309). -/
def execFullServiceStart (s : State) : Result := .next s.fullService
/-- A tile is retired (R32). -/
def execTileRetire (tile : Nat) (s : State) : Result := .next (s.retireTile tile)
/-- Both bridge routes between two base dies have failed: every running launch ends (R290). -/
def execBridgeFailure (bd0 bd1 : Nat) (s : State) : Result :=
  .next ((s.failRoutes bd0 bd1).endLaunches (AMap.keys s.launches) 5)
/-- A bridge between two base dies fails (R11, R241); once that leaves two base dies without a route, every running launch ends
(R290). -/
def execDieLinkFailure (bd0 bd1 : Nat) (s : State) : Result :=
  let down := s.failLink bd0 bd1
  .next (if down.cutOff && !s.cutOff then down.endLaunches (AMap.keys s.launches) 5 else down)
/-- An uncorrectable error in a thread-context store entry ends the launch that owns it (R290). -/
def execTcsUncorrectable (tile slot : Nat) (s : State) : Result :=
  .next (match s.entryOwner tile slot with
    | some q => s.endLaunches [q] 3
    | none => s)
/-- An HBM4 error that cannot be repaired (R173). -/
def execHbmUncorrectable (line : Nat) (s : State) : Result := .next (s.poisonLine line)
/-- An L2 error that cannot be repaired (R290). -/
def execL2Uncorrectable (die line : Nat) (s : State) : Result := .next (s.l2Error die line)
/-- An L1 error that cannot be repaired: the line goes, to be filled again (R290). -/
def execL1Uncorrectable (tile asid vline : Nat) (s : State) : Result :=
  .next (s.onTile tile fun x => { x with l1 := x.l1.filter fun e => !(e.asid == asid && e.vline == vline) })
/-- A frame error that cannot be repaired poisons the page in the frame (R165). -/
def execFrameUncorrectable (tile frame : Nat) (s : State) : Result :=
  .next (if (s.framedOn tile).any fun e => e.2.2.frame == frame then
      { s with frameBad := if s.frameBad.contains (tile, frame) then s.frameBad else (tile, frame) :: s.frameBad }
    else s)

end Sys2Proof.Machine
end

