-- ==== Sys2Proof/Machine/Fetch.lean ====
section
/-!
DEFINITION. The issue turn of a tile (R69) and the fetch and decoding of the instruction that issues (R86, R87, R94, R165).
-/
namespace Sys2Proof.Machine

/-- What a turn comes to: an instruction to carry out, or a state without one. -/
inductive Turn
  | run (i : Instr) (s : State)
  | rest (s : State)

namespace State

/-! ## The choice (R69) -/

/-- A slot's status lets it issue, or try again what it waits for (R69, R165). -/
def mayTry (x : Status) : Bool := match x with
  | .free | .halted => false
  | .ready => true
  | .waiting .atomicOp | .waiting .remote | .waiting .publish | .waiting .crdecl | .waiting .ticket | .waiting .deferred
  | .waiting .idle | .waiting .serving | .waiting .sleep => false
  | .waiting _ => true

/-- A block that stops or moves lets none of its contexts issue (R53); in the cycle in which it begins to stop they still do
(R85). -/
def blockRuns (s : State) (b : Nat) : Bool :=
  let x := s.block b
  match x.st with
  | .resident | .draining => true
  | .stopping => s.cycle ≤ x.stopAt
  | .moving => false

/-- A WAIT under way loads once more only after a performed write to its line (R494). -/
def watchDue (s : State) (c : Ctx) : Bool :=
  c.status != .waiting .memWord || s.watches.any fun w => w.uid == c.task.uid && w.due

/-- The slot may take the turn. -/
def mayIssue (s : State) (k : Nat) : Bool := match s.ctxs.get? k with
  | none => false
  | some c => mayTry c.status && c.next ≤ s.cycle && (k % 32 == 16 || s.blockRuns c.task.blk) && s.watchDue c

/-- The first eligible slot after the one that issued last (R69). -/
def issueChoice (s : State) (t : Nat) : Option Nat :=
  ((List.range 17).map fun i => ctxKey t (((s.tile t).last + 1 + i) % 17)).find? s.mayIssue

/-! ## Fetch (R86, R87) -/

/-- A resident page's access, the frame's tile woken and a Remote page moved forward (R88, R168). -/
def pageTouched (s : State) (b p : Nat) : State := (s.touchPage b p).wakeTile (s.page b p).tile

/-- The 16 aligned bytes around an offset enter the fetch buffer, and the word at it issues. -/
def fillBuffer (s : State) (b off : Nat) : State × BitVec 32 :=
  let base := off / 16 * 16
  let words := (List.range 4).map fun i => (base + 4 * i, BitVec.ofNat 32 (leNat (s.frameRead b (base + 4 * i) 4)))
  (s.onCx fun c => { c with fetchBuf := words }, BitVec.ofNat 32 (leNat (s.frameRead b off 4)))

/-- The running context's next word: from its buffer, or from its block's code page; otherwise the trap or the wait met. -/
def fetch (s : State) : State × Option (BitVec 32) :=
  let c := s.cx
  let off := c.pc.toNat
  match c.fetchBuf.find? fun e => e.1 == off with
  | some e => (s, some e.2)
  | none =>
    let b := c.task.blk
    let p := off / 2048
    let x := s.page b p
    if s.myBlock.xb ≤ off then (s.trap 0x04 (BitVec.ofNat 64 off) (BitVec.ofNat 64 s.myBlock.xb), none)
    else if x.lock then (s.wait .page, none)
    else match x.st with
      | .unmapped => ((s.pageFault b p).wait .page, none)
      | .parked => match s.pageFail b p with
        | some f => (s.trapFail f, none)
        | none => ((s.pageFault b p).wait .page, none)
      | .framed =>
        if s.frameIsBad b p then (s.trap 0x0F 2 (BitVec.ofNat 64 x.tile), none)
        else
          let (s, w) := (s.pageTouched b p).fillBuffer b off
          (s, some w)

/-- A user context's workspace page is in a frame (R161); a fault brings it in (R165), or is delivered in its place (R166). -/
def workFault (s : State) : Option State :=
  let b := s.cx.task.blk
  let p := workPage s.cx
  let x := s.page b p
  if !hasPage s.cur s.cx || (x.st == .framed && !x.lock) then none
  else if x.lock then some (s.wait .page)
  else match s.pageFail b p with
    | some f => some (s.trapFail f)
    | none => some ((s.pageFault b p).wait .page)

/-- A tile's turn: one slot, its instruction fetched and decoded; what does not decode is illegal (R94, R274). -/
def takeTurn (s : State) (t : Nat) : Turn :=
  if (s.tile t).gated then .rest s
  else match s.issueChoice t with
    | none => .rest s
    | some k =>
      let s := { s with cur := k }
      match s.workFault with
      | some s => .rest s
      | none =>
        match s.fetch with
        | (s, none) => .rest s
        | (s, some w) =>
          let s := { s with word := w }
          match decodeWord w with
          | .error _ => .rest s.trapIllegal
          | .ok i => .run i s

end State

end Sys2Proof.Machine
end

