-- ==== Sys2Proof/Machine/Ports.lean ====
section
/-!
DEFINITION. Port binding (R432..R438) and what arrives at contexts by itself: results (R71), forward deposits (R82), queue
dwords (R84), stream elements (R81), workspaces (R78), and answers from outside the package (R299, R301).
-/
namespace Sys2Proof.Machine

namespace State

/-! ## Binding -/

/-- Discard what a port's in-bound binding fetched ahead (R436, R437). -/
def dropAhead (s : State) (port : Nat) : State :=
  let s := { s with agenda := s.agenda.filter fun e => e.2 != Event.streamElementArrive s.here s.slot port }
  s.onCx fun c => { c with ahead := c.ahead.filter fun e => e.port != port }

/-- The appends of a port that are not yet performed (R436). -/
def portBuffered (s : State) (port : Nat) : Bool :=
  s.stores.any fun p => p.port == some port && p.uid == s.cx.task.uid

/-- The spec word of SBIND breaks its layout (R111, R438). -/
def specBad (x : Word) : Bool := bits x 29 3 != 0 || 4 ≤ bits x 24 3 || (bit x 27 && bit x 28)

/-- The stream state that SBIND writes (R75, R436). -/
def streamOf (addr spec : Word) : BitVec 128 :=
  BitVec.ofNat 128 (bits spec 32 32 * 2 ^ 96 + bits spec 0 24 * 2 ^ 72 + (bit spec 27).toNat * 2 ^ 67 + bits spec 24 3 * 2 ^ 64 + addr.toNat)

/-- SBIND. -/
def sbind (s : State) (port : Nat) (a b : Reg) (sc : Stall) : State :=
  if s.ordered || s.inSystem then s.trapIllegal
  else s.gate [.w a, .w b] [] fun s =>
    let addr := s.rd a
    let spec := s.rd b
    let size := 2 ^ bits spec 24 3
    if specBad spec then s.trapIllegal
    else if addr.toNat % size != 0 || bits spec 32 32 % size != 0 then s.trapAlign addr size
    else if s.portBuffered port then s.wait .store
    else
      let s := ((s.useTagged [a, b]).popPorts [a, b]).dropAhead port
      let s := s.onCx fun c => setSbd { c with stream := c.stream.set (port % 4) (streamOf addr spec) } port (if bit spec 28 then 2 else 1)
      (if bit spec 28 || bits spec 0 24 == 0 then s else s.ensureFetch port).retire sc

/-- SFREE. -/
def sfree (s : State) (port : Nat) (sc : Stall) : State :=
  if s.ordered || s.inSystem then s.trapIllegal
  else s.gate [] [] fun s =>
    if s.portBuffered port then s.wait .store
    else ((s.dropAhead port).onCx fun c => setSbd c port 0).retire sc

/-- QBIND. -/
def qbind (s : State) (a : Reg) (sc : Stall) : State :=
  if s.ordered || s.inSystem then s.trapIllegal
  else s.gate [.w a] [] fun s =>
    let x := s.rd a
    let qiv := bit x 2
    let qov := bit x 6
    if bits x 7 57 != 0 || bit x 3 then s.trapIllegal
    else if (qiv && (s.neighbour s.here (bits x 0 2)).isNone) || (qov && (s.neighbour s.here (bits x 4 2)).isNone) then s.trapProt x
    else
      let s := (s.useTagged [a]).popPorts [a]
      (s.onCx fun c =>
        let f := setBits c.ctxf 10 6 ((if qov then bits x 4 2 else 0) + qov.toNat * 4 + (if qiv then bits x 0 2 else 0) * 8 + qiv.toNat * 32)
        { c with ctxf := f }).retire sc

/-! ## Arrivals -/

/-- The elements that a port has fetched ahead. -/
def aheadFor (c : Ctx) (port : Nat) : List AheadElt := c.ahead.filter fun e => e.port == port

/-- An in-bound port may fetch one more element: up to 8 ahead of its pops, none past its count or past a fault (R81, R437). -/
def mayFetch (c : Ctx) (port : Nat) : Bool :=
  let held := aheadFor c port
  sbd c port == 1 && c.status != .free && held.length < 8 && held.length < strCount c.stream[port % 4]
    && !(held.any fun e => e.trap.isSome)

/-- The address of the next element to fetch: past those held (R80). -/
def nextElement (c : Ctx) (port : Nat) : Word :=
  let x := c.stream[port % 4]
  strAddr x + BitVec.ofNat 64 (aheadFor c port).length * strStride x

/-- An element is held until its pop, and the port goes on to the next (R81). -/
def keepElement (s : State) (e : AheadElt) : State :=
  let s := s.onCx fun c => { c with ahead := c.ahead ++ [e] }
  if mayFetch s.cx e.port then s.ensureFetch e.port else s

/-- An element of another package's memory: its value is free, or the target never answers, which its pop meets 100 µs on
(R301; log 11). -/
def remoteElement (s : State) (port : Nat) (va : Word) (pa : Nat) : State :=
  let x := s.cx.stream[port % 4]
  let e : AheadElt :=
    { port := port, addr := va, loc := some (.mem pa), val := 0, trap := none, ready := s.cycle, atPop := false, stale := false }
  let dest := s.outTarget pa false
  let s := { s with outbox := s.outbox ++ [Out.request dest.1 0 dest.2 []] }
  if Config.choice s.fresh % 2 == 1 then
    s.tick.keepElement { e with
      trap := some { TrapInfo.plain 0x0F 7 (BitVec.ofNat 64 pa) with word := va }, ready := s.cycle + 10 * s.period }
  else
    s.tick.keepElement { e with
      val := strExtend x ((List.range (strSize x)).map (Config.remoteByte s.fresh)), ready := s.cycle + Config.latency s.fresh % (10 * s.period) }

/-- The next element of an in-bound port is fetched: its value, or the fault its pop will meet with the element's address as the
trap word (R81, R437). One of memory type 3 is only checked: its pop reads it (R219). -/
def fetchElement (s : State) (port : Nat) : State :=
  let c := s.cx
  let x := c.stream[port % 4]
  if !mayFetch c port then s
  else
    let va := nextElement c port
    let e : AheadElt :=
      { port := port, addr := va, loc := none, val := 0, trap := none, ready := s.cycle, atPop := false, stale := false }
    let exits : Exits :=
      { fail := fun s i => s.keepElement { e with trap := some { i with word := va } }
        busy := fun s _ => s.later (.streamElementArrive s.here s.slot port)
        waited := fun _ => true
        own := false }
    s.checkAccess exits va .load fun s loc mt =>
      let load := fun (s : State) =>
        let ready := s.cycle + s.loadLatency va loc
        s.loadOnce exits va (strSize x) loc mt fun s bs => s.keepElement { e with loc := some loc, val := strExtend x bs, ready := ready }
      match loc with
      | .scr _ _ => load s
      | .mem pa =>
        if isCauseway pa then
          if s.awayOwn pa then exits.busy s .store
          else match s.readClaim loc (strSize x) with
            | none => exits.busy s .speculative
            | some s => s.remoteElement port va pa
        else if mt == 3 then s.keepElement { e with loc := some loc, atPop := true }
        else load s

/-- What an answer tells the records of its task: the symbol of an LD.S (R190, R411), and the old bytes of an atomic, which are what
its log holds (R188, R347). -/
def answerRecord (s : State) (req : OutReq) (bs : List Byte) : State × BitVec 3 :=
  match req.what, req.sym, req.regs with
  | .load n, some va, .w d :: _ => s.recordSymbolic n d va (.mem req.pa) bs
  | .load n, none, .w _ :: _ => (s.recordPlain n (.mem req.pa), 0)
  | .atomic _ _ _, _, _ | .cas _ _ _, _, _ => (if s.ordered then s.undoAmend req.uid req.pa bs else s, 0)
  | _, _, _ => (s, 0)

/-- Write an answer from outside into the registers a request named, pop its operands and go on where its issue left the context
(R69, R299, R301); what the stream ports hold follows it (R214, R216). -/
def answer (s : State) (req : OutReq) (bs : List Byte) : State :=
  let s := { s with remote := s.remote.filter fun r => r.id != req.id }
  s.asCtx req.ctx fun s =>
    let (s, tag) := s.answerRecord req bs
    let s := s.popPorts req.reads
    (match req.regs with
      | [.w d, .w e] => (s.putW d (loadValue 8 true (bs.take 8)) 0 (.fixed 0)).putW e (loadValue 8 true (bs.drop 8)) 0 (.fixed 0)
      | [.w d] => s.putW d (loadValue bs.length (!req.signed) bs) tag (.fixed 0)
      | [r] => s.putV r (BitVec.ofNat 512 (leNat bs)) (.fixed 0)
      | _ => s).refetch.proceed

/-- The context still waits for this request. -/
def stillWaits (s : State) (req : OutReq) (why : Wait) : Bool :=
  let c := s.ctx req.ctx
  c.task.uid == req.uid && c.status == .waiting why

/-- The target of a Causeway access has answered: its value is free (R301; log 11). -/
def causewayAnswer (s : State) (uid : Nat) : State :=
  match s.remote.find? fun r => r.uid == uid && !r.toHost with
  | none => s
  | some req =>
    if s.stillWaits req .remote then
      s.tick.answer req ((List.range (answerBytes req.what)).map (Config.remoteByte s.fresh))
    else { s with remote := s.remote.filter fun r => r.id != req.id }

/-- No acknowledgement within 100 µs: machine check kind 7, and no register is written (R301). -/
def causewayLost (s : State) (id : Nat) : State :=
  match s.remote.find? fun r => r.id == id && !r.toHost with
  | none => s
  | some req =>
    let s' := { s with remote := s.remote.filter fun r => r.id != id }
    if s.stillWaits req .remote then s'.asCtx req.ctx fun s => s.trap 0x0F 7 (BitVec.ofNat 64 req.pa) else s'

/-- The new bytes that an AtomicOp leaves at the root complex (R299). -/
def hostNewValue (what : RemoteOp) (old : Nat) : Option (List Byte) :=
  match what with
  | .atomic order k val => some (leBytes k (atomicValue order (8 * k) old val.toNat))
  | .cas k cmp new => if old == cmp then some (leBytes k new) else none
  | .load _ | .store _ => none

/-- Bytes of memory at an address after a write. -/
def overlay (at_ : Nat) (bs : List Byte) (w : Nat × List Byte) : List Byte :=
  bs.mapIdx fun i b => if w.1 ≤ at_ + i then w.2.getD (at_ + i - w.1) b else b

/-- The places of an AtomicOp among the writes of its bytes since it was sent at which it finds the old bytes that its completion
brings (R244). -/
def atomicPlaces (req : OutReq) (old : List Byte) : List Nat :=
  (List.range (req.since.length + 1)).filter fun j => (req.since.take j).foldl (overlay req.pa) req.base == old

/-- What an AtomicOp leaves in host memory, which serialises it with the host's stores (R244): its new bytes at one of its places, a
free choice (log 107), and over them the writes that came after. -/
def hostAtomicWrite (s : State) (req : OutReq) (old new : List Byte) : State :=
  let places := atomicPlaces req old
  let after := req.since.drop (places.getD (s.choose places.length) req.since.length)
  let bs := after.foldl (overlay req.pa) new
  (s.tick.writeAt none req.pa bs).noteHost req.pa bs

/-- The completion of a PCI Express AtomicOp (R299): the old value, or protection at the instruction. -/
def atomicAnswer (s : State) (id : Nat) (status : HostStatus) (old : Nat) : State :=
  match s.remote.find? fun r => r.id == id && r.toHost with
  | none => s
  | some req =>
    let n := answerBytes req.what
    let old := old % 2 ^ (8 * n)
    let drop := fun (s : State) => { s with remote := s.remote.filter fun r => r.id != id }
    if status == .sc then
      let s := match hostNewValue req.what old with
        | some bs => s.hostAtomicWrite req (leBytes n old) bs
        | none => s
      if s.stillWaits req .atomicOp then s.answer req (leBytes n old) else drop s
    else if s.stillWaits req .atomicOp then (drop s).asCtx req.ctx fun s => s.trapProt (s.rd (req.reads.headD 0))
    else drop s

/-- A deposit lands in the target's forward-in (R82). -/
def landDeposit (s : State) (t slot : Nat) (val : Word) : State :=
  let s := s.onTile t fun x => { x with coming := removeNat slot x.coming }
  let k := ctxKey t slot
  match s.ctxs.get? k with
  | none => s
  | some c =>
    if c.status == .free then s
    else (s.setCtx k { c with w := c.w.set 52 val, ctxf := setBit c.ctxf 16 true }).wakeCtx k

/-- A pushed dword lands in an inbound queue (R84). -/
def landQueue (s : State) (t dir : Nat) (val : Word) (lq : Nat) : State :=
  if (s.launches.get? lq).isNone then s
  else
    let s := s.onTile t fun x => { x with inq := x.inq.set (dir % 4) (x.inq[dir % 4] ++ [(val, lq)]) }
    let s := (s.onTileLaunch t lq fun x => { x with qrecv := x.qrecv + 1 }).wakeTile t
    (s.ctxs.filter fun (k, c) => k / 32 == t && k % 32 != 16 && c.task.lq == lq && qinBound c && qinDir c == dir).foldl
      (fun s e => s.wakeCtx e.1) s

/-- The workspace is in the thread-context store: the context may issue (R78); a fault held before stays held (R203). -/
def workspaceIn (s : State) (t slot : Nat) : State :=
  let k := ctxKey t slot
  match s.ctxs.get? k with
  | none => s
  | some c =>
    if c.status == .waiting .entry then
      s.setCtx k { c with status := if c.heldFault.isSome then .waiting .deferred else .ready, next := max c.next s.cycle }
    else s

end State

/-- SBIND (R436). -/
def execSbind (port : BitVec 2) (a b : Reg) (sc : Stall) (s : State) : Result := .next (s.sbind port.toNat a b sc)
/-- SFREE (R436). -/
def execSfree (port : BitVec 2) (sc : Stall) (s : State) : Result := .next (s.sfree port.toNat sc)
/-- QBIND (R432). -/
def execQbind (a : Reg) (sc : Stall) (s : State) : Result := .next (s.qbind a sc)

/-- A result arrives (R71); the name .w 0 stands for the answer to a Causeway access. -/
def execResultArrive (uid : Nat) (reg : RegRef) (s : State) : Result :=
  .next (if reg == .w 0 then s.causewayAnswer uid else s.landValue uid reg none)
/-- A forward deposit lands (R82). -/
def execFwdDepositLand (tile slot : Nat) (val : Word) (s : State) : Result := .next (s.landDeposit tile slot val)
/-- A queue dword lands (R84). -/
def execQueueDwordLand (tile dir : Nat) (val : Word) (lq : Nat) (s : State) : Result := .next (s.landQueue tile dir val lq)
/-- A stream element arrives (R81). -/
def execStreamElementArrive (tile slot port : Nat) (s : State) : Result :=
  .next (s.asCtx (ctxKey tile slot) fun s => s.fetchElement port)
/-- A workspace finishes moving (R78). -/
def execWorkspaceMoveDone (tile slot : Nat) (s : State) : Result := .next (s.workspaceIn tile slot)
/-- A store is acknowledged and so performed (R210). -/
def execStoreAcknowledge (id : Nat) (s : State) : Result := .next (s.acknowledge id)
/-- A Causeway request meets its 100 µs limit (R301). -/
def execCausewayTimeout (req : Nat) (s : State) : Result := .next (s.causewayLost req)
/-- An AtomicOp's completion arrives (R299). -/
def execAtomicopCompletion (req : Nat) (status : HostStatus) (old : Nat) (s : State) : Result := .next (s.atomicAnswer req status old)

end Sys2Proof.Machine
end

