-- ==== Sys2Proof/Machine/Sync.lean ====
section
/-!
DEFINITION. Fences, barriers, waits and publication (R217, R222..R226, R228, R232..R235, R352..R355, R392, R393, R430,
R431, R494, R495).
-/
namespace Sys2Proof.Machine

namespace State

/-- An engine command of the running task is outstanding (R228). -/
def ownCommands (s : State) : Bool := s.tiles.any fun (_, x) => x.cmds.any fun (_, c) => c.uid == s.cx.task.uid

/-- FENCE and FENCE.X: complete at once in an ordered task (R177, R393). What the stream ports hold follows the fence (R217,
R228). -/
def fenceOp (s : State) (engines : Bool) (scope : Scope) (sc : Stall) : State :=
  s.gate [] [] fun s =>
    if s.ordered then s.retire sc
    else if (scope != .ctx && s.ownPending) || (engines && s.ownCommands) then s.wait .fence
    else (if scope == .ctx && !engines then s else s.refetch).retire sc

/-! ## Barriers -/

def barrierOf (bs : List Byte) : Barrier :=
  { arrived := leNat (bs.take 4), expected := leNat ((bs.drop 4).take 4), gen := leNat ((bs.drop 8).take 4),
    flags := leNat (bs.drop 12) }
def Barrier.bytes (b : Barrier) : List Byte :=
  leBytes 4 b.arrived ++ leBytes 4 b.expected ++ leBytes 4 b.gen ++ leBytes 4 b.flags

/-- An operation at the barrier's home (R225): `early` is refused on the registration list alone, before translation (R275); `f`
gives the new object or refuses it by a trap; `k` goes on. -/
def barrierOp (s : State) (scope : Scope) (a : Reg) (early : State → Word → Bool) (f : State → Barrier → Option Barrier)
    (refuse : State → Word → Barrier → State) (k : State → Word → Loc → Barrier → State) : State :=
  if s.ordered then s.trapIllegal
  else s.gate [.w a] [] fun s =>
    let va := s.rd a
    if va.toNat % 16 != 0 then s.trapAlign va 16
    else if early s va then s.trapProt va
    else s.release scope fun s => s.checkAccess .run va .object fun s loc _ =>
      let g := f s
      s.rmwAt va 16 loc (fun old => (g (barrierOf old)).map Barrier.bytes) fun s old =>
        match g (barrierOf old) with
        | none => refuse s va (barrierOf old)
        | some _ => k s va loc (barrierOf old)

/-- Complete an instruction whose operand is register a. -/
def doneWith (s : State) (a : Reg) (sc : Stall) : State := ((s.useTagged [a]).popPorts [a]).retire sc

/-- A waiting BAR reads gen as a free access, which an uncommitted store of it does not show (R184, R221): the state once the phase
is over. -/
def phaseOver (s : State) (va : Word) (g : BitVec 32) : Option State :=
  match s.locate s.cx.task.lq s.cx.task.blk va .read with
  | .inr _ => none
  | .inl x =>
    if (s.barrierAt x).gen == g.toNat then none
    else ((s.resolve .free false x 16).map (·.1)).filter fun s => (s.barrierAt x).gen != g.toNat

/-- BAR (R223): a release, and an acquire once it completes. -/
def bar (s : State) (scope : Scope) (a : Reg) (sc : Stall) : State :=
  match s.cx.barGen with
  | some (va, g) => match s.phaseOver va g with
    | none => s.wait .barrier
    | some s => ((s.onCx fun c => { c with barGen := none }).refetch).doneWith a sc
  | none =>
    s.barrierOp scope a (fun _ _ => false)
      (fun _ b => if !b.flagsOk || b.expected < b.arrived + 1 then none
        else if b.arrived + 1 == b.expected then some b.release else some { b with arrived := b.arrived + 1 })
      (fun s va b => if !b.flagsOk then s.trapProt va else s.trap 0x0A va (BitVec.ofNat 64 b.expected))
      (fun s va loc b =>
        if b.arrived + 1 == b.expected then ((s.wakeBarrier loc).refetch).doneWith a sc
        else (s.onCx fun c => { c with barGen := some (va, BitVec.ofNat 32 b.gen) }).hold .barrier)

/-- BARJOIN (R224). -/
def barjoin (s : State) (a : Reg) (sc : Stall) : State :=
  s.barrierOp .ctx a (fun s _ => 4 ≤ s.cx.regs.length)
    (fun _ b => if !b.flagsOk || !b.elastic || b.expected + 1 == 2 ^ 32 then none
      else some { b with expected := b.expected + 1 })
    (fun s va _ => s.trapProt va)
    (fun s va _ _ => (s.onCx fun c => { c with regs := c.regs ++ [va] }).doneWith a sc)

/-- BARLEAVE (R224). -/
def barleave (s : State) (a : Reg) (sc : Stall) : State :=
  let after := fun (b : Barrier) => { b with expected := (b.expected + 2 ^ 32 - 1) % 2 ^ 32 }
  let met := fun (b : Barrier) => b.arrived != 0 && b.arrived == b.expected
  s.barrierOp .ctx a (fun s va => !s.cx.regs.contains va)
    (fun _ b => if !b.flagsOk || !b.elastic then none
      else if met (after b) then some (after b).release else some (after b))
    (fun s va _ => s.trapProt va)
    (fun s va loc b =>
      let s := s.onCx fun c => { c with regs := c.regs.erase va }
      (if met (after b) then s.wakeBarrier loc else s).doneWith a sc)

/-- A load of WAIT: the wait goes on while the dword equals the value, and ends otherwise. -/
def waitLoad (s : State) (va x : Word) (equal : State → Loc → State) (differs : State → State) : State :=
  s.checkAligned .run va 8 .watch fun s loc mt =>
    s.loadAt .run va 8 loc mt fun s bs => if leNat bs == x.toNat then equal s loc else differs s

/-- The WAIT that the running task has under way. -/
def watchOf (s : State) (uid : Nat) : Option Watch := s.watches.find? fun w => w.uid == uid

def endWatch (s : State) (uid : Nat) : State := { s with watches := s.watches.filter fun w => w.uid != uid }

/-- WAIT (R494): its operands are read once, at issue; a wait, not sleep, while the dword equals b, with one new load after each
performed write to the line (`notice`), and afresh on resumption. The load that ends it is an acquire (R214). -/
def waitOp (s : State) (a b : Reg) (sc : Stall) : State :=
  if s.ordered then s.trapIllegal
  else
    let u := s.cx.task.uid
    match s.watchOf u with
    | some w =>
      s.waitLoad w.va w.val
        (fun s loc => ({ s.endWatch u with watches := { w with loc := loc, due := false } :: (s.endWatch u).watches }).wait .memWord)
        (fun s => (s.endWatch u).refetch.retire sc)
    | none => s.gate [.w a, .w b] [] fun s =>
      let va := s.rd a
      let x := s.rd b
      let read := fun (s : State) => (s.useTagged [a, b]).popPorts [a, b]
      s.waitLoad va x
        (fun s loc => ({ read s with watches := { uid := u, va := va, val := x, loc := loc, due := false } :: (read s).watches }).hold .memWord)
        (fun s => (read s).refetch.retire sc)

/-! ## Publication -/

/-- The region that a descriptor's fields give, or none where they break R232 or the instruction's scope differs (R233). -/
def regionOf (desc : Word) (scope : Nat) (bs : List Byte) : Option PubRegion :=
  let base : Word := BitVec.ofNat 64 (leNat (bs.take 8))
  let len := leNat ((bs.drop 8).take 8)
  if base.toNat % 64 == 0 && vclass base == .memory && 64 ≤ len && len % 64 == 0 && len ≤ 2 ^ 30
      && vclass (base + BitVec.ofNat 64 (len - 1)) == .memory
      && (base.toNat < 2 ^ 63) == ((base + BitVec.ofNat 64 (len - 1)).toNat < 2 ^ 63)
      && leNat ((bs.drop 24).take 1) == scope && (bs.drop 25).all fun b => b == 0
  then some { desc := desc, base := base, len := len, scope := scope, closer := none, queue := [] } else none

/-- A declaration stands against the launch's other regions and ranges (R233). -/
def regionFits (l : Launch) (r : PubRegion) : Bool :=
  let meets := fun (b : Word) (n : Nat) => decide (r.base.toNat < b.toNat + n) && decide (b.toNat < r.base.toNat + r.len)
  l.regions.length < 8 && !(l.regions.any fun x => meets x.base x.len) && !(l.ranges.any fun x => meets x.base x.len)

/-- A region of a launch changes. -/
def onRegion (s : State) (lq : Nat) (desc : Word) (f : PubRegion → PubRegion) : State :=
  s.onLaunch lq fun l => { l with regions := l.regions.map fun y => if y.desc == desc then f y else y }

/-- A PUBLISH on a declared region: it closes the phase, or waits behind those that came before it (R235, R431). -/
def closePhase (s : State) (x : PubRegion) (a : Reg) (sc : Stall) : State :=
  let me := (s.cur, sc, a)
  let lq := s.cx.task.lq
  if x.closer.isSome then (s.onRegion lq x.desc fun y => { y with queue := y.queue ++ [me] }).park .publish sc
  else ((s.onRegion lq x.desc fun y => { y with closer := some me }).later (.publishComplete s.here s.slot)).park .publish sc

/-- PUBLISH (R233, R235, R430). -/
def publish (s : State) (scope : Scope) (a : Reg) (sc : Stall) : State :=
  if s.ordered then s.trapIllegal
  else s.gate [.w a] [] fun s =>
    let desc := s.rd a
    let lq := s.cx.task.lq
    if desc.toNat % 64 != 0 then s.trapAlign desc 64
    else s.release scope fun s =>
      s.checkAccess .run desc .load fun s _ _ => s.checkAccess .run desc .store fun s loc _ =>
        match loc with
        | .scr _ _ => s.trapProt desc
        | .mem _ =>
          match s.readClaim loc 64 with
          | none => s.wait .speculative
          | some s =>
            let s := s.locReady (dieOf s.here) loc
            let bytes := s.locRead loc 64
            match regionOf desc (match scope with | .ctx => 0 | .tile => 1 | .clu => 2 | .die => 3 | .pkg => 4 | .sys => 5) bytes with
            | none => s.trapProt desc
            | some r =>
              if leNat ((bytes.drop 16).take 8) == 0 then
                if !regionFits s.myLaunch r then s.trapProt desc
                else s.rmwAt desc 64 loc (fun old => some (old.take 16 ++ leBytes 8 1 ++ old.drop 24)) fun s _ =>
                  ((s.onLaunch lq fun l => { l with regions := l.regions ++ [r] }).refetch).doneWith a sc
              else match s.myLaunch.regions.find? fun x => x.desc == desc with
                | none => s.trapProt desc
                | some x => s.closePhase x a sc

/-- A die's private copy of a line is merged into it, and every copy of the line is invalid (R235 steps 2..4): a free store
(R184). None while the line is under way or the store has to wait. -/
def mergeLine (s : State) (p : PrivLine) : Option State :=
  (s.resolve .free true (.mem (64 * p.line)) 64).bind fun r =>
    (r.1.homeWrite p.line).map fun s =>
      (((s.backInval p.line).l1Drop p.line fun _ => true).writeBytes none p.bytes).requestRepairs r.2

def mergeLines (s : State) : List PrivLine → Option State
  | [] => some s
  | p :: ps => (s.mergeLine p).bind fun s => s.mergeLines ps

/-- The phase advances by a free store of its dword (R235 step 5). -/
def advancePhase (s : State) (die : Nat) (x : Loc) : Option State :=
  (s.resolve .free true (locAdd x 16) 8).map fun r =>
    let s := r.1.locReady die x
    (s.locWrite die (locAdd x 16) (leBytes 8 (s.locNat (locAdd x 16) 8 + 1))).requestRepairs r.2

/-- The next PUBLISH of the region has its turn (R235). -/
def nextPublish (s : State) (lq : Nat) (desc : Word) : State :=
  match ((s.launch lq).regions.find? fun r => r.desc == desc).map fun r => r.queue with
  | some (n :: rest) =>
    (s.onRegion lq desc fun y => { y with closer := some n, queue := rest }).later (.publishComplete (n.1 / 32) (n.1 % 32))
  | _ => s.onRegion lq desc fun y => { y with closer := none }

/-- The home has collected and merged the private copies, die by die, and advances phase (R235); it waits for a line that is under
way, or of which a sharer is out of reach: when the retries are over the copy is lost, and PUBLISH, which would have written it,
takes the machine check (R241). -/
def publishDone (s : State) (k : Nat) : State :=
  let c := s.ctx k
  let lq := c.task.lq
  match (s.launch lq).regions.find? fun r => r.closer.any fun x => x.1 == k with
  | none => s
  | some r =>
    let mine := fun (p : PrivLine) => p.lq == lq && p.desc == r.desc
    let copies := sortBy (fun (a b : PrivLine) => a.die < b.die) (s.priv.filter mine)
    let fail := fun (s : State) (f : PageFail) => (s.asCtx k fun s => s.trapFail f).nextPublish lq r.desc
    match r.closer, s.locate lq c.task.blk r.desc .read, s.locate lq c.task.blk r.desc .write with
    | some (_, _, a), .inl _, .inl x =>
      match copies.find? fun p => s.poison.contains p.line with
      | some p =>
        fail { s with priv := s.priv.filter fun q => !(q.die == p.die && q.line == p.line) }
          { cause := 0x0F, word := 1, val2 := BitVec.ofNat 64 (64 * p.line) }
      | none =>
        match (s.mergeLines copies).bind fun s => s.advancePhase (dieOf (k / 32)) x with
        | none => (copies.foldl (fun s p => s.enterF p.line none) s).later (.publishComplete (k / 32) (k % 32))
        | some s =>
          ({ s with priv := s.priv.filter fun p => !mine p }.asCtx k fun s =>
            (((s.useTagged [a]).popPorts [a]).refetch).proceed).nextPublish lq r.desc
    | some _, .inr f, _ | some _, _, .inr f => fail s f
    | none, _, _ => s

end State

/-- FENCE (R217). -/
def execFence (scope : Scope) (sc : Stall) (s : State) : Result := .next (s.fenceOp false scope sc)
/-- FENCE.X (R228). -/
def execFenceX (scope : Scope) (sc : Stall) (s : State) : Result := .next (s.fenceOp true scope sc)
/-- BAR (R223). -/
def execBar (scope : Scope) (a : Reg) (sc : Stall) (s : State) : Result := .next (s.bar scope a sc)
/-- BARJOIN (R224). -/
def execBarjoin (_ : Scope) (a : Reg) (sc : Stall) (s : State) : Result := .next (s.barjoin a sc)
/-- BARLEAVE (R224). -/
def execBarleave (_ : Scope) (a : Reg) (sc : Stall) (s : State) : Result := .next (s.barleave a sc)
/-- WAIT (R494). -/
def execWait (_ : Scope) (a b : Reg) (sc : Stall) (s : State) : Result := .next (s.waitOp a b sc)
/-- PUBLISH (R430). -/
def execPublish (scope : Scope) (a : Reg) (sc : Stall) (s : State) : Result := .next (s.publish scope a sc)
/-- A publication completes (R235). -/
def execPublishComplete (tile slot : Nat) (s : State) : Result := .next (s.publishDone (ctxKey tile slot))

end Sys2Proof.Machine
end

