-- ==== Sys2Proof/Machine/Tickets.lean ====
section
/-!
DEFINITION. The ticket instructions (R253..R256, R385..R388, R397) and the due cycle of a promise (R254).
-/
namespace Sys2Proof.Machine

namespace State

/-- The live command a ticket denotes (R250). -/
def liveCmd (s : State) (x : Word) : Option Cmd :=
  if !ticketV x then none
  else ((s.tile (ticketTile x)).cmds.get? (ticketEntry x)).filter fun c => c.registered && sameTicket c.ticket x

/-- The undelivered fault of a ticket (R255). -/
def faultOf (s : State) (x : Word) : Option FaultedTicket :=
  if !ticketV x then none else (s.tile (ticketTile x)).faulted.find? fun f => ticketEntry f.ticket == ticketEntry x && sameTicket f.ticket x

/-- The tile field names no live tile (R253). -/
def ticketBad (s : State) (x : Word) : Bool := ticketV x && !s.live (ticketTile x)

/-- Deliver the fault of a ticket once (R255). -/
def deliver (s : State) (x : Word) (f : FaultedTicket) : State :=
  let s := s.onTile (ticketTile x) fun y => { y with faulted := y.faulted.erase f }
  s.raise { TrapInfo.plain f.cause x (BitVec.ofNat 64 f.index) with eng := true }

/-- The cycle in which the counter reached the promise is over (R254): a command that completes in that cycle has kept it
(R256). -/
def dueOver (s : State) (c : Cmd) : Bool := (s.cycle % 2 ^ 32 + 2 ^ 32 - (c.due + 1) % 2 ^ 32) % 2 ^ 32 < 2 ^ 31

/-- Raise the promise-missed trap, once for each command (R254). -/
def missPromise (s : State) (c : Cmd) : State :=
  let x := c.ticket
  let s := s.onTile (ticketTile x) fun y => { y with cmds := y.cmds.set (ticketEntry x) { c with missed := true } }
  s.trap 0x08 x (BitVec.ofNat 64 c.due)

/-- FWAIT (R386): it waits until the command ends (`endCmd`) or its promise falls due (`promiseFalls`). Completion observed is an
acquire (R229). -/
def fwait (s : State) (e : BitVec 3) (sc : Stall) : State :=
  if s.ordered then s.trapIllegal
  else s.gate [.e e] [] fun s =>
    let x := s.cx.e[e.toNat]
    if s.ticketBad x then s.trapProt (BitVec.ofNat 64 (ticketTile x))
    else match s.faultOf x, s.liveCmd x with
      | some f, _ => s.deliver x f
      | none, none => s.refetch.retire sc
      | none, some c =>
        if s.dueOver c && !c.missed then s.missPromise c
        else
          let s := s.onCx fun d => { d with waitOn := some x }
          let due := Event.promiseDue s.here s.slot
          let left := ((c.due + 1) % 2 ^ 32 + 2 ^ 32 - s.cycle % 2 ^ 32) % 2 ^ 32
          (if c.missed || s.agenda.any fun p => p == (s.cycle + left, due) then s else s.after left due).park .ticket sc

/-- FTEST (R386); 1 is completion observed, an acquire (R229). -/
def ftest (s : State) (e : BitVec 3) (a : Reg) (sc : Stall) : State :=
  if s.ordered then s.trapIllegal
  else s.gate [.e e] [.w a] fun s =>
    let x := s.cx.e[e.toNat]
    if s.ticketBad x then s.trapProt (BitVec.ofNat 64 (ticketTile x))
    else match s.faultOf x with
      | some f => s.deliver x f
      | none =>
        let done := (s.liveCmd x).isNone
        ((if done then s.refetch else s).putW a (Word.ofBool done) 0 (.variable 1)).retire sc

/-- FCANCEL (R386): SPMIG cannot be cancelled (R170). -/
def fcancel (s : State) (e : BitVec 3) (sc : Stall) : State :=
  if s.ordered then s.trapIllegal
  else s.gate [.e e] [] fun s =>
    let x := s.cx.e[e.toNat]
    if s.ticketBad x then s.trapProt (BitVec.ofNat 64 (ticketTile x))
    else match s.liveCmd x with
      | none => s.retire sc
      | some c =>
        if c.op == .spmig then s.retire sc
        else (s.onTile (ticketTile x) fun y => { y with cmds := y.cmds.set (ticketEntry x) { c with cancel := c.cancel.or (some s.cycle) } }).retire sc

/-- FPASS to a scalar register (R397). -/
def fpassOut (s : State) (e : BitVec 3) (a : Reg) (sc : Stall) : State :=
  if s.ordered then s.trapIllegal
  else s.gate [.e e] [.w a] fun s => (s.putW a s.cx.e[e.toNat] 0 (.fixed 4)).retire sc

/-- FPASS to a ticket register (R397). -/
def fpassIn (s : State) (e : BitVec 3) (a : Reg) (sc : Stall) : State :=
  if s.ordered then s.trapIllegal
  else s.gate [.w a] [.e e] fun s =>
    let v := s.rd a
    (((s.useTagged [a]).popPorts [a]).putV (.e e) (v.setWidth 512) (.fixed 4)).retire sc

/-- The promise of the ticket that a context's FWAIT waits on has fallen due: of those that wait on it, the lowest tile and
slot takes the trap (R254, R388). A completion due at this same moment comes first: the command has kept its promise (R256). -/
def promiseFalls (s : State) (k : Nat) : State :=
  let d := s.ctx k
  match d.status == .waiting .ticket, d.waitOn with
  | true, some x =>
    match s.liveCmd x with
    | some c =>
      if s.agenda.any fun e => e == (s.cycle, .commandComplete (ticketTile x) (ticketEntry x)) then
        s.after 0 (.promiseDue (k / 32) (k % 32))
      else if s.dueOver c && !c.missed then s.asCtx ((s.waitingOn x).headD k) fun s => s.missPromise c else s
    | none => s
  | _, _ => s

end State

/-- FWAIT (R386). -/
def execFwait (e : BitVec 3) (sc : Stall) (s : State) : Result := .next (s.fwait e sc)
/-- FTEST (R386). -/
def execFtest (e : BitVec 3) (a : Reg) (sc : Stall) (s : State) : Result := .next (s.ftest e a sc)
/-- FCANCEL (R386). -/
def execFcancel (e : BitVec 3) (sc : Stall) (s : State) : Result := .next (s.fcancel e sc)
/-- FPASS a, e (R397). -/
def execFpassRead (e : BitVec 3) (a : Reg) (sc : Stall) (s : State) : Result := .next (s.fpassOut e a sc)
/-- FPASS e, a (R397). -/
def execFpassWrite (e : BitVec 3) (a : Reg) (sc : Stall) (s : State) : Result := .next (s.fpassIn e a sc)
/-- A promise falls due (R254). -/
def execPromiseDue (tile slot : Nat) (s : State) : Result := .next (s.promiseFalls (ctxKey tile slot))

end Sys2Proof.Machine
end

