-- ==== Sys2Proof/Machine/Cycle.lean ====
section
/-!
DEFINITION. The package's time: the events that fall due, what the device does at the end of a cycle, and the next cycle
with its periodic events (R56, R58, R59, R304; log 13).
-/
namespace Sys2Proof.Machine

/-- An event of the agenda takes place. -/
def runEvent (e : Event) (s : State) : Result :=
  match e with
  | .resultArrive u r => execResultArrive u r s
  | .fwdDepositLand t n v => execFwdDepositLand t n v s
  | .queueDwordLand t d v q => execQueueDwordLand t d v q s
  | .streamElementArrive t n p => execStreamElementArrive t n p s
  | .workspaceMoveDone t n => execWorkspaceMoveDone t n s
  | .taskRecordArrive t r sent => .next (s.recordArrives t r sent)
  | .balance t => execBalance t s
  | .sluiceSample => execSluiceSample s
  | .sluiceBroadcast r t => execSluiceBroadcast r t s
  | .budgetPeriod => execBudgetPeriod s
  | .wispRepair u => execWispRepair u s
  | .pageInDone b p => execPageInDone b p s
  | .pagePullDone b p => execPagePullDone b p s
  | .blockMove b => execBlockMove b s
  | .ticketRegister t e => execTicketRegister t e s
  | .doneTicket t e c => execDoneTicket t e c s
  | .commandComplete t e => execCommandComplete t e s
  | .promiseDue t n => execPromiseDue t n s
  | .leaseGrant c => execLeaseGrant c s
  | .leaseRearbitrate c => execLeaseRearbitrate c s
  | .tilePowerGate t => execTilePowerGate t s
  | .tileWake t => execTileWake t s
  | .powerInterval => execPowerInterval ((List.range 36).map (Config.reportedCurrent s.fresh)) s.tick
  | .hostServe => .next s.hostServe
  | .hostFenceDone => execHostFenceDone s
  | .xinvDone d => execXinvDone d s
  | .attestDone => execAttestDone s
  | .reads d l => execReads d l s
  | .readx d l => execReadx d l s
  | .upgrade d l => execUpgrade d l s
  | .writeback d l => execWriteback d l s
  | .fwddata d l => execFwddata d l s
  | .fwdnone d l => execFwdnone d l s
  | .invack d l => execInvack d l s
  | .dataS d l => execDataS d l s
  | .dataE d l => execDataE d l s
  | .dataM d l => execDataM d l s
  | .upgack d l => execUpgack d l s
  | .inv d l => execInv d l s
  | .fwds d l => execFwds d l s
  | .fwdx d l => execFwdx d l s
  | .wback d l => execWback d l s
  | .invRetryTimeout l => execInvRetryTimeout l s
  | .causewayTimeout q => execCausewayTimeout q s
  | .storeAcknowledge i => execStoreAcknowledge i s
  | .publishComplete t n => execPublishComplete t n s
  | .crdeclInForce q b => execCrdeclInForce q b s

namespace State

/-- The tile of a store that an event acknowledges. -/
def ackTile (s : State) : Event → Option Nat
  | .storeAcknowledge i => some (((s.stores.find? fun p => p.id == i).map fun p => p.tile).getD 0)
  | _ => none

/-- The event to run of some that are due, the first: of stores acknowledged in one cycle the one of the lowest tile (R463). -/
def firstDue (s : State) (e : Nat × Event) (due : List (Nat × Event)) : Nat × Event :=
  match s.ackTile e.2 with
  | none => e
  | some _ =>
    (leastBy (fun (a b : Nat × Event) => (s.ackTile a.2).getD 0 < (s.ackTile b.2).getD 0)
      (due.filter fun x => (s.ackTile x.2).isSome)).getD e

/-- The next event that is due, and the state without it. -/
def dueEvent (s : State) : Option (Event × State) :=
  match s.agenda with
  | e :: _ =>
    if e.1 ≤ s.cycle then
      let x := s.firstDue e (s.agenda.takeWhile fun x => x.1 ≤ s.cycle)
      some (x.2, { s with agenda := s.agenda.erase x })
    else none
  | [] => none

/-! ## The end of a cycle -/

def hostAtomics (s : State) : Option State := s.hostAtomicDue.map s.hostAtomicEnd

def splits (s : State) : Option State :=
  ((AMap.keys s.tiles).find? s.splitDue).map fun t => s.splitApply t

def starts (s : State) : Option State :=
  ((AMap.keys s.queues).find? s.launchDue).map fun q => s.launchStart q

def halts (s : State) : Option State := (s.ctxs.find? fun e => s.haltDue e.1 e.2).map fun e => s.haltCtx e.1

def moves (s : State) : Option State := ((AMap.keys s.blocks).find? s.canMove).map fun b => s.beginMove b

def replays (s : State) : Option State := ((AMap.keys s.tiles).find? s.replayDue).map fun t => s.replay t

def admissions (s : State) : Option State := (AMap.keys s.tiles).findSome? s.admitRecord

def systemTraps (s : State) : Option State :=
  ((AMap.keys s.tiles).find? s.trapReady).map fun t => s.systemTrap t

def preemptions (s : State) : Option State :=
  (s.ctxs.find? fun e => e.1 % 32 != 16 && s.preemptDue e.1 e.2).map fun e => s.preemptNow e.1

def sliceEnds (s : State) : Option State :=
  (s.ctxs.find? fun e => s.sliceDue e.1 e.2).map fun e => s.sliceEnd e.1

def dispatches (s : State) : Option State := (AMap.keys s.tiles).findSome? s.dispatchChoice

def gatings (s : State) : Option State :=
  ((AMap.keys s.tiles).find? fun t => !(s.tile t).gated && s.quiet t && (s.tile t).idleSince + s.period ≤ s.cycle).map fun t => s.gate_ t

/-- One thing that the device does by itself at the end of a cycle, in a fixed order (log 13); none when nothing is left. -/
def endOfCycle (s : State) : Option State :=
  s.hostAtomics <|> s.splits <|> s.starts <|> s.halts <|> s.moves <|> s.replays <|> s.admissions <|> s.systemTraps <|> s.preemptions <|> s.sliceEnds
    <|> s.dispatches <|> s.gatings

/-! ## The next cycle -/

/-- The tiles that hold contexts, in rising order. -/
def busyTiles (s : State) : List Nat :=
  s.ctxs.foldr (fun e ts => if e.2.status == .free || ts.head? == some (e.1 / 32) then ts else e.1 / 32 :: ts) []

/-- Cycles of 1 µs (R304, R308). -/
def microsecond (s : State) : Nat := s.period / 10

/-- The next cycle: the turns of the tiles whose clocks tick begin (R304), held operations and the system contexts' services go on
(R67, R205), and what falls on this cycle by the counter is scheduled. -/
def nextCycle (s : State) : State :=
  let c := s.cycle + 1
  let s := ((AMap.keys s.tiles).foldl carryOn s).restSystem
  let s := { s with cycle := c, popped := [], left := [] }
  let s := { s with turn := s.busyTiles.filter s.ticks }
  let s := { s with tiles := s.tiles.mapVals fun t x => if s.quiet t then x else { x with idleSince := c } }
  let s := if c % 128 == 0 && !s.launches.isEmpty then s.after 0 .sluiceSample else s
  let s := if c % 256 == 0 then
      (AMap.keys s.tiles).foldl (fun s t => s.after 0 (.balance t))
        { s with tiles := s.tiles.mapVals fun _ x => { x with sample := x.queue.length } }
    else s
  let s := if c % s.period == 0 then s.after 0 .budgetPeriod else s
  if c % s.microsecond == 0 then s.after 0 .powerInterval else s

/-- No turn is left: the end of the cycle, or the next one. -/
def betweenTurns (s : State) : State := s.endOfCycle.getD s.nextCycle

end State

end Sys2Proof.Machine
end

