-- ==== Sys2Proof/Machine/Control.lean ====
section
/-!
DEFINITION. Branches and jumps (R101, R356, R407, R408). Target(off, n) is pc + 4 · SignExtend(off, n) in 24 bits.
-/
namespace Sys2Proof.Machine

/-- Target (R101): word offsets from the instruction, modulo 2^24. -/
def target {n : Nat} (pc : BitVec 24) (off : BitVec n) : BitVec 24 := pc + (signExtend off n <<< 2).setWidth 24

namespace State

/-- Go to a target: a taken branch or jump empties the fetch buffer (R86). -/
def jumpTo (s : State) (pc : BitVec 24) (sc : Stall) : State := (s.onCx fun c => { c with fetchBuf := [] }).goTo pc sc

/-- A conditional branch with its constraint (R191, R192, R356). -/
def branch (s : State) (a b : Reg) (off : BitVec 12) (cmp : SymCmp) (sc : Stall) (f : Word → Word → Bool) : State :=
  s.gate [.w a, .w b] [] fun s =>
    let out := f (s.rd a) (s.rd b)
    let pc := s.cx.pc
    let s := (s.constrain2 cmp a b out).popPorts [a, b]
    if out then s.jumpTo (target pc off) sc else s.retire sc

end State

/-- BEQ (R356). -/
def execBeq (a b : Reg) (off : BitVec 12) (sc : Stall) (s : State) : Result :=
  .next (s.branch a b off .eq sc fun x y => x == y)

/-- BNE (R356). -/
def execBne (a b : Reg) (off : BitVec 12) (sc : Stall) (s : State) : Result :=
  .next (s.branch a b off .ne sc fun x y => x != y)

/-- BLT, signed (R356). -/
def execBlt (a b : Reg) (off : BitVec 12) (sc : Stall) (s : State) : Result :=
  .next (s.branch a b off .lt sc Word.slt)

/-- BGE, signed (R356). -/
def execBge (a b : Reg) (off : BitVec 12) (sc : Stall) (s : State) : Result :=
  .next (s.branch a b off .ge sc fun x y => !Word.slt x y)

/-- J (R407). -/
def execJ (off : BitVec 24) (sc : Stall) (s : State) : Result :=
  .next (s.gate [] [] fun s => s.jumpTo (target s.cx.pc off) sc)

/-- JAL (R407): lk := NextPc, untagged, with latency 4. -/
def execJal (off : BitVec 24) (sc : Stall) (s : State) : Result :=
  .next (s.gate [] [.w 61] fun s =>
    let pc := s.cx.pc
    (s.putW 61 ((nextPc pc).setWidth 64) 0 (.fixed 4)).jumpTo (target pc off) sc)

/-- JALR (R408): a target that is not a multiple of 4 raises alignment with d unchanged. -/
def execJalr (d a : Reg) (imm : BitVec 12) (sc : Stall) (s : State) : Result :=
  .next (s.gate [.w a] [.w d] fun s =>
    let t : BitVec 24 := (s.rd a + signExtend imm 12).setWidth 24
    if t.toNat % 4 != 0 then s.trapAlign (t.setWidth 64) 4
    else
      let link : Word := (nextPc s.cx.pc).setWidth 64
      (((s.useTagged [a]).popPorts [a]).putW d link 0 (.fixed 4)).jumpTo t sc)

end Sys2Proof.Machine
end

