-- ==== Sys2Proof/Machine/Integer.lean ====
section
/-!
DEFINITION. The integer register and immediate instructions (R95..R97): arithmetic, logic, shifts, compares, multiply,
divide, bit counts, extensions, bit fields and constants. Fixed latency 4, 8 or 24 (R70).
-/
namespace Sys2Proof.Machine

/-! ## The operations on values -/

/-- Shift amount: the low six bits (R446). -/
def shiftBy (b : Word) : Nat := b.toNat % 64

/-- TruncDiv toward zero and its remainder with R376's corner cases. -/
def divS (x y : Word) : Word :=
  if y == 0 then BitVec.allOnes 64 else BitVec.ofInt 64 (x.toInt.tdiv y.toInt)
def divU (x y : Word) : Word := if y == 0 then BitVec.allOnes 64 else BitVec.ofNat 64 (x.toNat / y.toNat)
def remS (x y : Word) : Word := if y == 0 then x else BitVec.ofInt 64 (x.toInt.tmod y.toInt)
def remU (x y : Word) : Word := if y == 0 then x else BitVec.ofNat 64 (x.toNat % y.toNat)

/-- Zero bits above the highest set bit (R363). -/
def clz64 (x : Word) : Nat := if x == 0 then 64 else 63 - x.toNat.log2
/-- Zero bits below the lowest set bit (R363): the lowest set bit's place. -/
def ctz64 (x : Word) : Nat := ((List.range 64).find? fun i => bit x i).getD 64
def cpop64 (x : Word) : Nat := ((List.range 64).filter fun i => bit x i).length

/-- The field of EXT and EXTS (R380). -/
def field (x : Word) (pos len : Nat) : Word := BitVec.ofNat 64 (bits x pos len)

/-! ## Meanings -/

/-- ADD (R348): the tag of a single tagged operand passes on. -/
def execAdd (d a b : Reg) (sc : Stall) (s : State) : Result :=
  .next (s.gate [.w a, .w b] [.w d] fun s =>
    let v := s.rd a + s.rd b
    let t := s.addTag a b
    ((t.1.popPorts [a, b]).putW d v t.2 (.fixed 4)).retire sc)

/-- SUB (R464): only a's tag passes on. -/
def execSub (d a b : Reg) (sc : Stall) (s : State) : Result :=
  .next (s.gate [.w a, .w b] [.w d] fun s =>
    let v := s.rd a - s.rd b
    let t := s.subTag a b
    ((t.1.popPorts [a, b]).putW d v t.2 (.fixed 4)).retire sc)

/-- AND (R350). -/
def execAnd (d a b : Reg) (sc : Stall) (s : State) : Result :=
  .next (s.op2 d a b (.fixed 4) sc fun x y => x &&& y)

/-- OR (R350). -/
def execOr (d a b : Reg) (sc : Stall) (s : State) : Result :=
  .next (s.op2 d a b (.fixed 4) sc fun x y => x ||| y)

/-- XOR (R350). -/
def execXor (d a b : Reg) (sc : Stall) (s : State) : Result :=
  .next (s.op2 d a b (.fixed 4) sc fun x y => x ^^^ y)

/-- SLL (R446). -/
def execSll (d a b : Reg) (sc : Stall) (s : State) : Result :=
  .next (s.op2 d a b (.fixed 4) sc fun x y => x <<< shiftBy y)

/-- SRL (R446). -/
def execSrl (d a b : Reg) (sc : Stall) (s : State) : Result :=
  .next (s.op2 d a b (.fixed 4) sc fun x y => x >>> shiftBy y)

/-- SRA (R446). -/
def execSra (d a b : Reg) (sc : Stall) (s : State) : Result :=
  .next (s.op2 d a b (.fixed 4) sc fun x y => x.sshiftRight (shiftBy y))

/-- ROL (R434). -/
def execRol (d a b : Reg) (sc : Stall) (s : State) : Result :=
  .next (s.op2 d a b (.fixed 4) sc fun x y => x.rotateLeft (shiftBy y))

/-- ROR (R434). -/
def execRor (d a b : Reg) (sc : Stall) (s : State) : Result :=
  .next (s.op2 d a b (.fixed 4) sc fun x y => x.rotateRight (shiftBy y))

/-- MIN (R415). -/
def execMin (d a b : Reg) (sc : Stall) (s : State) : Result :=
  .next (s.op2 d a b (.fixed 4) sc fun x y => if x.toInt ≤ y.toInt then x else y)

/-- MAX (R415). -/
def execMax (d a b : Reg) (sc : Stall) (s : State) : Result :=
  .next (s.op2 d a b (.fixed 4) sc fun x y => if y.toInt ≤ x.toInt then x else y)

/-- MINU (R415). -/
def execMinu (d a b : Reg) (sc : Stall) (s : State) : Result :=
  .next (s.op2 d a b (.fixed 4) sc fun x y => if x.toNat ≤ y.toNat then x else y)

/-- MAXU (R415). -/
def execMaxu (d a b : Reg) (sc : Stall) (s : State) : Result :=
  .next (s.op2 d a b (.fixed 4) sc fun x y => if y.toNat ≤ x.toNat then x else y)

/-- SLT (R448): a tagged operand records a signed constraint. -/
def execSlt (d a b : Reg) (sc : Stall) (s : State) : Result :=
  .next (s.compareOp d a [a, b] .lt (fun s => s.symVal b) (fun s => s.tagged b) sc fun s => Word.slt (s.rd a) (s.rd b))

/-- SLTU (R448): a tagged operand records an unsigned constraint. -/
def execSltu (d a b : Reg) (sc : Stall) (s : State) : Result :=
  .next (s.compareOp d a [a, b] .ltu (fun s => s.symVal b) (fun s => s.tagged b) sc fun s => Word.ult (s.rd a) (s.rd b))

/-- MUL (R424): the low 64 bits of the product. -/
def execMul (d a b : Reg) (sc : Stall) (s : State) : Result :=
  .next (s.op2 d a b (.fixed 8) sc fun x y => x * y)

/-- MULH (R424): bits 127:64 of the signed product. -/
def execMulh (d a b : Reg) (sc : Stall) (s : State) : Result :=
  .next (s.op2 d a b (.fixed 8) sc fun x y => BitVec.ofInt 64 (x.toInt * y.toInt / 2 ^ 64))

/-- MULHU (R424): bits 127:64 of the unsigned product. -/
def execMulhu (d a b : Reg) (sc : Stall) (s : State) : Result :=
  .next (s.op2 d a b (.fixed 8) sc fun x y => BitVec.ofNat 64 (x.toNat * y.toNat / 2 ^ 64))

/-- DIV (R376). -/
def execDiv (d a b : Reg) (sc : Stall) (s : State) : Result :=
  .next (s.op2 d a b (.fixed 24) sc divS)

/-- DIVU (R376). -/
def execDivu (d a b : Reg) (sc : Stall) (s : State) : Result :=
  .next (s.op2 d a b (.fixed 24) sc divU)

/-- REM (R376). -/
def execRem (d a b : Reg) (sc : Stall) (s : State) : Result :=
  .next (s.op2 d a b (.fixed 24) sc remS)

/-- REMU (R376). -/
def execRemu (d a b : Reg) (sc : Stall) (s : State) : Result :=
  .next (s.op2 d a b (.fixed 24) sc remU)

/-- CLZ (R363). -/
def execClz (d a : Reg) (sc : Stall) (s : State) : Result :=
  .next (s.op1 d a (.fixed 4) sc fun x => BitVec.ofNat 64 (clz64 x))

/-- CTZ (R363). -/
def execCtz (d a : Reg) (sc : Stall) (s : State) : Result :=
  .next (s.op1 d a (.fixed 4) sc fun x => BitVec.ofNat 64 (ctz64 x))

/-- CPOP (R363). -/
def execCpop (d a : Reg) (sc : Stall) (s : State) : Result :=
  .next (s.op1 d a (.fixed 4) sc fun x => BitVec.ofNat 64 (cpop64 x))

/-- SEXT.b (R443). -/
def execSextB (d a : Reg) (sc : Stall) (s : State) : Result :=
  .next (s.op1 d a (.fixed 4) sc fun x => signExtend x 8)

/-- SEXT.h (R443). -/
def execSextH (d a : Reg) (sc : Stall) (s : State) : Result :=
  .next (s.op1 d a (.fixed 4) sc fun x => signExtend x 16)

/-- SEXT.w (R443). -/
def execSextW (d a : Reg) (sc : Stall) (s : State) : Result :=
  .next (s.op1 d a (.fixed 4) sc fun x => signExtend x 32)

/-- ZEXT.b (R443). -/
def execZextB (d a : Reg) (sc : Stall) (s : State) : Result :=
  .next (s.op1 d a (.fixed 4) sc fun x => zeroExtend x 8)

/-- ZEXT.h (R443). -/
def execZextH (d a : Reg) (sc : Stall) (s : State) : Result :=
  .next (s.op1 d a (.fixed 4) sc fun x => zeroExtend x 16)

/-- ZEXT.w (R443). -/
def execZextW (d a : Reg) (sc : Stall) (s : State) : Result :=
  .next (s.op1 d a (.fixed 4) sc fun x => zeroExtend x 32)

/-- ADDI (R349): a's tag passes on. -/
def execAddi (d a : Reg) (imm : BitVec 12) (sc : Stall) (s : State) : Result :=
  .next (s.gate [.w a] [.w d] fun s =>
    let v := s.rd a + signExtend imm 12
    let t := s.tagOf a
    ((s.popPorts [a]).putW d v t (.fixed 4)).retire sc)

/-- ANDI (R351). -/
def execAndi (d a : Reg) (imm : BitVec 12) (sc : Stall) (s : State) : Result :=
  .next (s.op1 d a (.fixed 4) sc fun x => x &&& signExtend imm 12)

/-- ORI (R351). -/
def execOri (d a : Reg) (imm : BitVec 12) (sc : Stall) (s : State) : Result :=
  .next (s.op1 d a (.fixed 4) sc fun x => x ||| signExtend imm 12)

/-- XORI (R351). -/
def execXori (d a : Reg) (imm : BitVec 12) (sc : Stall) (s : State) : Result :=
  .next (s.op1 d a (.fixed 4) sc fun x => x ^^^ signExtend imm 12)

/-- SLTI (R449). -/
def execSlti (d a : Reg) (imm : BitVec 12) (sc : Stall) (s : State) : Result :=
  .next (s.compareOp d a [a] .lt (fun _ => .val (signExtend imm 12)) (fun _ => false) sc fun s => Word.slt (s.rd a) (signExtend imm 12))

/-- SLTIU (R449). -/
def execSltiu (d a : Reg) (imm : BitVec 12) (sc : Stall) (s : State) : Result :=
  .next (s.compareOp d a [a] .ltu (fun _ => .val (signExtend imm 12)) (fun _ => false) sc fun s => Word.ult (s.rd a) (signExtend imm 12))

/-- SLLI (R447). -/
def execSlli (d a : Reg) (sh : BitVec 6) (sc : Stall) (s : State) : Result :=
  .next (s.op1 d a (.fixed 4) sc fun x => x <<< sh.toNat)

/-- SRLI (R447). -/
def execSrli (d a : Reg) (sh : BitVec 6) (sc : Stall) (s : State) : Result :=
  .next (s.op1 d a (.fixed 4) sc fun x => x >>> sh.toNat)

/-- SRAI (R447). -/
def execSrai (d a : Reg) (sh : BitVec 6) (sc : Stall) (s : State) : Result :=
  .next (s.op1 d a (.fixed 4) sc fun x => x.sshiftRight sh.toNat)

/-- EXT (R380). -/
def execExt (d a : Reg) (pos len1 : BitVec 6) (sc : Stall) (s : State) : Result :=
  .next (s.op1 d a (.fixed 4) sc fun x => field x pos.toNat (len1.toNat + 1))

/-- EXTS (R380). -/
def execExts (d a : Reg) (pos len1 : BitVec 6) (sc : Stall) (s : State) : Result :=
  .next (s.op1 d a (.fixed 4) sc fun x => signExtend (field x pos.toNat (len1.toNat + 1)) (len1.toNat + 1))

/-- INS (R406): d is read as well. -/
def execIns (d a : Reg) (pos len1 : BitVec 6) (sc : Stall) (s : State) : Result :=
  .next (s.scalarOp [a, d] d (.fixed 4) sc fun s => setBits (s.rd d) pos.toNat (len1.toNat + 1) (s.rd a).toNat)

/-- LUI (R414). -/
def execLui (d : Reg) (imm : BitVec 18) (sc : Stall) (s : State) : Result :=
  .next (s.scalarOp [] d (.fixed 4) sc fun _ => signExtend (imm ++ 0#12) 30)

/-- LSI (R414): d is read as well. -/
def execLsi (d : Reg) (imm : BitVec 16) (sc : Stall) (s : State) : Result :=
  .next (s.scalarOp [d] d (.fixed 4) sc fun s => (s.rd d) <<< 16 ||| zeroExtend imm 16)

end Sys2Proof.Machine
end

