-- ==== Sys2Proof/Machine/System.lean ====
section
/-!
DEFINITION. Control and status registers (R19, R45, R74, R75, R87, R113, R261, R269, R271, R280, R372..R375) and the system
instructions (R282, R358, R425, R444, R445, R470, R496..R498).
-/
namespace Sys2Proof.Machine

namespace State

/-! ## Control and status registers -/

/-- rbstat (R261): a request that its task has left behind is still one not granted (R257). -/
def rbstat (s : State) : Word :=
  let x := s.tile s.here
  let c := s.cluster (clusterOf s.here)
  let own := fun (p : Plane) => p.loaded && p.tile == s.here
  let held := c.holder.any fun l => l.tile == s.here && !l.leaving
  let pend := c.leaseQ.any fun l => l.tile == s.here
  BitVec.ofNat 64 (x.lost.toNat * 128 + (own c.active).toNat * 64 + (own c.shadow).toNat * 32 + pend.toNat * 16 + held.toNat * 8)

/-- One level's trap-state CSR (R280). -/
def trapCsr (t : TrapState) (i : Nat) : Word :=
  match i with
  | 0 => t.cause | 1 => t.epc | 2 => t.epsw | 3 => t.word | 4 => t.val2 | 5 => t.scratch
  | _ => 0

/-- ReadCsr (R373, R374). -/
def csrRead (s : State) (n : Nat) : Word :=
  let c := s.cx
  let x := s.tile s.here
  match n with
  | 0x000 => c.psw
  | 0x001 => c.ctxf
  | 0x002 => c.w[63]
  | 0x003 => BitVec.ofNat 64 s.myBlock.xb
  | 0x004 => BitVec.ofNat 64 (s.node * 2 ^ 32 + s.slot * 2 ^ 16 + s.here)
  | 0x005 => s.lvl c.task.lq s.here s.slot
  | 0x006 => BitVec.ofNat 64 s.cycle
  | 0x007 => BitVec.ofNat 64 (s.gvtAt s.here c.task.lq / 2 ^ 32)
  | 0x008 => BitVec.ofNat 64 (s.gvtAt s.here c.task.lq % 2 ^ 32)
  | 0x009 => if c.task.ord then c.task.tb.setWidth 64 else 0
  | _ =>
    if n < 0x018 then trapCsr c.user (n - 0x010)
    else if n < 0x020 then trapCsr c.sup (n - 0x018)
    else if n < 0x180 then
      let p := x.reed.toList.getD ((n - 0x100) / 16) (Vector.replicate 4 0)
      if n % 16 == 15 then s.rbstat else p.toList.getD (n % 16) 0
    else if n < 0x1C0 then (x.heron.toList.getD ((n - 0x180) / 8) (Vector.replicate 3 0)).toList.getD (n % 8) 0
    else (x.lode.toList.getD ((n - 0x1C0) / 8) (Vector.replicate 6 0)).toList.getD (n % 8) 0

/-- The bits of a CSR that are RW to the running context (R74, R87, R113, R261, R269, R271, R280). -/
def csrRw (s : State) (n : Nat) : Word :=
  let all : Word := BitVec.allOnes 64
  if n == 0x000 then 0xE
  else if n == 0x003 then (if s.privileged then all else 0)
  else if n == 0x011 || n == 0x019 then (if pswInh s.cx.psw then 0xFFFFFC else 0)
  else if n == 0x012 || n == 0x01A then (if pswInh s.cx.psw then 0xE else 0)
  else if n == 0x015 || n == 0x01D then all
  else if 0x100 ≤ n && n < 0x180 then (if n % 16 < 3 then all else if n % 16 == 3 then 1 else 0)
  else if 0x180 ≤ n && n < 0x1C0 then (if n % 8 < 2 then all else if n % 8 == 2 then 0x3101FFFF03FF else 0)
  else if 0x1C0 ≤ n && n < 0x200 then (if n % 8 == 0 then 0xFFFFFFFF else if n % 8 < 6 then all else 0)
  else 0

def setTrapCsr (t : TrapState) (i : Nat) (v : Word) : TrapState :=
  match i with
  | 1 => { t with epc := v }
  | 2 => { t with epsw := v }
  | 5 => { t with scratch := v }
  | _ => t

/-- Store a CSR whose RW bits have taken their new values; a write to xb empties the context's fetch buffer (R86, R87). -/
def csrStore (s : State) (n : Nat) (v : Word) : State :=
  if n == 0x000 then s.onCx fun c => { c with psw := v }
  else if n == 0x003 then
    (s.onBlock s.cx.task.blk fun b => { b with xb := min (v.toNat / 2048 * 2048) (2048 * s.myLaunch.sppages) }).onCx
      fun c => { c with fetchBuf := [] }
  else if 0x010 ≤ n && n < 0x018 then s.onCx fun c => { c with user := setTrapCsr c.user (n - 0x010) v }
  else if 0x018 ≤ n && n < 0x020 then s.onCx fun c => { c with sup := setTrapCsr c.sup (n - 0x018) v }
  else if 0x100 ≤ n && n < 0x180 then
    s.onTile s.here fun x =>
      let p := x.reed.toList.getD ((n - 0x100) / 16) (Vector.replicate 4 0)
      { x with reed := x.reed.set ((n - 0x100) / 16 % 8) (p.set (n % 4) v) }
  else if 0x180 ≤ n && n < 0x1C0 then
    s.onTile s.here fun x =>
      let p := x.heron.toList.getD ((n - 0x180) / 8) (Vector.replicate 3 0)
      { x with heron := x.heron.set ((n - 0x180) / 8 % 8) (p.set (n % 8 % 3) v) }
  else if 0x1C0 ≤ n && n < 0x200 then
    s.onTile s.here fun x =>
      let p := x.lode.toList.getD ((n - 0x1C0) / 8) (Vector.replicate 6 0)
      { x with lode := x.lode.set ((n - 0x1C0) / 8 % 8) (p.set (n % 8 % 6) v) }
  else s

/-- The RW fields of a CSR take their bits of v; nothing else changes (R373). -/
def csrPut (s : State) (n : Nat) (v : Word) : State :=
  let m := s.csrRw n
  if m == 0 then s else s.csrStore n ((s.csrRead n &&& ~~~m) ||| (v &&& m))

/-- CSRW, CSRS and CSRC with register a (R373). -/
def csrOp (s : State) (a : Reg) (sc : Stall) (f : State → Word → State) : State :=
  s.gate [.w a] [] fun s =>
    let v := s.rd a
    (f ((s.useTagged [a]).popPorts [a]) v).retire sc

/-- W1C: rbstat.lost is the one such bit (R261). -/
def csrClearOnes (s : State) (n : Nat) (v : Word) : State :=
  if 0x100 ≤ n && n < 0x180 && n % 16 == 15 && bit v 7 then s.onTile s.here fun x => { x with lost := false } else s

/-! ## The system instructions -/

/-- TRAP and BRK raise their cause with epc at the next instruction (R470, R358); the stall of their issue counts (R70). -/
def softTrap (s : State) (cause : Nat) (word : Word) (sc : Stall) : State :=
  (s.issuedWith sc).raise { TrapInfo.plain cause word 0 with after := true }

/-- SLEEP (R444, R445): a sleeper leaves the rotation until a wake event (`wakeCtx`) completes it. -/
def sleep (s : State) (sc : Stall) : State :=
  s.gate [] [] fun s =>
    if s.ordered then s.trapIllegal
    else if s.inSystem then s.retire sc
    else if s.cx.wake then (s.onCx fun c => { c with wake := false }).retire sc
    else s.park .sleep sc

/-- The exchange of WPSW once the new page is in its frame (R497). The system context's own workspace is no page: nothing is saved
of it (R502). The forward-in stays with a user slot (R82); the system context's w52 is an ordinary register (R79). -/
def wpswSwap (s : State) (d : Reg) (n : Word) (page : Nat) (sc : Stall) : State :=
  let c := s.cx
  let b := c.task.blk
  let old := c.w[63]
  let saved := { c with pc := nextPc c.pc }
  let s := if hasPage s.cur c then (s.blockWrite b (2048 * State.workPage c) saved.pageBytes).setWs b (State.workPage c) false else s
  let x := c.ofPage (s.frameRead b (2048 * page) 2048)
  let psw := setBits c.psw 1 3 (bits x.psw 1 3)
  let x := { x with
    w := ((x.w.set 63 n).set 52 (if s.inSystem then x.w[52] else c.w[52])).set 55 c.w[55]
    psw := psw
    ctxf := c.ctxf
    stream := c.stream
    fetchBuf := []
    busy := [] }
  let s := (s.setCx x).setWs b page true
  let s := (if s.ordered then s.dropElig else s).putW d old 0 (.fixed 0)
  let s := s.goTo x.pc sc
  s.onCx fun c => { c with status := .waiting .entry, next := s.cycle + s.span s.here 96 }

/-- WPSW (R497, R498). -/
def wpsw (s : State) (d a : Reg) (sc : Stall) : State :=
  s.gate [.w a] [.w d] fun s =>
    let c := s.cx
    let n := s.rd a
    let b := c.task.blk
    if !s.privileged then s.trapProt 0
    else if n.toNat % 2048 != 0 then s.trapAlign n 2048
    else match vclass n with
      | .memory | .nonCanonical => s.trapProt n
      | .scratch off =>
        let page := off / 2048
        if 2048 * s.myLaunch.sppages ≤ off || off < s.myBlock.xb then s.trapProt n
        else if n != c.w[63] && (s.workUsed b).contains page then s.trapProt n
        else if c.ctxf &&& ~~~0x10000 != 0 then s.trapProt 0
        else if n == c.w[63] then (((s.useTagged [a]).popPorts [a]).putW d n 0 (.fixed 0)).retire sc
        else if !c.results.isEmpty then s.wait .scoreboard
        else
          let x := s.page b page
          if x.lock then s.wait .page
          else match x.st with
            | .unmapped => (s.pageFault b page).wait .page
            | .parked => match s.pageFail b page with
              | some f => s.trapFail f
              | none => (s.pageFault b page).wait .page
            | .framed =>
              if s.frameIsBad b page then s.trap 0x0F 2 (BitVec.ofNat 64 x.tile)
              else (s.popPorts [a]).wpswSwap d n page sc

end State

/-- CSRR (R373). -/
def execCsrr (d : Reg) (csr : BitVec 10) (sc : Stall) (s : State) : Result :=
  .next (s.gate [] [.w d] fun s => (s.putW d (s.csrRead csr.toNat) 0 (.variable 1)).retire sc)
/-- CSRW (R373). -/
def execCsrw (csr : BitVec 10) (a : Reg) (sc : Stall) (s : State) : Result :=
  .next (s.csrOp a sc fun s v => (s.csrPut csr.toNat v).csrClearOnes csr.toNat v)
/-- CSRS (R373): RW fields only. -/
def execCsrs (csr : BitVec 10) (a : Reg) (sc : Stall) (s : State) : Result :=
  .next (s.csrOp a sc fun s v => s.csrPut csr.toNat (s.csrRead csr.toNat ||| v))
/-- CSRC (R373): RW fields only. -/
def execCsrc (csr : BitVec 10) (a : Reg) (sc : Stall) (s : State) : Result :=
  .next (s.csrOp a sc fun s v => s.csrPut csr.toNat (s.csrRead csr.toNat &&& ~~~v))
/-- NOP (R425). -/
def execNop (sc : Stall) (s : State) : Result := .next (s.gate [] [] fun s => s.retire sc)
/-- ERET (R282). -/
def execEret (sc : Stall) (s : State) : Result := .next (s.gate [] [] fun s => s.eret sc)
/-- TRAP (R470). -/
def execTrap (a : Reg) (sc : Stall) (s : State) : Result :=
  .next (s.gate [.w a] [] fun s =>
    let v := s.rd a
    ((s.useTagged [a]).popPorts [a]).softTrap 0x0E v sc)
/-- WPSW (R497). -/
def execWpsw (d a : Reg) (sc : Stall) (s : State) : Result := .next (s.wpsw d a sc)
/-- SLEEP (R444). -/
def execSleep (sc : Stall) (s : State) : Result := .next (s.sleep sc)
/-- BRK (R358). -/
def execBrk (sc : Stall) (s : State) : Result := .next (s.gate [] [] fun s => s.softTrap 0x0D 0 sc)

end Sys2Proof.Machine
end

