-- ==== Sys2Proof/Machine/Dispatch.lean ====
section
/-!
DEFINITION. The meaning of every instruction and event: one arm for each constructor of Instr.
-/
namespace Sys2Proof.Machine

def exec (i : Instr) (s : State) : Host.Outcome State Fault Refusal :=
  match i with
  | .add d a b sc => Sys2Proof.Machine.execAdd d a b sc s
  | .sub d a b sc => Sys2Proof.Machine.execSub d a b sc s
  | .and d a b sc => Sys2Proof.Machine.execAnd d a b sc s
  | .or d a b sc => Sys2Proof.Machine.execOr d a b sc s
  | .xor d a b sc => Sys2Proof.Machine.execXor d a b sc s
  | .sll d a b sc => Sys2Proof.Machine.execSll d a b sc s
  | .srl d a b sc => Sys2Proof.Machine.execSrl d a b sc s
  | .sra d a b sc => Sys2Proof.Machine.execSra d a b sc s
  | .rol d a b sc => Sys2Proof.Machine.execRol d a b sc s
  | .ror d a b sc => Sys2Proof.Machine.execRor d a b sc s
  | .slt d a b sc => Sys2Proof.Machine.execSlt d a b sc s
  | .sltu d a b sc => Sys2Proof.Machine.execSltu d a b sc s
  | .min d a b sc => Sys2Proof.Machine.execMin d a b sc s
  | .max d a b sc => Sys2Proof.Machine.execMax d a b sc s
  | .minu d a b sc => Sys2Proof.Machine.execMinu d a b sc s
  | .maxu d a b sc => Sys2Proof.Machine.execMaxu d a b sc s
  | .mul d a b sc => Sys2Proof.Machine.execMul d a b sc s
  | .mulh d a b sc => Sys2Proof.Machine.execMulh d a b sc s
  | .mulhu d a b sc => Sys2Proof.Machine.execMulhu d a b sc s
  | .div d a b sc => Sys2Proof.Machine.execDiv d a b sc s
  | .divu d a b sc => Sys2Proof.Machine.execDivu d a b sc s
  | .rem d a b sc => Sys2Proof.Machine.execRem d a b sc s
  | .remu d a b sc => Sys2Proof.Machine.execRemu d a b sc s
  | .clz d a sc => Sys2Proof.Machine.execClz d a sc s
  | .ctz d a sc => Sys2Proof.Machine.execCtz d a sc s
  | .cpop d a sc => Sys2Proof.Machine.execCpop d a sc s
  | .sextB d a sc => Sys2Proof.Machine.execSextB d a sc s
  | .sextH d a sc => Sys2Proof.Machine.execSextH d a sc s
  | .sextW d a sc => Sys2Proof.Machine.execSextW d a sc s
  | .zextB d a sc => Sys2Proof.Machine.execZextB d a sc s
  | .zextH d a sc => Sys2Proof.Machine.execZextH d a sc s
  | .zextW d a sc => Sys2Proof.Machine.execZextW d a sc s
  | .addi d a imm sc => Sys2Proof.Machine.execAddi d a imm sc s
  | .andi d a imm sc => Sys2Proof.Machine.execAndi d a imm sc s
  | .ori d a imm sc => Sys2Proof.Machine.execOri d a imm sc s
  | .xori d a imm sc => Sys2Proof.Machine.execXori d a imm sc s
  | .slti d a imm sc => Sys2Proof.Machine.execSlti d a imm sc s
  | .sltiu d a imm sc => Sys2Proof.Machine.execSltiu d a imm sc s
  | .slli d a sh sc => Sys2Proof.Machine.execSlli d a sh sc s
  | .srli d a sh sc => Sys2Proof.Machine.execSrli d a sh sc s
  | .srai d a sh sc => Sys2Proof.Machine.execSrai d a sh sc s
  | .ext d a pos len1 sc => Sys2Proof.Machine.execExt d a pos len1 sc s
  | .exts d a pos len1 sc => Sys2Proof.Machine.execExts d a pos len1 sc s
  | .ins d a pos len1 sc => Sys2Proof.Machine.execIns d a pos len1 sc s
  | .lui d imm sc => Sys2Proof.Machine.execLui d imm sc s
  | .lsi d imm sc => Sys2Proof.Machine.execLsi d imm sc s
  | .ld sz d a imm6 sc => Sys2Proof.Machine.execLd sz d a imm6 sc s
  | .ldU sz d a imm6 sc => Sys2Proof.Machine.execLdU sz d a imm6 sc s
  | .ldAcq sz d a imm6 scope sc => Sys2Proof.Machine.execLdAcq sz d a imm6 scope sc s
  | .ldS sz d a imm6 sc => Sys2Proof.Machine.execLdS sz d a imm6 sc s
  | .ldDLong d a imm sc => Sys2Proof.Machine.execLdDLong d a imm sc s
  | .st sz d a imm6 sc => Sys2Proof.Machine.execSt sz d a imm6 sc s
  | .stRel sz d a imm6 scope sc => Sys2Proof.Machine.execStRel sz d a imm6 scope sc s
  | .stClr sz d a imm6 sc => Sys2Proof.Machine.execStClr sz d a imm6 sc s
  | .stDLong d a imm sc => Sys2Proof.Machine.execStDLong d a imm sc s
  | .aadd wd d a b scope sc => Sys2Proof.Machine.execAadd wd d a b scope sc s
  | .aswap wd d a b scope sc => Sys2Proof.Machine.execAswap wd d a b scope sc s
  | .aand wd d a b scope sc => Sys2Proof.Machine.execAand wd d a b scope sc s
  | .aor wd d a b scope sc => Sys2Proof.Machine.execAor wd d a b scope sc s
  | .axor wd d a b scope sc => Sys2Proof.Machine.execAxor wd d a b scope sc s
  | .amax wd d a b scope sc => Sys2Proof.Machine.execAmax wd d a b scope sc s
  | .amin wd d a b scope sc => Sys2Proof.Machine.execAmin wd d a b scope sc s
  | .amaxu wd d a b scope sc => Sys2Proof.Machine.execAmaxu wd d a b scope sc s
  | .casD d a b scope sc => Sys2Proof.Machine.execCasD d a b scope sc s
  | .casQ d a b scope sc => Sys2Proof.Machine.execCasQ d a b scope sc s
  | .beq a b off sc => Sys2Proof.Machine.execBeq a b off sc s
  | .bne a b off sc => Sys2Proof.Machine.execBne a b off sc s
  | .blt a b off sc => Sys2Proof.Machine.execBlt a b off sc s
  | .bge a b off sc => Sys2Proof.Machine.execBge a b off sc s
  | .j off sc => Sys2Proof.Machine.execJ off sc s
  | .jal off sc => Sys2Proof.Machine.execJal off sc s
  | .jalr d a imm sc => Sys2Proof.Machine.execJalr d a imm sc s
  | .spawn d imm sc => Sys2Proof.Machine.execSpawn d imm sc s
  | .spawnf imm sc => Sys2Proof.Machine.execSpawnf imm sc s
  | .tdone sc => Sys2Proof.Machine.execTdone sc s
  | .tabort sc => Sys2Proof.Machine.execTabort sc s
  | .tyield sc => Sys2Proof.Machine.execTyield sc s
  | .spawnr a b sc => Sys2Proof.Machine.execSpawnr a b sc s
  | .spawnfr a sc => Sys2Proof.Machine.execSpawnfr a sc s
  | .crdeclD a b sc => Sys2Proof.Machine.execCrdeclD a b sc s
  | .crdeclF32 a b sc => Sys2Proof.Machine.execCrdeclF32 a b sc s
  | .crdeclF64 a b sc => Sys2Proof.Machine.execCrdeclF64 a b sc s
  | .cradd a b sc => Sys2Proof.Machine.execCradd a b sc s
  | .poolget d a sc => Sys2Proof.Machine.execPoolget d a sc s
  | .poolgetNf d a sc => Sys2Proof.Machine.execPoolgetNf d a sc s
  | .poolput a b sc => Sys2Proof.Machine.execPoolput a b sc s
  | .fadd f d a b sc => Sys2Proof.Machine.execFadd f d a b sc s
  | .fsub f d a b sc => Sys2Proof.Machine.execFsub f d a b sc s
  | .fmul f d a b sc => Sys2Proof.Machine.execFmul f d a b sc s
  | .fdiv f d a b sc => Sys2Proof.Machine.execFdiv f d a b sc s
  | .fsqrt f d a sc => Sys2Proof.Machine.execFsqrt f d a sc s
  | .fmin f d a b sc => Sys2Proof.Machine.execFmin f d a b sc s
  | .fmax f d a b sc => Sys2Proof.Machine.execFmax f d a b sc s
  | .fmadd f d a b sc => Sys2Proof.Machine.execFmadd f d a b sc s
  | .fmsub f d a b sc => Sys2Proof.Machine.execFmsub f d a b sc s
  | .fnmadd f d a b sc => Sys2Proof.Machine.execFnmadd f d a b sc s
  | .feq f d a b sc => Sys2Proof.Machine.execFeq f d a b sc s
  | .flt f d a b sc => Sys2Proof.Machine.execFlt f d a b sc s
  | .fle f d a b sc => Sys2Proof.Machine.execFle f d a b sc s
  | .fclass f d a sc => Sys2Proof.Machine.execFclass f d a sc s
  | .fneg f d a sc => Sys2Proof.Machine.execFneg f d a sc s
  | .fabs f d a sc => Sys2Proof.Machine.execFabs f d a sc s
  | .fcvt dst src d a sc => Sys2Proof.Machine.execFcvt dst src d a sc s
  | .waclr d sc => Sys2Proof.Machine.execWaclr d sc s
  | .wadd d a b sc => Sys2Proof.Machine.execWadd d a b sc s
  | .waddv d va vb sc => Sys2Proof.Machine.execWaddv d va vb sc s
  | .wsgn d a sc => Sys2Proof.Machine.execWsgn d a sc s
  | .wrnd d a sc => Sys2Proof.Machine.execWrnd d a sc s
  | .vaddFp f vd va vb m sc => Sys2Proof.Machine.execVaddFp f vd va vb m sc s
  | .vsubFp f vd va vb m sc => Sys2Proof.Machine.execVsubFp f vd va vb m sc s
  | .vmulFp f vd va vb m sc => Sys2Proof.Machine.execVmulFp f vd va vb m sc s
  | .vfma f vd va vb vc m sc => Sys2Proof.Machine.execVfma f vd va vb vc m sc s
  | .vfms f vd va vb vc m sc => Sys2Proof.Machine.execVfms f vd va vb vc m sc s
  | .vdiv f vd va vb m sc => Sys2Proof.Machine.execVdiv f vd va vb m sc s
  | .vsqrt f vd va m sc => Sys2Proof.Machine.execVsqrt f vd va m sc s
  | .vminFp f vd va vb m sc => Sys2Proof.Machine.execVminFp f vd va vb m sc s
  | .vmaxFp f vd va vb m sc => Sys2Proof.Machine.execVmaxFp f vd va vb m sc s
  | .vabsFp f vd va m sc => Sys2Proof.Machine.execVabsFp f vd va m sc s
  | .vnegFp f vd va m sc => Sys2Proof.Machine.execVnegFp f vd va m sc s
  | .vcmpeqFp f md va vb m sc => Sys2Proof.Machine.execVcmpeqFp f md va vb m sc s
  | .vcmpltFp f md va vb m sc => Sys2Proof.Machine.execVcmpltFp f md va vb m sc s
  | .vcmple f md va vb m sc => Sys2Proof.Machine.execVcmple f md va vb m sc s
  | .vredsumFp f vd va m sc => Sys2Proof.Machine.execVredsumFp f vd va m sc s
  | .vredmin f vd va m sc => Sys2Proof.Machine.execVredmin f vd va m sc s
  | .vredmax f vd va m sc => Sys2Proof.Machine.execVredmax f vd va m sc s
  | .vaddInt sz vd va vb m sc => Sys2Proof.Machine.execVaddInt sz vd va vb m sc s
  | .vsubInt sz vd va vb m sc => Sys2Proof.Machine.execVsubInt sz vd va vb m sc s
  | .vmulInt sz vd va vb m sc => Sys2Proof.Machine.execVmulInt sz vd va vb m sc s
  | .vminInt sz vd va vb m sc => Sys2Proof.Machine.execVminInt sz vd va vb m sc s
  | .vmaxInt sz vd va vb m sc => Sys2Proof.Machine.execVmaxInt sz vd va vb m sc s
  | .vminu sz vd va vb m sc => Sys2Proof.Machine.execVminu sz vd va vb m sc s
  | .vmaxu sz vd va vb m sc => Sys2Proof.Machine.execVmaxu sz vd va vb m sc s
  | .vand sz vd va vb m sc => Sys2Proof.Machine.execVand sz vd va vb m sc s
  | .vor sz vd va vb m sc => Sys2Proof.Machine.execVor sz vd va vb m sc s
  | .vxor sz vd va vb m sc => Sys2Proof.Machine.execVxor sz vd va vb m sc s
  | .vsll sz vd va vb m sc => Sys2Proof.Machine.execVsll sz vd va vb m sc s
  | .vsrl sz vd va vb m sc => Sys2Proof.Machine.execVsrl sz vd va vb m sc s
  | .vsra sz vd va vb m sc => Sys2Proof.Machine.execVsra sz vd va vb m sc s
  | .vcmpeqInt sz md va vb m sc => Sys2Proof.Machine.execVcmpeqInt sz md va vb m sc s
  | .vcmpltInt sz md va vb m sc => Sys2Proof.Machine.execVcmpltInt sz md va vb m sc s
  | .vcmpltu sz md va vb m sc => Sys2Proof.Machine.execVcmpltu sz md va vb m sc s
  | .vredsumInt sz vd va m sc => Sys2Proof.Machine.execVredsumInt sz vd va m sc s
  | .vabsInt sz vd va m sc => Sys2Proof.Machine.execVabsInt sz vd va m sc s
  | .vnegInt sz vd va m sc => Sys2Proof.Machine.execVnegInt sz vd va m sc s
  | .vcvt src dst part sat vd va m sc => Sys2Proof.Machine.execVcvt src dst part sat vd va m sc s
  | .vshufD vd va vb m sc => Sys2Proof.Machine.execVshufD vd va vb m sc s
  | .vshufW vd va vb m sc => Sys2Proof.Machine.execVshufW vd va vb m sc s
  | .vshufB vd va vb m sc => Sys2Proof.Machine.execVshufB vd va vb m sc s
  | .vselD vd va vb m sc => Sys2Proof.Machine.execVselD vd va vb m sc s
  | .vselW vd va vb m sc => Sys2Proof.Machine.execVselW vd va vb m sc s
  | .vbcastD vd ws m sc => Sys2Proof.Machine.execVbcastD vd ws m sc s
  | .vbcastW vd ws m sc => Sys2Proof.Machine.execVbcastW vd ws m sc s
  | .vextD ws va k sc => Sys2Proof.Machine.execVextD ws va k sc s
  | .vextW ws va k sc => Sys2Proof.Machine.execVextW ws va k sc s
  | .vinsD vd ws k sc => Sys2Proof.Machine.execVinsD vd ws k sc s
  | .vinsW vd ws k sc => Sys2Proof.Machine.execVinsW vd ws k sc s
  | .vmand md ma mb sc => Sys2Proof.Machine.execVmand md ma mb sc s
  | .vmor md ma mb sc => Sys2Proof.Machine.execVmor md ma mb sc s
  | .vmxor md ma mb sc => Sys2Proof.Machine.execVmxor md ma mb sc s
  | .vmnot md ma sc => Sys2Proof.Machine.execVmnot md ma sc s
  | .vmput md ws sc => Sys2Proof.Machine.execVmput md ws sc s
  | .vmget ws ma sc => Sys2Proof.Machine.execVmget ws ma sc s
  | .vmov vd va m sc => Sys2Proof.Machine.execVmov vd va m sc s
  | .vld vd ws sc => Sys2Proof.Machine.execVld vd ws sc s
  | .vstD vd ws m sc => Sys2Proof.Machine.execVstD vd ws m sc s
  | .vstW vd ws m sc => Sys2Proof.Machine.execVstW vd ws m sc s
  | .vstB vd ws m sc => Sys2Proof.Machine.execVstB vd ws m sc s
  | .mlease e sc => Sys2Proof.Machine.execMlease e sc s
  | .mrel e sc => Sys2Proof.Machine.execMrel e sc s
  | .mfmt e a b set sc => Sys2Proof.Machine.execMfmt e a b set sc s
  | .mgeo e a set sc => Sys2Proof.Machine.execMgeo e a set sc s
  | .mloadw e a b set sc => Sys2Proof.Machine.execMloadw e a b set sc s
  | .mswap e sc => Sys2Proof.Machine.execMswap e sc s
  | .mstream e a b src sc => Sys2Proof.Machine.execMstream e a b src sc s
  | .mdrain e sc => Sys2Proof.Machine.execMdrain e sc s
  | .gather e a b src sc => Sys2Proof.Machine.execGather e a b src sc s
  | .scatter e a b src sc => Sys2Proof.Machine.execScatter e a b src sc s
  | .scatterAdd e a b src sc => Sys2Proof.Machine.execScatterAdd e a b src sc s
  | .hset a h sc => Sys2Proof.Machine.execHset a h sc s
  | .hget a h sc => Sys2Proof.Machine.execHget a h sc s
  | .hld e a b h sc => Sys2Proof.Machine.execHld e a b h sc s
  | .hst e a b h sc => Sys2Proof.Machine.execHst e a b h sc s
  | .cpy e a b set sc => Sys2Proof.Machine.execCpy e a b set sc s
  | .cpy2 e a b set sc => Sys2Proof.Machine.execCpy2 e a b set sc s
  | .cpy3 e a b set sc => Sys2Proof.Machine.execCpy3 e a b set sc s
  | .fwait e sc => Sys2Proof.Machine.execFwait e sc s
  | .ftest e a sc => Sys2Proof.Machine.execFtest e a sc s
  | .fcancel e sc => Sys2Proof.Machine.execFcancel e sc s
  | .fpassRead e a sc => Sys2Proof.Machine.execFpassRead e a sc s
  | .fpassWrite e a sc => Sys2Proof.Machine.execFpassWrite e a sc s
  | .spmap e a b sc => Sys2Proof.Machine.execSpmap e a b sc s
  | .spfree e a b sc => Sys2Proof.Machine.execSpfree e a b sc s
  | .sppin e a b sc => Sys2Proof.Machine.execSppin e a b sc s
  | .spmig e a sc => Sys2Proof.Machine.execSpmig e a sc s
  | .spflush e a b sc => Sys2Proof.Machine.execSpflush e a b sc s
  | .sbind port a b sc => Sys2Proof.Machine.execSbind port a b sc s
  | .sfree port sc => Sys2Proof.Machine.execSfree port sc s
  | .qbind a sc => Sys2Proof.Machine.execQbind a sc s
  | .fence scope sc => Sys2Proof.Machine.execFence scope sc s
  | .fenceX scope sc => Sys2Proof.Machine.execFenceX scope sc s
  | .bar scope a sc => Sys2Proof.Machine.execBar scope a sc s
  | .barjoin scope a sc => Sys2Proof.Machine.execBarjoin scope a sc s
  | .barleave scope a sc => Sys2Proof.Machine.execBarleave scope a sc s
  | .wait scope a b sc => Sys2Proof.Machine.execWait scope a b sc s
  | .publish scope a sc => Sys2Proof.Machine.execPublish scope a sc s
  | .csrr d csr sc => Sys2Proof.Machine.execCsrr d csr sc s
  | .csrw csr a sc => Sys2Proof.Machine.execCsrw csr a sc s
  | .csrs csr a sc => Sys2Proof.Machine.execCsrs csr a sc s
  | .csrc csr a sc => Sys2Proof.Machine.execCsrc csr a sc s
  | .nop sc => Sys2Proof.Machine.execNop sc s
  | .eret sc => Sys2Proof.Machine.execEret sc s
  | .trap a sc => Sys2Proof.Machine.execTrap a sc s
  | .wpsw d a sc => Sys2Proof.Machine.execWpsw d a sc s
  | .sleep sc => Sys2Proof.Machine.execSleep sc s
  | .brk sc => Sys2Proof.Machine.execBrk sc s
  | .systemTrapEnter tile => Sys2Proof.Machine.execSystemTrapEnter tile s
  | .resultArrive uid reg => Sys2Proof.Machine.execResultArrive uid reg s
  | .fwdDepositLand tile slot val => Sys2Proof.Machine.execFwdDepositLand tile slot val s
  | .queueDwordLand tile dir val lq => Sys2Proof.Machine.execQueueDwordLand tile dir val lq s
  | .streamElementArrive tile slot port => Sys2Proof.Machine.execStreamElementArrive tile slot port s
  | .workspaceMoveDone tile slot => Sys2Proof.Machine.execWorkspaceMoveDone tile slot s
  | .taskDispatch tile => Sys2Proof.Machine.execTaskDispatch tile s
  | .taskRecordArrive tile rec_ => Sys2Proof.Machine.execTaskRecordArrive tile rec_ s
  | .inboundRecordAdmit tile => Sys2Proof.Machine.execInboundRecordAdmit tile s
  | .spillReplay tile => Sys2Proof.Machine.execSpillReplay tile s
  | .balance tile => Sys2Proof.Machine.execBalance tile s
  | .sluiceSample => Sys2Proof.Machine.execSluiceSample s
  | .sluiceBroadcast round tile => Sys2Proof.Machine.execSluiceBroadcast round tile s
  | .budgetPeriod => Sys2Proof.Machine.execBudgetPeriod s
  | .wispRepair uid => Sys2Proof.Machine.execWispRepair uid s
  | .pageInDone blk page => Sys2Proof.Machine.execPageInDone blk page s
  | .pagePullDone blk page => Sys2Proof.Machine.execPagePullDone blk page s
  | .blockMove blk => Sys2Proof.Machine.execBlockMove blk s
  | .ticketRegister tile entry => Sys2Proof.Machine.execTicketRegister tile entry s
  | .commandComplete tile entry => Sys2Proof.Machine.execCommandComplete tile entry s
  | .promiseDue tile slot => Sys2Proof.Machine.execPromiseDue tile slot s
  | .leaseGrant cluster => Sys2Proof.Machine.execLeaseGrant cluster s
  | .leaseRearbitrate cluster => Sys2Proof.Machine.execLeaseRearbitrate cluster s
  | .sliceExpiry tile slot => Sys2Proof.Machine.execSliceExpiry tile slot s
  | .preempt tile slot => Sys2Proof.Machine.execPreempt tile slot s
  | .tilePowerGate tile => Sys2Proof.Machine.execTilePowerGate tile s
  | .tileWake tile => Sys2Proof.Machine.execTileWake tile s
  | .powerInterval reports => Sys2Proof.Machine.execPowerInterval reports s
  | .lqctlMap q => Sys2Proof.Machine.execLqctlMap q s
  | .lqctlUnmap q => Sys2Proof.Machine.execLqctlUnmap q s
  | .lqnotify q tail => Sys2Proof.Machine.execLqnotify q tail s
  | .launchStart q => Sys2Proof.Machine.execLaunchStart q s
  | .hfgo => Sys2Proof.Machine.execHfgo s
  | .hostFenceDone => Sys2Proof.Machine.execHostFenceDone s
  | .xinvc die value => Sys2Proof.Machine.execXinvc die value s
  | .xinvDone die => Sys2Proof.Machine.execXinvDone die s
  | .atreqGo => Sys2Proof.Machine.execAtreqGo s
  | .attestDone => Sys2Proof.Machine.execAttestDone s
  | .spcfgApply tile => Sys2Proof.Machine.execSpcfgApply tile s
  | .registerWrite off value => Sys2Proof.Machine.execRegisterWrite off value s
  | .hostRead bar off width => Sys2Proof.Machine.execHostRead bar off width s
  | .hostWrite bar off data => Sys2Proof.Machine.execHostWrite bar off data s
  | .hostAtomicop bar op off width value cmp => Sys2Proof.Machine.execHostAtomicop bar op off width value cmp s
  | .cxlMemAccess pa width data => Sys2Proof.Machine.execCxlMemAccess pa width data s
  | .cxlSnoop line excl => Sys2Proof.Machine.execCxlSnoop line excl s
  | .atomicopCompletion req status old => Sys2Proof.Machine.execAtomicopCompletion req status old s
  | .reads die line => Sys2Proof.Machine.execReads die line s
  | .readx die line => Sys2Proof.Machine.execReadx die line s
  | .upgrade die line => Sys2Proof.Machine.execUpgrade die line s
  | .writeback die line => Sys2Proof.Machine.execWriteback die line s
  | .fwddata die line => Sys2Proof.Machine.execFwddata die line s
  | .fwdnone die line => Sys2Proof.Machine.execFwdnone die line s
  | .invack die line => Sys2Proof.Machine.execInvack die line s
  | .dataS die line => Sys2Proof.Machine.execDataS die line s
  | .dataE die line => Sys2Proof.Machine.execDataE die line s
  | .dataM die line => Sys2Proof.Machine.execDataM die line s
  | .upgack die line => Sys2Proof.Machine.execUpgack die line s
  | .inv die line => Sys2Proof.Machine.execInv die line s
  | .fwds die line => Sys2Proof.Machine.execFwds die line s
  | .fwdx die line => Sys2Proof.Machine.execFwdx die line s
  | .wback die line => Sys2Proof.Machine.execWback die line s
  | .invRetryTimeout line => Sys2Proof.Machine.execInvRetryTimeout line s
  | .causewayTimeout req => Sys2Proof.Machine.execCausewayTimeout req s
  | .remoteSpawnArrive node asid rec_ => Sys2Proof.Machine.execRemoteSpawnArrive node asid rec_ s
  | .remoteSpawnAck lq => Sys2Proof.Machine.execRemoteSpawnAck lq s
  | .remoteSpawnRefuse lq node => Sys2Proof.Machine.execRemoteSpawnRefuse lq node s
  | .powerOnReset => Sys2Proof.Machine.execPowerOnReset s
  | .packageReset => Sys2Proof.Machine.execPackageReset s
  | .fullServiceStart => Sys2Proof.Machine.execFullServiceStart s
  | .tileRetire tile => Sys2Proof.Machine.execTileRetire tile s
  | .bridgeFailure bd0 bd1 => Sys2Proof.Machine.execBridgeFailure bd0 bd1 s
  | .tcsUncorrectable tile slot => Sys2Proof.Machine.execTcsUncorrectable tile slot s
  | .hbmUncorrectable line => Sys2Proof.Machine.execHbmUncorrectable line s
  | .l2Uncorrectable die line => Sys2Proof.Machine.execL2Uncorrectable die line s
  | .l1Uncorrectable tile asid vline => Sys2Proof.Machine.execL1Uncorrectable tile asid vline s
  | .frameUncorrectable tile frame => Sys2Proof.Machine.execFrameUncorrectable tile frame s
  | .remoteAccessArrive node pa op => Sys2Proof.Machine.execRemoteAccessArrive node pa op s
  | .dieLinkFailure bd0 bd1 => Sys2Proof.Machine.execDieLinkFailure bd0 bd1 s
  | .storeAcknowledge id => Sys2Proof.Machine.execStoreAcknowledge id s
  | .publishComplete tile slot => Sys2Proof.Machine.execPublishComplete tile slot s
  | .crdeclInForce lq base => Sys2Proof.Machine.execCrdeclInForce lq base s
  | .cxlOperationChange on => Sys2Proof.Machine.execCxlOperationChange on s

end Sys2Proof.Machine
end

