-- ==== Sys2Proof/Machine/Step.lean ====
section
/-!
DEFINITION. One step of the package: an event that is due, or a tile's issue turn, or what lies between two cycles' turns;
and the state whose next step runs a given instruction.
-/
namespace Sys2Proof.Machine

/-- One step. -/
def step (s : State) : Host.Outcome State Fault Refusal :=
  match s.dueEvent with
  | some (e, s) => runEvent e s
  | none =>
    match s.turn with
    | [] => .next s.betweenTurns
    | t :: rest =>
      match { s with turn := rest }.takeTurn t with
      | .run i s => exec i s
      | .rest s => .next s

namespace State

/-- The launch, block, pages and task that stand for the load of a program of one instruction (log 9). -/
def loadedLaunch : Launch :=
  { Launch.none with lq := 0, codesz := 2048, sppages := 64, minres := 1, tiles := [0], blocks := [0]
                     uvec := List.replicate 32 0, svec := List.replicate 32 0 }

def loadedTask : TaskRec := { noTask with blk := 0, lq := 0 }

def loadedBlock : Block :=
  { Block.none with lq := 0, idx := 0, tile := 0, xb := 2048
                    pages := [(0, { Page.unmapped with st := .framed, frame := 0 }),
                              (32, { Page.unmapped with st := .framed, ws := true, frame := 1 })] }

/-- The state with the instruction where the next step fetches: full service, a running launch of one free task in slot 0 of
tile 0, its code page holding the instruction's word first, no event due. -/
def withFetchWord (s : State) (nbits w : Nat) : State :=
  { s with
    full := true
    launches := s.launches.set 0 loadedLaunch
    blocks := s.blocks.set 0 loadedBlock
    frames := Cells.writeN s.frames (frameBase 0 0) (leBytes 4 (w % 2 ^ nbits))
    tiles := s.tiles.set 0 TileS.reset
    ctxs := s.ctxs.set 0 { startCtx loadedLaunch loadedTask (windowVa (2048 * 32)) with status := .ready, next := 0 }
    agenda := []
    turn := [0] }

end State

end Sys2Proof.Machine
end

