-- ==== Sys2Proof/Safety.lean ====
section
/-!
DEFINITION. The vocabulary of the statements: when an instruction issues, what a completed instruction leaves, when an
access passes its checks, and the invariant of memory.
-/
namespace Sys2Proof.Machine

namespace State

/-! ## Issue -/

/-- A fetched-ahead element can be popped at once: it has come, without a fault, it is not one that its pop reads, it is not older
than an access of the context's own, and no command's write range lies over it (R81, R213, R219, R231, R437). -/
def elementReady (s : State) (e : AheadElt) : Bool :=
  decide (e.ready ≤ s.cycle) && e.trap.isNone && !e.atPop && !e.stale && (e.loc.bind fun l => s.lockHit s.here s.asid e.addr l false).isNone

/-- A scalar register can be read at once: a port that is read has its value (R79, R81, R82, R84). -/
def readReady (s : State) (n : Reg) : Bool :=
  s.inSystem ||
    (if streamPort n then
      match sbd s.cx (n.toNat - 48) with
      | 1 => strCount s.cx.stream[(n.toNat - 48) % 4] == 0 ||
          (match aheadOf s.cx (n.toNat - 48) with | some e => s.elementReady e | none => false)
      | 2 => false
      | _ => true
    else if n == 52 then fwdFull s.cx
    else if n == 53 then
      qinBound s.cx && (match (s.tile s.here).inq.toList.getD (qinDir s.cx) [] with
        | [] => false
        | d :: _ => d.2 == s.cx.task.lq)
    else true)

/-- A scalar register can be written at once (R79, R82, R84). A register bound to an out-bound stream is not among these: its
write is a store with a store's own conditions. -/
def writeReady (s : State) (n : Reg) : Bool :=
  s.inSystem ||
    (if streamPort n then sbd s.cx (n.toNat - 48) == 0
    else if n == 52 then
      (s.ctx s.fwdTarget).status != .free && (s.ctx s.fwdTarget).task.lq == s.cx.task.lq && !fwdFull (s.ctx s.fwdTarget)
        && !(s.tile s.here).coming.contains ((s.slot + 1) % 16) && !s.ownPending
    else if n == 53 then !qinBound s.cx
    else if n == 54 then
      qoutBound s.cx && (match s.pushTarget with
        | none => false
        | some nb => decide (s.pushCount nb (opposite (qoutDir s.cx)) < 16) && !s.ownPending)
    else true)

/-- A port that an ordered task may not name (R177): any of w52, w53, w54, or a bound stream register. -/
def usesPort (s : State) (n : Reg) : Bool :=
  n == 52 || n == 53 || n == 54 || (streamPort n && sbd s.cx (n.toNat - 48) != 0)

/-- An instruction with these register operands issues at once: no register is empty (R71), no port is in the way. -/
def issues (s : State) (reads writes : List RegRef) : Bool :=
  ((reads ++ writes).all fun r => !s.fixedEmpty r && !s.variableEmpty r)
    && !(s.ordered && (scalars reads ++ scalars writes).any s.usesPort)
    && (scalars reads).all s.readReady && (scalars writes).all s.writeReady

/-- A scalar register that is no port for the running context: written and read as a plain register (R79). -/
def plain (s : State) (n : Reg) : Bool :=
  s.inSystem || !(n == 52 || n == 53 || n == 54 || (streamPort n && sbd s.cx (n.toNat - 48) != 0))

/-! ## Results -/

/-- What completing with a scalar result comes to: the operands' ports are popped, an operand with a symbolic tag clears
eligibility (R191), the destination takes the value, the context goes on at NextPc after the stall count (R69). -/
def scalarDone (s : State) (reads : List Reg) (d : Reg) (v : Word) (lat : Latency) (sc : Stall) : State :=
  (((s.useTagged reads).popPorts reads).putW d v 0 lat).retire sc

/-- The context that has written a fixed-latency result to a plain register and has issued: register, tag, the register
empty until the latency has passed, pc, status and next issue; every other field as before. -/
def wroteCtx (s : State) (d : Reg) (v : Word) (tag : BitVec 3) (lat : Nat) (pc : BitVec 24) (sc : Stall) : Ctx :=
  { s.cx with
    w := if discards d then s.cx.w else s.cx.w.set d.toNat v
    tag := if discards d then s.cx.tag else s.cx.tag.set d.toNat (if neverTagged d then 0 else tag)
    busy := if discards d then s.cx.busy
      else { reg := .w d, until_ := s.cycle + s.span s.here lat } :: s.cx.busy.filter fun b => s.cycle < b.until_ && b.reg != .w d
    pc := pc
    status := .ready
    next := s.cycle + s.span s.here (stallCycles sc) }

/-- The state with one context replaced and its slot the last to issue; nothing else changes. -/
def issuedCtx (s : State) (c : Ctx) : State :=
  (s.setCtx s.cur c).setTile s.here { s.tile s.here with last := s.slot }

/-- A plain register written with a fixed-latency result, the context going on at `pc`. -/
def wrote (s : State) (d : Reg) (v : Word) (tag : BitVec 3) (lat : Nat) (pc : BitVec 24) (sc : Stall) : State :=
  s.issuedCtx (s.wroteCtx d v tag lat pc sc)

/-- The context goes on at a target: its fetch buffer is empty (R86), and its slot has issued. -/
def jumped (s : State) (pc : BitVec 24) (sc : Stall) : State :=
  s.issuedCtx { s.cx with pc := pc, fetchBuf := [], status := .ready, next := s.cycle + s.span s.here (stallCycles sc) }

/-- No operand carries a symbolic tag (R190). -/
def untagged (s : State) (rs : List Reg) : Bool := rs.all fun r => !s.tagged r

end State

/-! ## The operations of the spec on values -/

/-- A dword from a signed number: its low 64 bits (R8). -/
def lowWord (x : Int) : Word := BitVec.ofInt 64 x

/-- TruncDiv (R8): the quotient toward zero. -/
def truncDiv (x y : Int) : Int := x.sign * y.sign * (x.natAbs / y.natAbs : Nat)

/-- X(d) of the two-operand integer instructions as their entries give it, with the latency of the result. -/
def integerOps : List ((Reg → Reg → Reg → Stall → Instr) × (Word → Word → Word) × Nat) :=
  [(.and, fun x y => BitVec.ofNat 64 (x.toNat &&& y.toNat), 4),
   (.or, fun x y => BitVec.ofNat 64 (x.toNat ||| y.toNat), 4),
   (.xor, fun x y => BitVec.ofNat 64 (x.toNat ^^^ y.toNat), 4),
   (.sll, fun x y => BitVec.ofNat 64 (x.toNat * 2 ^ (y.toNat % 64)), 4),
   (.srl, fun x y => BitVec.ofNat 64 (x.toNat / 2 ^ (y.toNat % 64)), 4),
   (.sra, fun x y => lowWord (x.toInt / 2 ^ (y.toNat % 64)), 4),
   (.rol, fun x y => x <<< (y.toNat % 64) ||| x >>> (64 - y.toNat % 64), 4),
   (.ror, fun x y => x >>> (y.toNat % 64) ||| x <<< (64 - y.toNat % 64), 4),
   (.min, fun x y => if x.toInt ≤ y.toInt then x else y, 4),
   (.max, fun x y => if x.toInt ≥ y.toInt then x else y, 4),
   (.minu, fun x y => if x.toNat ≤ y.toNat then x else y, 4),
   (.maxu, fun x y => if x.toNat ≥ y.toNat then x else y, 4),
   (.mul, fun x y => lowWord (x.toInt * y.toInt), 8),
   (.mulh, fun x y => lowWord (x.toInt * y.toInt / 2 ^ 64), 8),
   (.mulhu, fun x y => BitVec.ofNat 64 (x.toNat * y.toNat / 2 ^ 64), 8),
   (.div, fun x y =>
      if y = 0 then BitVec.allOnes 64
      else if x.toInt = -2 ^ 63 ∧ y.toInt = -1 then x
      else lowWord (truncDiv x.toInt y.toInt), 24),
   (.divu, fun x y => if y = 0 then BitVec.allOnes 64 else BitVec.ofNat 64 (x.toNat / y.toNat), 24),
   (.rem, fun x y =>
      if y = 0 then x
      else if x.toInt = -2 ^ 63 ∧ y.toInt = -1 then 0
      else lowWord (x.toInt - y.toInt * truncDiv x.toInt y.toInt), 24),
   (.remu, fun x y => if y = 0 then x else BitVec.ofNat 64 (x.toNat - y.toNat * (x.toNat / y.toNat)), 24)]

/-- SignExtend(x, n) of R8 as a number: the low n bits, bit n − 1 weighing −2^(n−1). -/
def signedField (x n : Nat) : Int := if x % 2 ^ n < 2 ^ (n - 1) then (x % 2 ^ n : Nat) else (x % 2 ^ n : Nat) - (2 ^ n : Nat)

/-- X(d) of the instructions with one register operand, as their entries give it; all have latency 4. -/
def unaryOps : List ((Reg → Reg → Stall → Instr) × (Word → Word)) :=
  [(.sextB, fun x => lowWord (signedField x.toNat 8)),
   (.sextH, fun x => lowWord (signedField x.toNat 16)),
   (.sextW, fun x => lowWord (signedField x.toNat 32)),
   (.zextB, fun x => BitVec.ofNat 64 (x.toNat % 2 ^ 8)),
   (.zextH, fun x => BitVec.ofNat 64 (x.toNat % 2 ^ 16)),
   (.zextW, fun x => BitVec.ofNat 64 (x.toNat % 2 ^ 32))]

/-- X(d) of the instructions with a register and a 12-bit immediate. -/
def immediateOps : List ((Reg → Reg → BitVec 12 → Stall → Instr) × (Word → BitVec 12 → Word)) :=
  [(.andi, fun x i => x &&& lowWord (signedField i.toNat 12)),
   (.ori, fun x i => x ||| lowWord (signedField i.toNat 12)),
   (.xori, fun x i => x ^^^ lowWord (signedField i.toNat 12))]

/-- X(d) of the shifts by an immediate. -/
def shiftOps : List ((Reg → Reg → BitVec 6 → Stall → Instr) × (Word → Nat → Word)) :=
  [(.slli, fun x n => BitVec.ofNat 64 (x.toNat * 2 ^ n)),
   (.srli, fun x n => BitVec.ofNat 64 (x.toNat / 2 ^ n)),
   (.srai, fun x n => lowWord (x.toInt / 2 ^ n))]

/-- X(d) of EXT and EXTS at a position and length. -/
def fieldOps : List ((Reg → Reg → BitVec 6 → BitVec 6 → Stall → Instr) × (Word → Nat → Nat → Word)) :=
  [(.ext, fun x pos len => BitVec.ofNat 64 (x.toNat / 2 ^ pos % 2 ^ len)),
   (.exts, fun x pos len => lowWord (signedField (x.toNat / 2 ^ pos) len))]

/-- The conditional branches: the comparison a constraint records, and when the branch is taken. -/
def branchOps : List ((Reg → Reg → BitVec 12 → Stall → Instr) × SymCmp × (Word → Word → Bool)) :=
  [(.beq, .eq, fun x y => decide (x = y)),
   (.bne, .ne, fun x y => decide (x ≠ y)),
   (.blt, .lt, fun x y => decide (x.toInt < y.toInt)),
   (.bge, .ge, fun x y => decide (x.toInt ≥ y.toInt))]

/-! ## Floating point -/

/-- A floating-point operand: the register's low bits at the format's width (FpIn, R378). -/
def operandOf (f : FFmt) (x : Word) : Nat := x.toNat % 2 ^ f.width

/-- The scalar operations on two operands: the result's pattern from the format, psw.rm and the operands' patterns, with its
latency (R383, R394, R396). -/
def floatOps : List ((FSize → Reg → Reg → Reg → Stall → Instr) × (FFmt → Nat → Nat → Nat → Nat) × Nat) :=
  [(.fadd, fun f rm x y => f.ofVal rm (FVal.add rm (f.decode x) (f.decode y)), 8),
   (.fsub, fun f rm x y => f.ofVal rm (FVal.add rm (f.decode x) (f.decode y).neg), 8),
   (.fmul, fun f rm x y => f.ofVal rm (FVal.mul (f.decode x) (f.decode y)), 8),
   (.fdiv, fun f rm x y => f.div rm (f.decode x) (f.decode y), 24),
   (.fmin, fun f _ x y =>
      if (f.decode x).isNaN && (f.decode y).isNaN then f.nanPat
      else if (f.decode x).isNaN then y
      else if (f.decode y).isNaN then x
      else if FVal.below (f.decode y) (f.decode x) then y else x, 8),
   (.fmax, fun f _ x y =>
      if (f.decode x).isNaN && (f.decode y).isNaN then f.nanPat
      else if (f.decode x).isNaN then y
      else if (f.decode y).isNaN then x
      else if FVal.below (f.decode x) (f.decode y) then y else x, 8),
   (.feq, fun f _ x y => if FVal.eq (f.decode x) (f.decode y) then 1 else 0, 8),
   (.flt, fun f _ x y => if FVal.lt (f.decode x) (f.decode y) then 1 else 0, 8),
   (.fle, fun f _ x y => if FVal.lt (f.decode x) (f.decode y) || FVal.eq (f.decode x) (f.decode y) then 1 else 0, 8)]

/-- The scalar operations on one operand (R381, R389, R398). FNEG inverts and FABS clears the sign bit alone. -/
def floatUnaryOps : List ((FSize → Reg → Reg → Stall → Instr) × (FFmt → Nat → Nat → Nat) × Nat) :=
  [(.fsqrt, fun f rm x => f.sqrt rm (f.decode x), 24),
   (.fclass, fun f _ x => 2 ^ f.classBit x, 8),
   (.fneg, fun f _ x => if x.testBit (f.width - 1) then x - 2 ^ (f.width - 1) else x + 2 ^ (f.width - 1), 8),
   (.fabs, fun f _ x => if x.testBit (f.width - 1) then x - 2 ^ (f.width - 1) else x, 8)]

/-- The fused operations on x, y and the addend z, exactly and then rounded once (R395). -/
def fusedOps : List ((FSize → Reg → Reg → Reg → Stall → Instr) × (Nat → FVal → FVal → FVal → FVal)) :=
  [(.fmadd, fun rm x y z => FVal.add rm (FVal.mul x y) z),
   (.fmsub, fun rm x y z => FVal.add rm (FVal.mul x y) z.neg),
   (.fnmadd, fun rm x y z => FVal.add rm z (FVal.mul x y).neg)]

/-! ## Vectors -/

namespace State

/-- A vector instruction issues: its operands are ready, and power mode 1 allows it (R304). -/
def vissues (s : State) (reads writes : List RegRef) : Bool :=
  !(s.matrixMode && decide (s.cycle < (s.tile s.here).vecNext)) && s.issues reads writes

/-- Completing with a result in a vector or mask register; m0 discards (R79). -/
def vectorDone (s : State) (r : RegRef) (v : Line) (lat : Latency) (sc : Stall) : State := (s.putV r v lat).vretire sc

/-- A vector of elements of width w: element i is f i where the mask selects it and the old element elsewhere (R472). -/
def governed (w : Nat) (m : Word) (old x : Line) (f : Nat → Nat) : Prop :=
  ∀ i < 512 / w, elem x w i = if m.getLsbD i then f i % 2 ^ w else elem old w i

/-- A compare's mask: bit i is the outcome where i is an element and selected, and zero elsewhere (R477). -/
def compareMask (w : Nat) (m x : Word) (f : Nat → Bool) : Prop :=
  ∀ i < 64, x.getLsbD i = (decide (i < 512 / w) && m.getLsbD i && f i)

end State

/-- Map A on two operands: the element's pattern, and whether the result's latency is fixed (R474, R480). -/
def vectorFloatOps : List ((VFmt → BitVec 4 → BitVec 4 → BitVec 4 → BitVec 3 → Stall → Instr)
    × (FFmt → Nat → Nat → Nat → Nat) × State.Latency) :=
  [(.vaddFp, fun f rm x y => f.ofVal rm (FVal.add rm (f.decode x) (f.decode y)), .fixed 8),
   (.vsubFp, fun f rm x y => f.ofVal rm (FVal.add rm (f.decode x) (f.decode y).neg), .fixed 8),
   (.vmulFp, fun f rm x y => f.ofVal rm (FVal.mul (f.decode x) (f.decode y)), .fixed 8),
   (.vdiv, fun f rm x y => f.div rm (f.decode x) (f.decode y), .variable 1),
   (.vminFp, fun f _ x y => f.minMax false x y, .fixed 8),
   (.vmaxFp, fun f _ x y => f.minMax true x y, .fixed 8)]

/-- Map A on one operand (R474, R480). -/
def vectorFloatUnaryOps : List ((VFmt → BitVec 4 → BitVec 4 → BitVec 3 → Stall → Instr)
    × (FFmt → Nat → Nat → Nat) × State.Latency) :=
  [(.vsqrt, fun f rm x => f.sqrt rm (f.decode x), .variable 1),
   (.vabsFp, fun f _ x => if x.testBit (f.width - 1) then x - 2 ^ (f.width - 1) else x, .fixed 8),
   (.vnegFp, fun f _ x => if x.testBit (f.width - 1) then x - 2 ^ (f.width - 1) else x + 2 ^ (f.width - 1), .fixed 8)]

/-- The fused map A operations (R482). -/
def vectorFusedOps : List ((VFmt → BitVec 4 → BitVec 4 → BitVec 4 → BitVec 4 → BitVec 3 → Stall → Instr)
    × (Nat → FVal → FVal → FVal → FVal)) :=
  [(.vfma, fun rm x y z => FVal.add rm (FVal.mul x y) z), (.vfms, fun rm x y z => FVal.add rm (FVal.mul x y) z.neg)]

/-- A pattern of width w as a signed number. -/
def signedOf (w x : Nat) : Int := signedField x w

/-- Map B on two elements of width w, before the result wraps modulo 2^w (R473, R475, R490). -/
def vectorIntOps : List ((ISize → BitVec 4 → BitVec 4 → BitVec 4 → BitVec 3 → Stall → Instr) × (Nat → Nat → Nat → Nat)) :=
  [(.vaddInt, fun _ x y => x + y),
   (.vsubInt, fun w x y => x + 2 ^ w - y),
   (.vmulInt, fun _ x y => x * y),
   (.vminInt, fun w x y => if signedOf w x ≤ signedOf w y then x else y),
   (.vmaxInt, fun w x y => if signedOf w x ≤ signedOf w y then y else x),
   (.vminu, fun _ x y => if x ≤ y then x else y),
   (.vmaxu, fun _ x y => if x ≤ y then y else x),
   (.vand, fun _ x y => x &&& y),
   (.vor, fun _ x y => x ||| y),
   (.vxor, fun _ x y => x ^^^ y),
   (.vsll, fun w x y => x * 2 ^ (y % w)),
   (.vsrl, fun w x y => x / 2 ^ (y % w)),
   (.vsra, fun w x y => (signedOf w x / 2 ^ (y % w) % 2 ^ w).toNat)]

/-- Map B on one element: the most negative element is its own magnitude and its own negative (R474). -/
def vectorIntUnaryOps : List ((ISize → BitVec 4 → BitVec 4 → BitVec 3 → Stall → Instr) × (Nat → Nat → Nat)) :=
  [(.vabsInt, fun w x => if signedOf w x < 0 then 2 ^ w - x else x), (.vnegInt, fun w x => 2 ^ w - x)]

/-- The compares (R477): an FP compare with a NaN is false. -/
def vectorFloatCompares : List ((VFmt → BitVec 3 → BitVec 4 → BitVec 4 → BitVec 3 → Stall → Instr) × (FVal → FVal → Bool)) :=
  [(.vcmpeqFp, FVal.eq), (.vcmpltFp, FVal.lt), (.vcmple, fun x y => FVal.lt x y || FVal.eq x y)]

def vectorIntCompares : List ((ISize → BitVec 3 → BitVec 4 → BitVec 4 → BitVec 3 → Stall → Instr) × (Nat → Nat → Nat → Bool)) :=
  [(.vcmpeqInt, fun _ x y => decide (x = y)),
   (.vcmpltInt, fun w x y => decide (signedOf w x < signedOf w y)),
   (.vcmpltu, fun _ x y => decide (x < y))]

/-- The value of a node of the pairwise tree of R143, `k` levels above the elements: an absent half leaves the other as it
is. -/
def treeOf (op : Nat → Nat → Nat) (x : Nat → Option Nat) : Nat → Nat → Option Nat
  | 0, i => x i
  | k + 1, i => match treeOf op x k (2 * i), treeOf op x k (2 * i + 1) with
    | none, v => v
    | some u, none => some u
    | some u, some v => some (op u v)

/-- The FP reductions (R488): the operation at each node, and what an absent result gives (R143). -/
def vectorFloatReductions : List ((VFmt → BitVec 4 → BitVec 4 → BitVec 3 → Stall → Instr) × (FFmt → Nat → Nat → Nat → Nat)
    × (FFmt → Nat)) :=
  [(.vredsumFp, fun f rm x y => f.ofVal rm (FVal.add rm (f.decode x) (f.decode y)), fun _ => 0),
   (.vredmin, fun f _ x y => f.minMax false x y, FFmt.nanPat),
   (.vredmax, fun f _ x y => f.minMax true x y, FFmt.nanPat)]

/-- The instructions of map C with two vector sources: element width and the elements the mask selects (R489). -/
def vectorMoves : List ((BitVec 4 → BitVec 4 → BitVec 4 → BitVec 3 → Stall → Instr) × Nat × Bool × (Line → Line → Nat → Nat)) :=
  [(.vshufD, 64, false, fun a b i => elem a 64 (elem b 64 i % 8)),
   (.vshufW, 32, false, fun a b i => elem a 32 (elem b 32 i % 16)),
   (.vshufB, 8, false, fun a b i => elem a 8 (elem b 8 i % 64)),
   (.vselD, 64, true, fun a _ i => elem a 64 i),
   (.vselW, 32, true, fun a _ i => elem a 32 i)]

/-- The operations on two masks, bit by bit (R486). -/
def maskOps : List ((BitVec 3 → BitVec 3 → BitVec 3 → Stall → Instr) × (Bool → Bool → Bool)) :=
  [(.vmand, fun x y => x && y), (.vmor, fun x y => x || y), (.vmxor, fun x y => x ^^ y)]

/-! ## Memory accesses -/

namespace State

/-- An access of an instruction's own, with its exits left open. -/
def exitsOf (fail : State → TrapInfo → State) (busy : State → Wait → State) : Exits := { Exits.run with fail := fail, busy := busy }

/-- An access passes every check of R275 after alignment: it goes on in the state named, at the place and memory type named. -/
def Passes (s : State) (va : Word) (m : Mode) (s' : State) (loc : Loc) (mt : Nat) : Prop :=
  ∀ fail busy k, s.checkAccess (exitsOf fail busy) va m k = k s' loc mt

/-- A load at a checked place is performed at once, with these bytes. -/
def Loads (s : State) (va : Word) (n : Nat) (loc : Loc) (mt : Nat) (s' : State) (bs : List Byte) : Prop :=
  ∀ fail busy k, s.loadAt (exitsOf fail busy) va n loc mt k = k s' bs

/-- A store at a checked place lets its instruction go on at once. -/
def Stores (s : State) (va : Word) (loc : Loc) (mt : Nat) (bs : List Byte) (clear : Bool) (port : Option Nat) (s' : State) : Prop :=
  ∀ k, s.storeAt va loc mt bs clear port k = k s'

/-- An atomic at a checked place is performed at once; `old` are the bytes it found. -/
def Updates (s : State) (va : Word) (n : Nat) (loc : Loc) (f : List Byte → Option (List Byte)) (s' : State) (old : List Byte) : Prop :=
  ∀ k, s.rmwAt va n loc f k = k s' old

/-- A physical address that Causeway carries to another package. -/
def outside? (loc : Loc) : Bool := match loc with
  | .mem pa => isCauseway pa
  | .scr _ _ => false

/-- The die's L2 holds the line (R237). -/
def l2Holds (s : State) (pa : Nat) : Bool := [L2St.s, .e, .o, .m].contains (s.l2St (dieOf s.here) (pa / 64))

/-- A line that a die may hold is in the L2 of the running context's die (R157, R237). -/
def lineAtHand (s : State) (pa : Nat) : Bool := s.l2Holds pa || !(isDevice pa || (s.cxlOn && isHostMem pa))

/-- The page-table entry of a scratchpad page is at hand: the translation buffer names the page, or the access has waited for it
and the die's L2 holds the entry's line (R162, R163). -/
def entryAtHand (s : State) (b p : Nat) : Bool :=
  (s.tile s.here).stlb.any (fun e => e.1 == b && e.2.1 == p) ||
    (s.cx.status == .waiting .line && s.lineAtHand (s.myLaunch.peat + areaBytes s.myLaunch.sppages * (s.block b).idx + 8 * p))

/-- What an instruction with an access of n bytes leaves in the task's records before its result: a tagged address clears
eligibility, an overlap with a symbolic store clears it, the line is a plain read (R187, R191). -/
def readRecorded (s : State) (a : Reg) (loc : Loc) (n : Nat) : State :=
  ((s.useTagged [a]).overlapsSym loc n).plainRead loc

end State

/-- The loaded value of a size below a pair (R410). -/
def loadedWord (n : Nat) (unsigned : Bool) (bs : List Byte) : Word :=
  if unsigned then BitVec.ofNat 64 (leNat bs % 2 ^ (8 * n)) else lowWord (signedField (leNat bs) (8 * n))

/-- The loads with an immediate in elements: LD, LD.u and LD.ACQ; whether the value is zero-extended, and whether the load is an
acquire (R214, R410). -/
def loadOps : List ((MSize → Reg → Reg → BitVec 6 → Scope → Stall → Instr) × Bool × Bool) :=
  [(fun z d a i _ sc => .ld z d a i sc, false, false), (fun z d a i _ sc => .ldU z d a i sc, true, false), (.ldAcq, false, true)]

/-- The eight atomics (R344): whether an AtomicOp to host memory exists for it (R299), and the new value from the old one and
the operand, both as numbers of the width. -/
def atomicOps : List ((ASize → Reg → Reg → Reg → Scope → Stall → Instr) × Bool × (Nat → Nat → Nat → Nat)) :=
  [(.aadd, true, fun n x y => (x + y) % 2 ^ n),
   (.aswap, true, fun _ _ y => y),
   (.aand, false, fun _ x y => x &&& y),
   (.aor, false, fun _ x y => x ||| y),
   (.axor, false, fun _ x y => x ^^^ y),
   (.amax, false, fun n x y => if signedField x n < signedField y n then y else x),
   (.amin, false, fun n x y => if signedField x n < signedField y n then x else y),
   (.amaxu, false, fun _ x y => if x < y then y else x)]

/-! ## Translation (R158) -/

namespace State

/-- A page-table dword that the walk reads at once without a fault: its line is at hand (R157). -/
def TableWord (s : State) (pa : Nat) (e : Word) : Prop :=
  (s.full = true ∨ isDevice pa = false) ∧ s.lineAtHand (64 * (pa / 64)) = true ∧ s.poisoned pa = false ∧ s.dwordAt pa = e

end State

/-- An entry the walk accepts: valid, with its reserved bits zero. -/
def entryValid (e : Word) : Bool := e.getLsbD 0 && bits e 52 10 == 0 && !e.getLsbD 4

/-- A pointer to a table aligned to 2^k bytes. -/
def entryTable (e : Word) (k : Nat) : Bool := entryValid e && !e.getLsbD 1 && bits e 8 44 * 256 % 2 ^ k == 0

/-- A leaf for pages of 2^k bytes. -/
def entryLeaf (e : Word) (k : Nat) : Bool := entryValid e && e.getLsbD 1 && bits e 8 44 * 256 % 2 ^ k == 0

/-! ## Wide accumulators (R144, R492) -/

namespace State

/-- The accumulator at a base passes the checks of R493: it goes on in the state named, at the offset named. -/
def AccPasses (s : State) (base : Word) (write : Bool) (s' : State) (off : Nat) : Prop :=
  ∀ k, s.checkAcc base write k = k s' off

/-- A free task's accumulator whose two pages, if it has two, stand in different frames, with nothing in its way. -/
def accFree (s : State) (off : Nat) : Prop :=
  let b := s.cx.task.blk
  let p := s.page b (off / 2048)
  let q := s.page b ((off + 535) / 2048)
  s.ordered = false ∧ s.specs = [] ∧ off % 8 = 0 ∧ p.st = .framed ∧ q.st = .framed ∧
    (off / 2048 ≠ (off + 535) / 2048 → frameBase p.tile p.frame + 2048 ≤ frameBase q.tile q.frame ∨
      frameBase q.tile q.frame + 2048 ≤ frameBase p.tile p.frame) ∧
    s.ownerOf b (off / 2048) = none ∧ s.ownerOf b ((off + 535) / 2048) = none ∧ Memory.wf s.frames = true ∧
    ∀ j < 67, s.ownOverlap (.scr b (off + 8 * j)) 8 = false

/-- The integer A of R492: the 67 dwords at an offset of the task's scratchpad as a two's-complement number. -/
def accInt (s : State) (off : Nat) : Int := signedField (s.accBytes s.cx.task.blk off) 4288

/-- A frame address that holds none of the 536 bytes of an accumulator. -/
def outsideAcc (s : State) (off x : Nat) : Prop := ∀ i < 536, s.frameAddr s.cx.task.blk (off + i) ≠ some x

end State

/-- x·y·2^2148 of two finite FP64 values, exactly; a pair with an infinity or a NaN adds nothing (R146, R492). -/
def productUnits (x y : Word) : Int :=
  match fp64.decode x.toNat, fp64.decode y.toNat with
  | .fin a m e, .fin b n g => (if a = b then 1 else -1) * (m * n * 2 ^ (e + g + 2148).toNat : Nat)
  | _, _ => 0

/-! ## Spawns (R49, R451) -/

namespace State

/-- The arguments and the hint of a spawn: a0..a3 and w60. -/
def spawnReads : List Reg := [56, 57, 58, 59, 60]

/-- A child's timestamp (R49): never below the spawner's own, nor below the broadcast Gvt, as the tile takes it (log 7), for a free
spawner. -/
def childStamp (s : State) (ts : Word) : Word :=
  if s.ordered then (if ts.toNat < s.cx.task.ts.toNat then s.cx.task.ts else ts)
  else if ts.toNat < s.frontAt s.here s.cx.task.lq / 2 ^ 32 % 2 ^ 64 then BitVec.ofNat 64 (s.frontAt s.here s.cx.task.lq / 2 ^ 32) else ts

/-- The record of R451 for a child at an entry on a block. -/
def child (s : State) (entry : BitVec 24) (ts : Option Word) (blk : Nat) : TaskRec :=
  { entry := entry.toNat, blk := blk, lq := s.cx.task.lq, ord := ts.isSome
    pin := (s.rd 60).getLsbD 63, dir := (s.rd 60).getLsbD 62, res := false
    ts := (ts.map s.childStamp).getD 0, tb := 0
    ptb := if ts.isSome && s.ordered then s.cx.task.tb else 0
    pts := if ts.isSome && s.ordered then s.cx.task.ts else 0
    args := [s.rd 56, s.rd 57, s.rd 58, s.rd 59], uid := s.nextUid }

/-- A local hint leads to a block of the launch (R42): named by its low 16 bits, or placed by its key. -/
def HintTo (s : State) (b : Nat) : Prop :=
  let h := s.rd 60
  let bs := s.myLaunch.blocks
  (h.getLsbD 62 = true ∧ h.getLsbD 37 = false ∧ b = h.toNat % 2 ^ 16 ∧ b ∈ bs) ∨
    (h.getLsbD 62 = false ∧ b = bs.getD (place (h.toNat % 2 ^ 62) bs.length) 0)

/-- A hint leads to another package of the launch's system level (R302). -/
def HintAway (s : State) (node : Nat) : Prop :=
  s.full = true ∧ (s.rd 60).getLsbD 62 = true ∧ (s.rd 60).getLsbD 37 = true ∧ node = (s.rd 60).toNat / 2 ^ 16 % 2 ^ 21 ∧ node ≠ s.node ∧
    ∃ e ∈ s.myLaunch.dmap, e.domain = 6 ∧ e.first ≤ node ∧ node < e.first + e.count

/-! ## Engine commands (R245, R248, R251) -/

/-- The tile can take a command of n ranges at this completion entry: the lowest free one of 1,024, at most 1,280 ranges
and 512 Lode commands outstanding, an engine in service. -/
def TakesCommand (s : State) (op : CmdOp) (n entry : Nat) : Prop :=
  let x := s.tile s.here
  s.absentEngine op = false ∧ freeEntry x = some entry ∧ (x.cmds.vals.map fun c => c.ranges.length).sum + n ≤ 1280 ∧
    (CmdOp.kind op = .lode → (x.cmds.vals.filter fun c => CmdOp.kind c.op == .lode).length < 512)

/-- A command has been issued: its entry holds what it captured, its ticket register is empty, it registers four cycles on;
its operands' ports are popped and their tags used. -/
def commandIssued (s : State) (op : CmdOp) (e : BitVec 3) (reads : List Reg) (a b : Word) (params : List Word)
    (handle : Option Line) (ranges : List LockRange) (entry : Nat) : State :=
  let c : Cmd :=
    { op := op, a := a, b := b, params := params, handle := handle, asid := s.asid, blk := s.cx.task.blk, lq := s.cx.task.lq
      uid := s.cx.task.uid, slot := s.slot, treg := e, ticket := 0, issued := s.cycle, due := 0
      gen := ((s.tile s.here).gens.get? entry).getD 0, seq := (s.tile s.here).cmdSeq, registered := false, asked := none, cancel := none
      missed := false, ranges := ranges }
  let t := s.here
  let c := { c with ticket := ticketOf (s.promise t c) t entry c.gen }
  let s := (s.useTagged reads).popPorts reads
  let s := s.setTile t { s.tile t with cmds := (s.tile t).cmds.set entry c, cmdSeq := (s.tile t).cmdSeq + 1 }
  let s := s.setCx { s.cx with results := s.cx.results ++ [{ reg := .e e, val := 0 }] }
  { s with agenda := insertDue (s.cycle + s.span t 4) (.ticketRegister t entry) s.agenda }

/-- A span of scratchpad that an engine may use (R247): offsets lo up to hi from `off` at or above xb and inside the window. -/
def SpanFits (s : State) (off : Nat) (lo hi : Int) : Prop :=
  (s.myBlock.xb : Int) ≤ off + lo ∧ (off : Int) + hi ≤ 2048 * s.myLaunch.sppages

/-- A scratchpad address at an offset (R149). -/
def scratchAt (va : Word) (off : Nat) : Prop := va.toNat / 2 ^ 24 = 2 ^ 40 - 1 ∧ off = va.toNat % 2 ^ 24

end State

/-- A ticket (R250). -/
def ticketWord (due tile entry gen : Nat) : Word :=
  BitVec.ofNat 64 (due % 2 ^ 32 * 2 ^ 32 + tile * 2 ^ 20 + entry * 2 ^ 10 + gen % 256 * 4 + 1)

namespace State

/-- A command that completes at issue: e is empty for four cycles and then receives a ticket whose entry has gone on to its next
generation, so that the ticket denotes a complete command; no entry is taken and no byte changes (R248, R250, R251, R365). -/
def IssuedComplete (s t : State) (e : BitVec 3) (entry : Nat) : Prop :=
  let gen := ((s.tile s.here).gens.get? entry).getD 0
  (∃ c : Cmd, (s.cycle + s.span s.here 4, .doneTicket s.here entry c) ∈ t.agenda ∧
      ∀ u : State, execDoneTicket s.here entry c u = .next (u.landValue s.cx.task.uid (.e e)
        (some ((ticketWord (u.promise s.here c) s.here entry gen).setWidth 512)))) ∧
    (t.ctx s.cur).results = s.cx.results ++ [{ reg := .e e, val := 0 }] ∧
    (t.tile s.here).cmds = (s.tile s.here).cmds ∧ (t.tile s.here).gens.get? entry = some ((gen + 1) % 256) ∧
    t.mem = s.mem ∧ t.frames = s.frames

/-- The ticket x denotes a command that is complete, and no fault of it is undelivered (R250, R255). -/
def TicketDone (s : State) (x : Word) : Prop :=
  s.ticketBad x = false ∧ s.faultOf x = none ∧ s.liveCmd x = none

end State

/-! ## Port bindings (R436) -/

namespace State

/-- The running context changed by `f` after what a port fetched ahead has been discarded; no fetch for the port is under
way. -/
def rebound (s : State) (p : Nat) (f : Ctx → Ctx) : State :=
  { s with
    agenda := s.agenda.filter fun e => e.2 != .streamElementArrive s.here s.slot p
    ctxs := s.ctxs.set s.cur (f { s.cx with ahead := s.cx.ahead.filter fun e => e.port != p }) }

/-- Every append of a port has been performed. -/
def portDrained (s : State) (p : Nat) : Prop := ∀ q ∈ s.stores, ¬(q.port = some p ∧ q.uid = s.cx.task.uid)

/-! ## Barriers (R223, R224) -/

/-- BAR on the object: none where it raises a trap; the last to arrive releases it. -/
def barStep (b : Barrier) : Option Barrier :=
  if 2 ≤ b.flags ∨ b.expected ≤ b.arrived then none
  else if b.arrived + 1 = b.expected then some { b with arrived := 0, gen := (b.gen + 1) % 2 ^ 32 }
  else some { b with arrived := b.arrived + 1 }

/-- BARJOIN on the object. -/
def joinStep (b : Barrier) : Option Barrier :=
  if 2 ≤ b.flags ∨ b.flags % 2 = 0 ∨ b.expected + 1 = 2 ^ 32 then none else some { b with expected := b.expected + 1 }

/-- BARLEAVE on the object: it may be what the others waited for. -/
def leaveStep (b : Barrier) : Option Barrier :=
  if 2 ≤ b.flags ∨ b.flags % 2 = 0 then none
  else if b.arrived ≠ 0 ∧ b.arrived = (b.expected + 2 ^ 32 - 1) % 2 ^ 32 then
    some { b with arrived := 0, expected := (b.expected + 2 ^ 32 - 1) % 2 ^ 32, gen := (b.gen + 1) % 2 ^ 32 }
  else some { b with expected := (b.expected + 2 ^ 32 - 1) % 2 ^ 32 }

/-- The 16 bytes of an object after a step. -/
def objectStep (f : Barrier → Option Barrier) (old : List Byte) : Option (List Byte) := (f (barrierOf old)).map Barrier.bytes

/-- The completion of an instruction whose only operand is a. -/
def doneAt (s : State) (a : Reg) (sc : Stall) : State := ((s.useTagged [a]).popPorts [a]).retire sc

/-! ## Publication (R232, R233) -/

/-- The 64 bytes of a descriptor describe a region of R232 at this scope code. -/
def describes (bs : List Byte) (scope : Nat) (r : PubRegion) : Prop :=
  let last := r.base.toNat + r.len - 1
  r.base = BitVec.ofNat 64 (leNat (bs.take 8)) ∧ r.len = leNat ((bs.drop 8).take 8) ∧ r.scope = scope ∧ r.closer = none ∧ r.queue = [] ∧
    r.base.toNat % 64 = 0 ∧ r.len % 64 = 0 ∧ 64 ≤ r.len ∧ r.len ≤ 2 ^ 30 ∧
    (last < 2 ^ 56 ∨ 2 ^ 64 - 2 ^ 56 ≤ r.base.toNat ∧ last < 2 ^ 64 - 2 ^ 24) ∧
    leNat ((bs.drop 24).take 1) = scope ∧ ∀ b ∈ bs.drop 25, b = 0

/-- A region apart from a span. -/
def apart (r : PubRegion) (base : Word) (len : Nat) : Prop :=
  r.base.toNat + r.len ≤ base.toNat ∨ base.toNat + len ≤ r.base.toNat

/-! ## Special registers (R74, R87, R113, R261, R269, R271, R280) -/

/-- The RW bits of a special register other than xb. -/
def csrMask (s : State) (n : Nat) : Word :=
  let handler := s.cx.psw.getLsbD 10
  if n = 0x000 then 0xE
  else if n = 0x011 ∨ n = 0x019 then (if handler then 0xFFFFFC else 0)
  else if n = 0x012 ∨ n = 0x01A then (if handler then 0xE else 0)
  else if n = 0x015 ∨ n = 0x01D then BitVec.allOnes 64
  else if n / 0x80 = 2 then (if n % 16 < 3 then BitVec.allOnes 64 else if n % 16 = 3 then 1 else 0)
  else if n / 0x40 = 6 then (if n % 8 < 2 then BitVec.allOnes 64 else if n % 8 = 2 then 0x3101FFFF03FF else 0)
  else if n / 0x40 = 7 then (if n % 8 = 0 then 0xFFFFFFFF else if n % 8 < 6 then BitVec.allOnes 64 else 0)
  else 0

end State

/-! ## Engines (R251, R255, R273) -/

/-- Steps one after another, each with its number. -/
def inTurn (step : Nat → State → State → Prop) : List Nat → State → State → Prop
  | [], s, t => t = s
  | i :: is, s, t => ∃ u, step i s u ∧ inTurn step is u t

/-- An engine's read of n bytes for a command of tile t: the bytes, and the state it leaves. -/
def State.EngReads (s : State) (t : Nat) (c : Cmd) (va : Word) (n : Nat) (bs : List Byte) (s' : State) : Prop :=
  (engRead t c va n).run.run s = (.ok bs, s')

/-- An engine's write for a command of tile t, and the state it leaves. -/
def State.EngWrites (s : State) (t : Nat) (c : Cmd) (va : Word) (bs : List Byte) (s' : State) : Prop :=
  (engWrite t c va bs).run.run s = (.ok (), s')

/-- The command of an entry is performed in this event, whole. -/
def State.Performs (s : State) (t entry : Nat) (c : Cmd) : Prop :=
  (s.tile t).cmds.get? entry = some c ∧ c.registered = true ∧ c.cancel = none ∧ s.cmdReady t c = true ∧ s.cmdDeferred c = false

/-- The command of an entry ends with its data as they stand in the state to which its accesses have come; the entry is free. -/
def State.EndsWith (s : State) (t entry : Nat) (s' : State) : Prop :=
  ∃ u, exec (.commandComplete t entry) s = .next u ∧ u.mem = s'.mem ∧ u.frames = s'.frames ∧ u.parts = s'.parts ∧
    u.blocks = s'.blocks ∧ (u.tile t).cmds.get? entry = none ∧
    ∀ i, (u.cluster i).active = (s'.cluster i).active ∧ (u.cluster i).shadow = (s'.cluster i).shadow

/-- CSRW, CSRS and CSRC: what the RW bits become, from the old value and the operand (R373). -/
def csrOps : List ((BitVec 10 → Reg → Stall → Instr) × (Word → Word → Word)) :=
  [(.csrw, fun _ v => v), (.csrs, fun old v => old ||| v), (.csrc, fun old v => old &&& ~~~v)]

/-! ## Traps (R274, R276, R281) -/

/-- The causes first taken at the user vector, and the program-error faults that an ordered task holds. -/
def userCauses : List Nat := [0x07, 0x08, 0x09, 0x0A, 0x0C, 0x0D, 0x0E]
def heldCauses : List Nat := [0x01, 0x02, 0x03, 0x04, 0x06, 0x07, 0x09, 0x0C, 0x0D, 0x0E, 0x0F]

/-- The trap state of a level after an entry on a context. -/
def trapSaved (c : Ctx) (i : TrapInfo) (old : TrapState) : TrapState :=
  { cause := BitVec.ofNat 64 (i.cause + i.dfr.toNat * 2 ^ 13 + i.eng.toNat * 2 ^ 14 + i.held.toNat * 2 ^ 15)
    epc := BitVec.ofNat 64 (if i.after then (c.pc.toNat + 4) % 2 ^ 24 else c.pc.toNat)
    epsw := c.psw, word := i.word, val2 := i.val2, scratch := old.scratch }

end Sys2Proof.Machine
end

