-- ==== Sys2Proof/Certificates/Slice0/Obligations.lean ====
section
/-!
DEFINITION. The statements for the provers.
-/
open Sys2Proof Sys2Proof.Machine

/-! ## Integer instructions -/

/-- Every two-operand integer instruction gives the value of its entry with its latency (R350, R376, R415, R424, R434, R446),
from every state in which it issues. -/
def Obligations.IntegerTwoOperands : Prop :=
  ∀ p ∈ integerOps, ∀ (s : State) (d a b : Reg) (sc : Stall), s.issues [.w a, .w b] [.w d] = true →
    exec (p.1 d a b sc) s = .next (s.scalarDone [a, b] d (p.2.1 (s.rd a) (s.rd b)) (.fixed p.2.2) sc)

/-- The one-operand, immediate, shift, field and constant instructions (R351, R380, R406, R414, R443, R447). CLZ, CTZ and CPOP
count bits (R363). -/
def Obligations.IntegerImmediates : Prop :=
  (
    (∀ p ∈ unaryOps, ∀ (s : State) (d a : Reg) (sc : Stall), s.issues [.w a] [.w d] = true →
      exec (p.1 d a sc) s = .next (s.scalarDone [a] d (p.2 (s.rd a)) (.fixed 4) sc)) ∧
    (∀ p ∈ immediateOps, ∀ (s : State) (d a : Reg) (i : BitVec 12) (sc : Stall), s.issues [.w a] [.w d] = true →
      exec (p.1 d a i sc) s = .next (s.scalarDone [a] d (p.2 (s.rd a) i) (.fixed 4) sc)) ∧
    (∀ p ∈ shiftOps, ∀ (s : State) (d a : Reg) (n : BitVec 6) (sc : Stall), s.issues [.w a] [.w d] = true →
      exec (p.1 d a n sc) s = .next (s.scalarDone [a] d (p.2 (s.rd a) n.toNat) (.fixed 4) sc)) ∧
    (∀ p ∈ fieldOps, ∀ (s : State) (d a : Reg) (pos len1 : BitVec 6) (sc : Stall), s.issues [.w a] [.w d] = true →
      exec (p.1 d a pos len1 sc) s = .next (s.scalarDone [a] d (p.2 (s.rd a) pos.toNat (len1.toNat + 1)) (.fixed 4) sc)) ∧
    (∀ (s : State) (d a : Reg) (pos len1 : BitVec 6) (sc : Stall), s.issues [.w a, .w d] [.w d] = true →
      pos.toNat + len1.toNat + 1 ≤ 64 →
      ∃ r : Word, (∀ i < 64, r.getLsbD i =
          if pos.toNat ≤ i ∧ i < pos.toNat + len1.toNat + 1 then (s.rd a).getLsbD (i - pos.toNat) else (s.rd d).getLsbD i) ∧
        exec (.ins d a pos len1 sc) s = .next (s.scalarDone [a, d] d r (.fixed 4) sc)) ∧
    (∀ (s : State) (d : Reg) (imm : BitVec 18) (sc : Stall), s.issues [] [.w d] = true →
      exec (.lui d imm sc) s = .next (s.scalarDone [] d (lowWord (signedField (imm.toNat * 2 ^ 12) 30)) (.fixed 4) sc)) ∧
    (∀ (s : State) (d : Reg) (imm : BitVec 16) (sc : Stall), s.issues [.w d] [.w d] = true →
      exec (.lsi d imm sc) s =
        .next (s.scalarDone [d] d (BitVec.ofNat 64 ((s.rd d).toNat * 2 ^ 16 + imm.toNat)) (.fixed 4) sc))) ∧
  (
    ∀ (s : State) (d a : Reg) (sc : Stall), s.issues [.w a] [.w d] = true →
      (∃ n ≤ 64, exec (.clz d a sc) s = .next (s.scalarDone [a] d (BitVec.ofNat 64 n) (.fixed 4) sc) ∧
        (∀ i < 64, 64 - n ≤ i → (s.rd a).getLsbD i = false) ∧ (n < 64 → (s.rd a).getLsbD (63 - n) = true)) ∧
      (∃ n ≤ 64, exec (.ctz d a sc) s = .next (s.scalarDone [a] d (BitVec.ofNat 64 n) (.fixed 4) sc) ∧
        (∀ i < n, (s.rd a).getLsbD i = false) ∧ (n < 64 → (s.rd a).getLsbD n = true)) ∧
      exec (.cpop d a sc) s = .next (s.scalarDone [a] d
        (BitVec.ofNat 64 (((List.range 64).map fun i => ((s.rd a).getLsbD i).toNat).sum)) (.fixed 4) sc))

/-- ADD, SUB and ADDI pass a single symbolic tag on; SUB only the tag of its first operand; two tagged operands, or a tagged
second operand of SUB, clear eligibility (R191, R348, R349, R464). -/
def Obligations.AdditionsCarryTags : Prop :=
  ∀ (s : State) (d a b : Reg) (i : BitVec 12) (sc : Stall),
    (s.issues [.w a, .w b] [.w d] = true →
      let sum := lowWord ((s.rd a).toInt + (s.rd b).toInt)
      let difference := lowWord ((s.rd a).toInt - (s.rd b).toInt)
      let done := fun (s : State) (v : Word) (tag : BitVec 3) => ((s.popPorts [a, b]).putW d v tag (.fixed 4)).retire sc
      exec (.add d a b sc) s = .next
        (if s.tagged a && s.tagged b then done s.dropElig sum 0
         else done s sum (if s.tagged a then s.tagOf a else s.tagOf b)) ∧
      exec (.sub d a b sc) s = .next
        (if s.tagged b then done s.dropElig difference 0 else done s difference (s.tagOf a))) ∧
    (s.issues [.w a] [.w d] = true →
      exec (.addi d a i sc) s = .next
        (((s.popPorts [a]).putW d (lowWord ((s.rd a).toInt + signedField i.toNat 12)) (s.tagOf a) (.fixed 4)).retire sc))

/-- SLT, SLTU, SLTI and SLTIU give 1 or 0, untagged, and record the constraint of a tagged operand (R191, R448, R449). The
constraint of a compare or branch joins the task's eight records; a ninth clears eligibility; a task that is not eligible
records nothing (R192, R195). -/
def Obligations.Compares : Prop :=
  (
    ∀ (s : State) (d a b : Reg) (i : BitVec 12) (sc : Stall),
      let immediate := lowWord (signedField i.toNat 12)
      let finish := fun (s : State) (reads : List Reg) (out : Bool) =>
        ((s.popPorts reads).putW d (if out then 1 else 0) 0 (.fixed 4)).retire sc
      let record := fun (cmp : SymCmp) (right : SymVal) (used : Bool) (out : Bool) =>
        if used then s.constrain cmp (s.symVal a) right out else s
      (s.issues [.w a, .w b] [.w d] = true →
        (let out := decide ((s.rd a).toInt < (s.rd b).toInt)
         exec (.slt d a b sc) s = .next (finish (record .lt (s.symVal b) (s.tagged a || s.tagged b) out) [a, b] out)) ∧
        (let out := decide ((s.rd a).toNat < (s.rd b).toNat)
         exec (.sltu d a b sc) s = .next (finish (record .ltu (s.symVal b) (s.tagged a || s.tagged b) out) [a, b] out))) ∧
      (s.issues [.w a] [.w d] = true →
        (let out := decide ((s.rd a).toInt < immediate.toInt)
         exec (.slti d a i sc) s = .next (finish (record .lt (.val immediate) (s.tagged a) out) [a] out)) ∧
        (let out := decide ((s.rd a).toNat < immediate.toNat)
         exec (.sltiu d a i sc) s = .next (finish (record .ltu (.val immediate) (s.tagged a) out) [a] out)))) ∧
  (
    ∀ (s : State) (cmp : SymCmp) (l r : SymVal) (out : Bool),
      (s.ordered = false → s.constrain cmp l r out = s) ∧
      (s.ordered = true → ∀ y, s.specs.get? s.cx.task.uid = some y → y.task.uid = s.cx.task.uid →
        (y.elig = false → s.constrain cmp l r out = s) ∧
        (y.elig = true → y.cons.length < 8 → s.constrain cmp l r out = { s with
          specs := s.specs.set s.cx.task.uid { y with cons := y.cons ++ [{ cmp := cmp, l := l, r := r, out := out }] } }) ∧
        (y.elig = true → 8 ≤ y.cons.length → s.constrain cmp l r out = s.dropElig)))

/-! ## Control flow -/

/-- A taken branch goes to pc + 4·off, and to NextPc otherwise; a tagged operand's constraint is recorded (R101, R191, R356). -/
def Obligations.Branches : Prop :=
  ∀ p ∈ branchOps, ∀ (s : State) (a b : Reg) (off : BitVec 12) (sc : Stall), s.issues [.w a, .w b] [] = true →
    let out := p.2.2 (s.rd a) (s.rd b)
    let s' := (if s.tagged a || s.tagged b then s.constrain p.2.1 (s.symVal a) (s.symVal b) out else s).popPorts [a, b]
    exec (p.1 a b off sc) s = .next
      (if out then s'.jumped (BitVec.ofInt 24 (s.cx.pc.toNat + 4 * signedField off.toNat 12)) sc
       else s'.goTo (s'.cx.pc + 4) sc)

/-- J and JAL go to pc + 4·off24, JALR to the sum of its register and immediate; JAL and JALR leave NextPc in lk or d; a JALR
target that is no multiple of four raises alignment with the second value 4 and writes nothing (R407, R408). -/
def Obligations.Jumps : Prop :=
  ∀ (s : State) (d a : Reg) (off : BitVec 24) (i : BitVec 12) (sc : Stall),
    let far := BitVec.ofInt 24 (s.cx.pc.toNat + 4 * signedField off.toNat 24)
    let next := BitVec.ofNat 64 ((s.cx.pc.toNat + 4) % 2 ^ 24)
    (s.issues [] [] = true → exec (.j off sc) s = .next (s.jumped far sc)) ∧
    (s.issues [] [.w 61] = true → exec (.jal off sc) s = .next ((s.putW 61 next 0 (.fixed 4)).jumped far sc)) ∧
    (s.issues [.w a] [.w d] = true →
      let t := BitVec.ofInt 24 ((s.rd a).toInt + signedField i.toNat 12)
      exec (.jalr d a i sc) s = .next
        (if t.toNat % 4 = 0 then (((s.useTagged [a]).popPorts [a]).putW d next 0 (.fixed 4)).jumped t sc
         else s.trap 0x02 (BitVec.ofNat 64 t.toNat) 4))

/-! ## Floating point -/

/-- The scalar floating-point instructions give the rounded exact result, or the class, of their operands, zero-extended into d,
untagged (R381, R383, R389, R391, R394, R395, R396, R398). -/
def Obligations.ScalarFloat : Prop :=
  (∀ p ∈ floatOps, ∀ (s : State) (z : FSize) (d a b : Reg) (sc : Stall), s.issues [.w a, .w b] [.w d] = true →
    let f := FSize.fmt z
    exec (p.1 z d a b sc) s = .next (s.scalarDone [a, b] d
      (BitVec.ofNat 64 (p.2.1 f (bits s.cx.psw 1 2) (operandOf f (s.rd a)) (operandOf f (s.rd b)))) (.fixed p.2.2) sc)) ∧
  (∀ p ∈ floatUnaryOps, ∀ (s : State) (z : FSize) (d a : Reg) (sc : Stall), s.issues [.w a] [.w d] = true →
    let f := FSize.fmt z
    exec (p.1 z d a sc) s = .next (s.scalarDone [a] d
      (BitVec.ofNat 64 (p.2.1 f (bits s.cx.psw 1 2) (operandOf f (s.rd a)))) (.fixed p.2.2) sc)) ∧
  (∀ p ∈ fusedOps, ∀ (s : State) (z : FSize) (d a b : Reg) (sc : Stall), s.issues [.w a, .w b, .w d] [.w d] = true →
    let f := FSize.fmt z
    let rm := bits s.cx.psw 1 2
    let x := fun (n : Reg) => f.decode (operandOf f (s.rd n))
    exec (p.1 z d a b sc) s = .next (s.scalarDone [a, b, d] d
      (BitVec.ofNat 64 (f.ofVal rm (p.2 rm (x a) (x b) (x d)))) (.fixed 8) sc)) ∧
  (∀ (s : State) (dst src : BitVec 3) (d a : Reg) (sc : Stall), s.issues [.w a] [.w d] = true →
    exec (.fcvt dst src d a sc) s =
      .next (s.scalarDone [a] d (fcvtBits (bits s.cx.psw 1 2) dst.toNat src.toNat (s.rd a)) (.fixed 8) sc))

/-- An exactly representable value rounds to its own pattern in every mode: decoding a pattern that is no NaN and rounding the
value gives the pattern back (R124, R125, R133). -/
def Obligations.ExactValuesRoundToThemselves : Prop :=
  ∀ f ∈ [fp64, fp32, fpBf16, fp16, fpE5m2, fpE4m3, fpE2m1], ∀ rm < 4, ∀ p < 2 ^ f.width,
    (f.decode p).isNaN = false → f.ofVal rm (f.decode p) = p

/-! ## Vectors -/

/-- The element-wise floating-point instructions of map A (R472, R474, R480, R482). -/
def Obligations.VectorFloat : Prop :=
  (∀ p ∈ vectorFloatOps, ∀ (s : State) (z : VFmt) (vd va vb : BitVec 4) (m : BitVec 3) (sc : Stall),
    s.vissues [.v va, .v vb, .m m] [.v vd] = true →
    let f := VFmt.fmt z
    let w := f.width
    ∃ x : Line, State.governed w (s.rdM m) (s.rdV vd) x
        (fun i => p.2.1 f (bits s.cx.psw 1 2) (elem (s.rdV va) w i) (elem (s.rdV vb) w i)) ∧
      exec (p.1 z vd va vb m sc) s = .next (s.vectorDone (.v vd) x p.2.2 sc)) ∧
  (∀ p ∈ vectorFloatUnaryOps, ∀ (s : State) (z : VFmt) (vd va : BitVec 4) (m : BitVec 3) (sc : Stall),
    s.vissues [.v va, .m m] [.v vd] = true →
    let f := VFmt.fmt z
    let w := f.width
    ∃ x : Line, State.governed w (s.rdM m) (s.rdV vd) x (fun i => p.2.1 f (bits s.cx.psw 1 2) (elem (s.rdV va) w i)) ∧
      exec (p.1 z vd va m sc) s = .next (s.vectorDone (.v vd) x p.2.2 sc)) ∧
  (∀ p ∈ vectorFusedOps, ∀ (s : State) (z : VFmt) (vd va vb vc : BitVec 4) (m : BitVec 3) (sc : Stall),
    s.vissues [.v va, .v vb, .v vc, .m m] [.v vd] = true →
    let f := VFmt.fmt z
    let w := f.width
    let rm := bits s.cx.psw 1 2
    let y := fun (v : BitVec 4) (i : Nat) => f.decode (elem (s.rdV v) w i)
    ∃ x : Line, State.governed w (s.rdM m) (s.rdV vd) x (fun i => f.ofVal rm (p.2 rm (y va i) (y vb i) (y vc i))) ∧
      exec (p.1 z vd va vb vc m sc) s = .next (s.vectorDone (.v vd) x (.fixed 8) sc))

/-- The element-wise integer instructions of map B, wrapping at the element width (R472, R473, R474, R475, R490), and VMOV,
which copies the selected dwords (R487). The compares write a whole mask: the outcome at each selected element, zero elsewhere
(R477). -/
def Obligations.VectorIntegers : Prop :=
  (
    (∀ p ∈ vectorIntOps, ∀ (s : State) (z : Sys2Proof.ISize) (vd va vb : BitVec 4) (m : BitVec 3) (sc : Stall),
      s.vissues [.v va, .v vb, .m m] [.v vd] = true →
      let w := ISize.width z
      ∃ x : Line, State.governed w (s.rdM m) (s.rdV vd) x (fun i => p.2 w (elem (s.rdV va) w i) (elem (s.rdV vb) w i)) ∧
        exec (p.1 z vd va vb m sc) s = .next (s.vectorDone (.v vd) x (.fixed 8) sc)) ∧
    (∀ p ∈ vectorIntUnaryOps, ∀ (s : State) (z : Sys2Proof.ISize) (vd va : BitVec 4) (m : BitVec 3) (sc : Stall),
      s.vissues [.v va, .m m] [.v vd] = true →
      let w := ISize.width z
      ∃ x : Line, State.governed w (s.rdM m) (s.rdV vd) x (fun i => p.2 w (elem (s.rdV va) w i)) ∧
        exec (p.1 z vd va m sc) s = .next (s.vectorDone (.v vd) x (.fixed 8) sc)) ∧
    (∀ (s : State) (vd va : BitVec 4) (m : BitVec 3) (sc : Stall), s.vissues [.v va, .m m] [.v vd] = true →
      ∃ x : Line, State.governed 64 (s.rdM m) (s.rdV vd) x (fun i => elem (s.rdV va) 64 i) ∧
        exec (.vmov vd va m sc) s = .next (s.vectorDone (.v vd) x (.fixed 8) sc))) ∧
  (
    (∀ p ∈ vectorFloatCompares, ∀ (s : State) (z : VFmt) (md : BitVec 3) (va vb : BitVec 4) (m : BitVec 3) (sc : Stall),
      s.vissues [.v va, .v vb, .m m] [.m md] = true →
      let f := VFmt.fmt z
      let w := f.width
      ∃ x : Word, State.compareMask w (s.rdM m) x
          (fun i => p.2 (f.decode (elem (s.rdV va) w i)) (f.decode (elem (s.rdV vb) w i))) ∧
        exec (p.1 z md va vb m sc) s = .next (s.vectorDone (.m md) (x.setWidth 512) (.fixed 8) sc)) ∧
    (∀ p ∈ vectorIntCompares, ∀ (s : State) (z : Sys2Proof.ISize) (md : BitVec 3) (va vb : BitVec 4) (m : BitVec 3) (sc : Stall),
      s.vissues [.v va, .v vb, .m m] [.m md] = true →
      let w := ISize.width z
      ∃ x : Word, State.compareMask w (s.rdM m) x (fun i => p.2 w (elem (s.rdV va) w i) (elem (s.rdV vb) w i)) ∧
        exec (p.1 z md va vb m sc) s = .next (s.vectorDone (.m md) (x.setWidth 512) (.fixed 8) sc)))

/-- The reductions combine the selected elements in the pairwise tree of R143 and write the result as a whole register (R106,
R488); an integer sum leaves every element but element 0 zero. VCVT converts n elements into the part of the destination that p
names and keeps every other bit (R138, R479). Choices of the model that it rests on: log 92. -/
def Obligations.VectorReductions : Prop :=
  (
    (∀ p ∈ vectorFloatReductions, ∀ (s : State) (z : VFmt) (vd va : BitVec 4) (m : BitVec 3) (sc : Stall),
      s.vissues [.v va, .m m] [.v vd] = true →
      let f := VFmt.fmt z
      let x := fun i => if (s.rdM m).getLsbD i then some (elem (s.rdV va) f.width i) else none
      exec (p.1 z vd va m sc) s = .next (s.vectorDone (.v vd)
        (BitVec.ofNat 512 ((treeOf (p.2.1 f (bits s.cx.psw 1 2)) x (512 / f.width).log2 0).getD (p.2.2 f))) (.variable 1) sc)) ∧
    (∀ (s : State) (z : Sys2Proof.ISize) (vd va : BitVec 4) (m : BitVec 3) (sc : Stall), s.vissues [.v va, .m m] [.v vd] = true →
      let w := ISize.width z
      let x := fun i => if (s.rdM m).getLsbD i then elem (s.rdV va) w i else 0
      ∃ r : Line, elem r w 0 = ((List.range (512 / w)).map x).sum % 2 ^ w ∧ (∀ i < 512 / w, 0 < i → elem r w i = 0) ∧
        exec (.vredsumInt z vd va m sc) s = .next (s.vectorDone (.v vd) r (.variable 1) sc))) ∧
  (
    ∀ (s : State) (src dst : BitVec 4) (part : BitVec 3) (sat : Bool) (vd va : BitVec 4) (m : BitVec 3) (sc : Stall),
      s.vissues [.v va, .m m] [.v vd] = true → (Instr.vcvt src dst part sat vd va m sc).wellFormed = true →
      let ws := vcvtWidth src.toNat
      let wd := vcvtWidth dst.toNat
      let n := 512 / max ws wd
      let source := fun i => if ws ≤ wd then part.toNat * n + i else i
      let target := fun i => if ws ≤ wd then i else part.toNat * n + i
      ∃ x : Line,
        (∀ i < n, (s.rdM m).getLsbD i = true → elem x wd (target i)
          = convertCode (bits s.cx.psw 1 2) sat src.toNat dst.toNat (elem (s.rdV va) ws (source i)) % 2 ^ wd) ∧
        (∀ j < 512, (∀ i < n, (s.rdM m).getLsbD i = true → j < wd * target i ∨ wd * (target i + 1) ≤ j) →
          x.getLsbD j = (s.rdV vd).getLsbD j) ∧
        exec (.vcvt src dst part sat vd va m sc) s = .next (s.vectorDone (.v vd) x (.fixed 8) sc))

/-- VSHUF, VSEL, VBCAST, VEXT and VINS (R476, R481, R489); the mask operations, VMPUT and VMGET (R486). -/
def Obligations.VectorMoves : Prop :=
  (
    (∀ p ∈ vectorMoves, ∀ (s : State) (vd va vb : BitVec 4) (m : BitVec 3) (sc : Stall),
      s.vissues [.v va, .v vb, .m m] [.v vd] = true →
      ∃ x : Line, State.governed p.2.1 (s.rdM m) (if p.2.2.1 then s.rdV vb else s.rdV vd) x (p.2.2.2 (s.rdV va) (s.rdV vb)) ∧
        exec (p.1 vd va vb m sc) s = .next (s.vectorDone (.v vd) x (.fixed 8) sc)) ∧
    (∀ p ∈ [((.vbcastD, 64) : (BitVec 4 → Reg → BitVec 3 → Stall → Instr) × Nat), (.vbcastW, 32)],
      ∀ (s : State) (vd : BitVec 4) (ws : Reg) (m : BitVec 3) (sc : Stall), s.vissues [.w ws, .m m] [.v vd] = true →
      ∃ x : Line, State.governed p.2 (s.rdM m) (s.rdV vd) x (fun _ => (s.rd ws).toNat) ∧
        exec (p.1 vd ws m sc) s = .next (((s.useTagged [ws]).popPorts [ws]).vectorDone (.v vd) x (.fixed 8) sc)) ∧
    (∀ (s : State) (ws : Reg) (va k : BitVec 4) (sc : Stall), s.vissues [.v va] [.w ws] = true →
      (k.toNat < 8 → exec (.vextD ws va k sc) s
        = .next ((s.putW ws (BitVec.ofNat 64 (elem (s.rdV va) 64 k.toNat)) 0 (.fixed 8)).vretire sc)) ∧
      exec (.vextW ws va k sc) s
        = .next ((s.putW ws (lowWord (signedField (elem (s.rdV va) 32 k.toNat) 32)) 0 (.fixed 8)).vretire sc)) ∧
    (∀ p ∈ [((.vinsD, 64) : (BitVec 4 → Reg → BitVec 4 → Stall → Instr) × Nat), (.vinsW, 32)],
      ∀ (s : State) (vd : BitVec 4) (ws : Reg) (k : BitVec 4) (sc : Stall), s.vissues [.w ws] [.v vd] = true →
      k.toNat < 512 / p.2 →
      ∃ x : Line, (∀ i < 512 / p.2, elem x p.2 i =
          if i = k.toNat then (s.rd ws).toNat % 2 ^ p.2 else elem (s.rdV vd) p.2 i) ∧
        exec (p.1 vd ws k sc) s = .next (((s.useTagged [ws]).popPorts [ws]).vectorDone (.v vd) x (.fixed 8) sc))) ∧
  (
    (∀ p ∈ maskOps, ∀ (s : State) (md ma mb : BitVec 3) (sc : Stall), s.vissues [.m ma, .m mb] [.m md] = true →
      ∃ x : Word, (∀ i < 64, x.getLsbD i = p.2 ((s.rdM ma).getLsbD i) ((s.rdM mb).getLsbD i)) ∧
        exec (p.1 md ma mb sc) s = .next (s.vectorDone (.m md) (x.setWidth 512) (.fixed 8) sc)) ∧
    (∀ (s : State) (md ma : BitVec 3) (sc : Stall), s.vissues [.m ma] [.m md] = true →
      ∃ x : Word, (∀ i < 64, x.getLsbD i = !(s.rdM ma).getLsbD i) ∧
        exec (.vmnot md ma sc) s = .next (s.vectorDone (.m md) (x.setWidth 512) (.fixed 8) sc)) ∧
    (∀ (s : State) (md : BitVec 3) (ws : Reg) (sc : Stall), s.vissues [.w ws] [.m md] = true →
      exec (.vmput md ws sc) s
        = .next (((s.useTagged [ws]).popPorts [ws]).vectorDone (.m md) ((s.rd ws).setWidth 512) (.fixed 8) sc)) ∧
    (∀ (s : State) (ws : Reg) (ma : BitVec 3) (sc : Stall), s.vissues [.m ma] [.w ws] = true →
      exec (.vmget ws ma sc) s = .next ((s.putW ws (s.rdM ma) 0 (.fixed 8)).vretire sc)))

/-! ## What completing writes -/

/-- Completing with a fixed-latency result into a plain register from plain untagged operands changes the running context's
destination register, its tag, the scoreboard, pc, status and next issue, and the tile's last slot, and nothing else; w0, ts and
wp discard the write (R69, R70, R72, R73, R77, R79). An operand register whose result has not arrived: with psw.chk a
fixed-latency one raises scoreboard violation with its number, otherwise the context waits; an ordered task that names a port
raises illegal-instruction (R71, R177, R274). -/
def Obligations.OperandTests : Prop :=
  (
    ∀ (s : State) (reads : List Reg) (d : Reg) (v : Word) (lat : Nat) (sc : Stall),
      reads.all s.plain = true → s.plain d = true → s.untagged reads = true →
      s.scalarDone reads d v (.fixed lat) sc = s.wrote d v 0 lat (BitVec.ofNat 24 (s.cx.pc.toNat + 4)) sc) ∧
  (
    ∀ p ∈ integerOps, ∀ (s : State) (d a b : Reg) (sc : Stall),
      let all : List RegRef := [.w a, .w b, .w d]
      (s.ordered = true → ([a, b, d].any s.usesPort) = true → exec (p.1 d a b sc) s = .next s.trapIllegal) ∧
      (([a, b, d].all s.plain) = true →
        (∀ r, all.find? s.fixedEmpty = some (.w r) →
          exec (p.1 d a b sc) s = .next
            (if s.cx.psw.getLsbD 3 then s.trap 0x0C (BitVec.ofNat 64 r.toNat) 0 else s.wait .scoreboard)) ∧
        (all.any s.fixedEmpty = false → all.any s.variableEmpty = true → exec (p.1 d a b sc) s = .next (s.wait .scoreboard))))

/-! ## Ports and operands -/

/-- Reading a port pops it: an in-bound stream gives its element and steps addr and count, or ends; forward-in empties; queue-in
loses its oldest dword (R79, R80, R82, R84). Writing a port sends: forward-out deposits in the next slot after 2 cycles, or
nowhere if its task left in this cycle, queue-out sends to the bound neighbour's queue after 3, an out-bound stream stores its
element and steps; a destination that is an out-bound port lets its instruction issue once its element's address has passed
(R79, R80, R82, R84, R85). SBIND binds a stream port with its address, stride, count, size and extension and starts the first
fetch of an in-bound one; SFREE unbinds it; QBIND sets the queue directions; each waits for or refuses what R433 and R438 list
(R111, R432, R433, R435, R436, R438). Choices of the model that it rests on: logs 2, 6, 24, 103. -/
def Obligations.Ports : Prop :=
  (
    (∀ (s : State) (n : Reg), s.inSystem = false →
      let i := n.toNat - 48
      let x := s.cx.stream[i % 4]
      (streamPort n = true → sbd s.cx i = 1 → strCount x ≠ 0 → ∀ e, State.aheadOf s.cx i = some e →
        let t := (s.setCx { s.cx with
          w := s.cx.w.set n.toNat e.val, ahead := s.cx.ahead.erase e, stream := s.cx.stream.set (i % 4) (strNext x) }).ensureFetch i
        s.rd n = e.val ∧ s.popPort n = match e.loc with
          | some l => t.ageElements l (strSize x) (some i)
          | none => t) ∧
      (streamPort n = true → sbd s.cx i = 1 → strCount x = 0 →
        s.rd n = 0 ∧ s.popPort n = s.setCx { s.cx with w := s.cx.w.set n.toNat 0, ctxf := setBits s.cx.ctxf (2 * i) 2 3 }) ∧
      (n = 52 → s.rd n = s.cx.w[52] ∧ (s.popPort n).cx = { s.cx with ctxf := setBits s.cx.ctxf 16 1 0, ahead := [] } ∧
        (s.popPort n).tiles = s.tiles ∧ (∀ k, k ≠ s.cur → (s.popPort n).ctxs.get? k = s.ctxs.get? k)) ∧
      (n = 53 → ∀ d rest, (s.tile s.here).inq[qinDir s.cx % 4] = d :: rest → qinDir s.cx < 4 →
        s.rd n = d.1 ∧ (s.popPort n).tile s.here = { s.tile s.here with inq := (s.tile s.here).inq.set (qinDir s.cx % 4) rest } ∧
          (s.popPort n).cx = { s.cx with w := s.cx.w.set 53 d.1, ahead := [] })) ∧
    (∀ x : BitVec 128, 0 < strCount x → strAddr (strNext x) = strAddr x + strStride x ∧ strCount (strNext x) = strCount x - 1 ∧
      strStride (strNext x) = strStride x ∧ strSize (strNext x) = strSize x ∧ strSx (strNext x) = strSx x)) ∧
  (
    ∀ (s : State) (d : Reg) (v : Word) (tag : BitVec 3) (lat : State.Latency), s.inSystem = false →
      let i := d.toNat - 48
      let x := s.cx.stream[i % 4]
      (d = 52 → s.justLeft = true → s.putW d v tag lat = s) ∧
      (d = 52 → s.justLeft = false → let t := s.putW d v tag lat
        t.ctxs = s.ctxs ∧
        t.tile s.here = { s.tile s.here with coming := (s.slot + 1) % 16 :: (s.tile s.here).coming } ∧
        t.agenda = insertDue (s.cycle + s.span s.here 2) (.fwdDepositLand s.here ((s.slot + 1) % 16) v) s.agenda) ∧
      (d = 53 → s.putW d v tag lat = s) ∧
      (d = 54 → ∀ nb, s.pushTarget = some nb →
        let t := s.putW d v tag lat
        t.cx = { s.cx with w := s.cx.w.set 54 v } ∧
        (t.tileLaunch s.here s.cx.task.lq).qsent = (s.tileLaunch s.here s.cx.task.lq).qsent + 1 ∧
        t.agenda = insertDue (s.cycle + s.span s.here 3) (.queueDwordLand nb (opposite (qoutDir s.cx)) v s.cx.task.lq) s.agenda) ∧
      (streamPort d = true → sbd s.cx i = 2 → ∀ s1 loc mt s2, s.Passes (strAddr x) .store s1 loc mt →
        s1.Stores (strAddr x) loc mt (leBytes (strSize x) v.toNat) false (some i) s2 →
        s.putW d v tag lat = s2.setCx { s2.cx with w := s2.cx.w.set d.toNat v, stream := s2.cx.stream.set (i % 4) (strNext x) }) ∧
      (streamPort d = true → sbd s.cx i = 2 → strCount x ≠ 0 → ∀ reads s1 loc mt,
        s.issues reads [] = true → s.ordered = false → s.fixedEmpty (.w d) = false → s.variableEmpty (.w d) = false →
        (s.stores.filter fun p => p.port == some i && p.uid == s.cx.task.uid).length < 8 →
        s.Passes (strAddr x) .store s1 loc mt → s1.ownOverlap loc (strSize x) = false → (mt = 3 → s1.ownUncached = false) →
        ∀ k, s.gate reads [.w d] k = k s1)) ∧
  (
    (∀ (s : State) (port : BitVec 2) (a b : Reg) (sc : Stall), s.issues [.w a, .w b] [] = true →
      let p := port.toNat
      let addr := s.rd a
      let spec := s.rd b
      let size := 2 ^ bits spec 24 3
      let count := bits spec 0 24
      let out := spec.getLsbD 28
      let legal := s.ordered = false ∧ s.inSystem = false ∧ bits spec 29 3 = 0 ∧ bits spec 24 3 < 4 ∧
        ¬(spec.getLsbD 27 = true ∧ out = true)
      (¬legal → exec (.sbind port a b sc) s = .next s.trapIllegal) ∧
      (legal → addr.toNat % size ≠ 0 ∨ bits spec 32 32 % size ≠ 0 →
        exec (.sbind port a b sc) s = .next (s.trap 0x02 addr (BitVec.ofNat 64 size))) ∧
      (legal → addr.toNat % size = 0 → bits spec 32 32 % size = 0 →
        (¬s.portDrained p → exec (.sbind port a b sc) s = .next (s.wait .store)) ∧
        (s.portDrained p → ∃ x : BitVec 128, strAddr x = addr ∧ strStride x = lowWord (signedField (bits spec 32 32) 32) ∧
          strCount x = count ∧ strSize x = size ∧ strSx x = spec.getLsbD 27 ∧
          let bound := ((s.useTagged [a, b]).popPorts [a, b]).rebound p fun c =>
            { c with stream := c.stream.set (p % 4) x, ctxf := setBits c.ctxf (2 * p) 2 (if out then 2 else 1) }
          exec (.sbind port a b sc) s = .next ((if out = true ∨ count = 0 then bound else bound.ensureFetch p).retire sc)))) ∧
    (∀ (s : State) (port : BitVec 2) (sc : Stall), s.issues [] [] = true →
      let p := port.toNat
      (s.ordered = true ∨ s.inSystem = true → exec (.sfree port sc) s = .next s.trapIllegal) ∧
      (s.ordered = false → s.inSystem = false →
        (¬s.portDrained p → exec (.sfree port sc) s = .next (s.wait .store)) ∧
        (s.portDrained p → exec (.sfree port sc) s =
          .next ((s.rebound p fun c => { c with ctxf := setBits c.ctxf (2 * p) 2 0 }).retire sc)))) ∧
    (∀ (s : State) (a : Reg) (sc : Stall), s.issues [.w a] [] = true →
      let x := s.rd a
      let s1 := (s.useTagged [a]).popPorts [a]
      (s.ordered = true ∨ s.inSystem = true ∨ bits x 7 57 ≠ 0 ∨ x.getLsbD 3 = true → exec (.qbind a sc) s = .next s.trapIllegal) ∧
      (s.ordered = false → s.inSystem = false → bits x 7 57 = 0 → x.getLsbD 3 = false →
        (x.getLsbD 2 = true ∧ s.neighbour s.here (bits x 0 2) = none ∨
            x.getLsbD 6 = true ∧ s.neighbour s.here (bits x 4 2) = none →
          exec (.qbind a sc) s = .next (s.trap 0x03 x 0)) ∧
        ((x.getLsbD 2 = true → (s.neighbour s.here (bits x 0 2)).isSome = true) →
          (x.getLsbD 6 = true → (s.neighbour s.here (bits x 4 2)).isSome = true) →
          ∃ f : Word, (∀ i < 64, f.getLsbD i =
              if i = 15 then x.getLsbD 2 else if i = 13 ∨ i = 14 then x.getLsbD 2 && x.getLsbD (i - 13)
              else if i = 12 then x.getLsbD 6 else if i = 10 ∨ i = 11 then x.getLsbD 6 && x.getLsbD (i - 6)
              else s1.cx.ctxf.getLsbD i) ∧
            exec (.qbind a sc) s = .next ((s1.setCx { s1.cx with ctxf := f }).retire sc)))))

/-! ## Checks of data accesses -/

/-- Alignment comes before every other check, with the unit as the second value (R98, R275). -/
def Obligations.AlignmentFirst : Prop :=
  (∀ p ∈ loadOps, ∀ (s : State) (z : MSize) (d a : Reg) (i : BitVec 6) (c : Scope) (sc : Stall),
    let n := MSize.bytes z
    let va := s.rd a + lowWord (n * signedField i.toNat 6)
    s.issues [.w a] ((sizeRegs n d).map .w) = true → va.toNat % n ≠ 0 →
    exec (p.1 z d a i c sc) s = .next (s.trap 0x02 va (BitVec.ofNat 64 n))) ∧
  (∀ (s : State) (z : MSize) (d a : Reg) (i : BitVec 6) (sc : Stall),
    let n := MSize.bytes z
    let va := s.rd a + lowWord (n * signedField i.toNat 6)
    s.issues ((a :: sizeRegs n d).map .w) [] = true → va.toNat % n ≠ 0 →
    exec (.st z d a i sc) s = .next (s.trap 0x02 va (BitVec.ofNat 64 n))) ∧
  (∀ p ∈ atomicOps, ∀ (s : State) (z : ASize) (d a b : Reg) (c : Scope) (sc : Stall),
    s.issues [.w a, .w b] [.w d] = true → (s.rd a).toNat % ASize.bytes z ≠ 0 →
    exec (p.1 z d a b c sc) s = .next (s.trap 0x02 (s.rd a) (BitVec.ofNat 64 (ASize.bytes z)))) ∧
  (∀ (s : State) (v : BitVec 4) (a : Reg) (sc : Stall), s.vissues [.w a] [.v v] = true → (s.rd a).toNat % 64 ≠ 0 →
    exec (.vld v a sc) s = .next (s.trap 0x02 (s.rd a) 64)) ∧
  (∀ (s : State) (d a b : Reg) (sc : Stall), (s.rd d).toNat % 8 ≠ 0 →
    (s.issues [.w d] [] = true → exec (.waclr d sc) s = .next (s.trap 0x02 (s.rd d) 8)) ∧
    (s.issues [.w a, .w b, .w d] [] = true → exec (.wadd d a b sc) s = .next (s.trap 0x02 (s.rd d) 8)))

/-- The checks of a scratchpad access: the window's size and xb, another task's workspace, the page's entry, its state, the
range locks, an uncorrectable frame; an access whose entry neither the translation buffer nor the L2 holds waits for its line, a
locked page makes it wait, a page that is not in a frame is faulted in, and one that can be had no more raises its machine check
(R77, R87, R160, R162, R165, R166, R231). Choices of the model that it rests on: logs 16, 93. -/
def Obligations.ScratchAccess : Prop :=
  ∀ (s : State) (va : Word) (m : Mode), va.toNat / 2 ^ 24 = 2 ^ 40 - 1 →
    let off := va.toNat % 2 ^ 24
    let b := s.cx.task.blk
    let p := off / 2048
    let own := State.exitsOf
    (off ≥ 2048 * s.myLaunch.sppages ∨ off < s.myBlock.xb → ∀ x k, s.checkAccess x va m k = x.fail s (.plain 0x03 va 0)) ∧
    (off < 2048 * s.myLaunch.sppages → s.myBlock.xb ≤ off →
      (s.privileged = false → (s.ownerOf b p).isSome = true → ∀ x k, s.checkAccess x va m k = x.fail s (.plain 0x03 va 0)) ∧
      (s.privileged = true ∨ s.ownerOf b p = none → s.entryAtHand b p = false →
        ∃ t : State, t.ctxs = s.ctxs ∧ t.mem = s.mem ∧ ∀ fail busy k, s.checkAccess (own fail busy) va m k = busy t .line) ∧
      (s.ownerOf b p = none → s.entryAtHand b p = true →
        ((s.page b p).lock = true → ∀ fail busy k, s.checkAccess (own fail busy) va m k = busy s .page) ∧
        ((s.page b p).lock = false →
          ((s.page b p).st = .unmapped → ∀ fail busy k, s.checkAccess (own fail busy) va m k
            = busy (((s.setPage b p { s.page b p with lock := true }).wakeSystem (s.blockTile b)).later (.pageInDone b p)) .page) ∧
          ((s.page b p).st = .parked → ∀ f, s.pageFail b p = some f → ∀ fail busy k, s.checkAccess (own fail busy) va m k
            = fail s (.plain f.cause f.word f.val2)) ∧
          ((s.page b p).st = .framed →
            (∀ c, s.lockHit s.here s.asid va (.scr b off) m.writes = some c →
              ∀ fail busy k, s.checkAccess (own fail busy) va m k = fail s (.plain 0x07 c.ticket va)) ∧
            (s.lockHit s.here s.asid va (.scr b off) m.writes = none →
              (s.frameIsBad b p = true →
                ∀ fail busy k, s.checkAccess (own fail busy) va m k = fail s (.plain 0x0F 2 (BitVec.ofNat 64 (s.page b p).tile))) ∧
              (s.frameIsBad b p = false →
                s.Passes va m (((s.stlbFill b p).touchPage b p).wakeTile (s.page b p).tile) (.scr b off) 0))))))

/-- The checks of a load or store of memory: canonical form, publication regions, translation, read and write permission, the
Causeway window, range locks, poison, in this order (R149, R158, R231, R234, R275, R300). -/
def Obligations.MemoryAccess : Prop :=
  ∀ (s : State) (va : Word) (m : Mode), m = .load ∨ m = .store →
    ((0 < va.toNat / 2 ^ 57 ∧ va.toNat / 2 ^ 57 < 2 ^ 7 - 1 ∨
        va.toNat / 2 ^ 57 = 0 ∧ va.getLsbD 56 = true ∨ va.toNat / 2 ^ 57 = 2 ^ 7 - 1 ∧ va.getLsbD 56 = false) →
      ∀ x k, s.checkAccess x va m k = x.fail s (.plain 0x06 va 4)) ∧
    (va.toNat / 2 ^ 24 ≠ 2 ^ 40 - 1 →
      (va.toNat / 2 ^ 57 = 0 ∧ va.getLsbD 56 = false ∨ va.toNat / 2 ^ 57 = 2 ^ 7 - 1 ∧ va.getLsbD 56 = true) →
      let inside := s.ordered = true ∧ (s.pubRegion s.cx.task.lq va).isSome = true
      (inside → ∀ x k, s.checkAccess x va m k = x.fail s (.plain 0x03 va 0)) ∧
      (¬inside → ∀ s1, s.translate (State.walkLook (dieOf s.here)) s.here s.asid va = (s1, none) →
        ∀ x k, s.checkAccess x va m k = x.busy s1 .line) ∧
      (¬inside → ∀ s1 level, s.translate (State.walkLook (dieOf s.here)) s.here s.asid va = (s1, some (.fault level)) →
        ∀ x k, s.checkAccess x va m k = x.fail s1 (.plain 0x06 va (BitVec.ofNat 64 level))) ∧
      (¬inside → ∀ s1 pa, s.translate (State.walkLook (dieOf s.here)) s.here s.asid va = (s1, some (.poison pa)) →
        ∀ x k, s.checkAccess x va m k = x.fail s1 (.plain 0x0F 1 (BitVec.ofNat 64 pa))) ∧
      (¬inside → ∀ s1 pa mt rd w, s.translate (State.walkLook (dieOf s.here)) s.here s.asid va = (s1, some (.ok pa mt rd w)) →
        ((m = .load ∧ rd = false ∨ m = .store ∧ w = false) ∨ isCauseway pa = true ∧ s1.window pa = none →
          ∀ x k, s.checkAccess x va m k = x.fail s1 (.plain 0x03 va 0)) ∧
        ((m = .load → rd = true) → (m = .store → w = true) → (isCauseway pa = true → (s1.window pa).isSome = true) →
          (∀ c, s1.lockHit s1.here s1.asid va (.mem pa) m.writes = some c →
            ∀ x k, s.checkAccess x va m k = x.fail s1 (.plain 0x07 c.ticket va)) ∧
          (s1.lockHit s1.here s1.asid va (.mem pa) m.writes = none →
            (s1.poisoned pa = true → s1.ownClears pa = false →
              ∀ x k, s.checkAccess x va m k = x.fail s1 (.plain 0x0F 1 (BitVec.ofNat 64 pa))) ∧
            (s1.poisoned pa = false → s.Passes va m s1 (.mem pa) mt)))))

/-- The four-level walk through the die's L2: index fields of the virtual address, pointers down to a leaf at level 2, 1 or 0,
and the physical address and memory type a leaf gives; an invalid entry is a fault with its level; a line that the L2 does not
hold is asked for and holds the walk back (R157, R158, R237, R295). -/
def Obligations.PageWalk : Prop :=
  (∀ (s : State) (asid va : Nat) (root e3 e2 e1 e0 : Word), s.asidrtEn = true →
    let look := State.walkLook (dieOf s.here)
    let at_ := s.asidrtBase * 2 ^ 19 + 8 * asid
    (s.full = true ∨ isDevice at_ = false → s.lineAtHand (64 * (at_ / 64)) = false →
      ∃ t : State, s.walkTable look asid va = (t, none) ∧ t.l2Holds at_ = false ∧ t.mem = s.mem ∧ t.ctxs = s.ctxs ∧
        (s.l2St (dieOf s.here) (at_ / 64) = .i → t.l2St (dieOf s.here) (at_ / 64) = .is_)) ∧
    (
    s.TableWord (s.asidrtBase * 2 ^ 19 + 8 * asid) root →
    root.getLsbD 0 = true → bits root 1 16 = 0 → bits root 52 12 = 0 →
    s.TableWord (bits root 17 35 * 2 ^ 17 + 8 * (va / 2 ^ 43 % 2 ^ 14)) e3 →
    (entryValid e3 = false → s.walkTable look asid va = (s, some (.fault 3))) ∧
    (entryTable e3 16 = true → s.TableWord (ptePa e3 + 8 * (va / 2 ^ 30 % 2 ^ 13)) e2 →
      (entryValid e2 = false → s.walkTable look asid va = (s, some (.fault 2))) ∧
      (entryLeaf e2 30 = true → s.walkTable look asid va = (s, some (.leaf e2 30))) ∧
      (entryTable e2 12 = true → s.TableWord (ptePa e2 + 8 * (va / 2 ^ 21 % 2 ^ 9)) e1 →
        (entryValid e1 = false → s.walkTable look asid va = (s, some (.fault 1))) ∧
        (entryLeaf e1 21 = true → s.walkTable look asid va = (s, some (.leaf e1 21))) ∧
        (entryTable e1 8 = true → s.TableWord (ptePa e1 + 8 * (va / 2 ^ 16 % 2 ^ 5)) e0 →
          (entryValid e0 = false ∨ e0.getLsbD 1 = false → s.walkTable look asid va = (s, some (.fault 0))) ∧
          (entryLeaf e0 16 = true → s.walkTable look asid va = (s, some (.leaf e0 16)))))))) ∧
  (∀ (s : State) (va size : Nat) (e : Word),
    let pa := bits e 8 44 * 256 / 2 ^ size * 2 ^ size + va % 2 ^ size
    (bits e 5 2 = 0 ∧ isDevice pa = true ∧ s.full = true ∨ bits e 5 2 = 1 ∧ isHostMem pa = true ∧ s.cxlOn = true ∧ s.full = true ∨
      bits e 5 2 = 2 ∧ (isHostMem pa = true ∨ isCauseway pa = true ∧ s.full = true) ∨ bits e 5 2 = 3 ∧ isRegister pa = true) →
    s.ofLeaf va e size = .ok pa (bits e 5 2) (e.getLsbD 2) (e.getLsbD 3))

/-! ## Loads and stores -/

/-- When a load at a checked place is performed, and its bytes: scratchpad from the page's frame, host memory from the coherent
image behind the context's own stores to host memory, registers from the windows, device memory once L1 serves it or the die's
L2 holds the line, from the die's private copy of a publication line over the image; an ordered task's read enters its read
signature, and an element that a port holds of the bytes read is too old to pop (R149, R180, R210, R213, R234, R237, R294,
R325). A pair or a line is read dword by dword, with other stores between them or not (R322, R484). LD, LD.u, LD.ACQ and LD.d
give the value at X(a) plus the offset, sign- or zero-extended, a pair at .q; the result is untagged and of variable latency,
and the read is recorded; after LD.ACQ the stream ports fetch again (R25, R98, R187, R191, R214, R410, R413). LD.S in an
eligible task makes its value the next symbol and tags d; one beyond the fourth clears eligibility (R190, R411). Choices of the
model that it rests on: logs 2, 4, 5. -/
def Obligations.Loads : Prop :=
  (
    ∀ (s : State) (va : Word) (n : Nat) (mt : Nat),
      let claimed := fun (s1 : State) (loc : Loc) => if s.ordered then s1.enterRead s.cx.task.uid loc else s1
      let o := s.cx.got.length
      (s.cx.got = [] → n ≤ 8 →
        (∀ b off s1 reps, s.ownOverlap (.scr b off) n = false → s.resolve s.party false (.scr b off) n = some (s1, reps) →
          let s2 := claimed s1 (.scr b off)
          s.Loads va n (.scr b off) mt (s2.ageElements (.scr b off) n none) (s2.frameRead b off n)) ∧
        (∀ pa s1 reps, s.ownOverlap (.mem pa) n = false → s.resolve s.party false (.mem pa) n = some (s1, reps) →
          let s2 := claimed s1 (.mem pa)
          let aged := s2.ageElements (.mem pa) n none
          (mt = 2 → isHostMem pa = false ∨ s.ownHost = false → s.Loads va n (.mem pa) mt aged (s2.bytesAt pa n)) ∧
          (mt = 3 → s.ownUncached = false → s.Loads va n (.mem pa) mt aged (s2.windowBytes (pa - regBase) n)) ∧
          (mt < 2 → (s.ordered = false → s.heldPut pa = false) → s.l1Hit va pa = true ∨ s.l2Holds pa = true →
            ∃ s3, s.Loads va n (.mem pa) mt s3 (s3.dieBytes (dieOf s3.here) pa n) ∧ s3.mem = s1.mem ∧ s3.priv = s1.priv ∧
              s3.frames = s1.frames ∧ s3.ctxs = (s1.ageElements (.mem pa) n none).ctxs ∧
              (s.ordered = true → ∀ y, s1.specs.get? s.cx.task.uid = some y →
                s3.specs = s1.specs.set s.cx.task.uid { y with rsig := insertR y.rsig (sigKey (.mem pa)) }))) ∧
        (∀ pa, s.ownOverlap (.mem pa) n = true → ∀ x k, s.loadAt x va n (.mem pa) mt k = x.busy s .store)) ∧
      (∀ b off, s.ownOverlap (.scr b (off + o)) (n - o) = false → s.ordered = false → s.specs = [] →
        let aged := fun k => s.ageElements (.scr b (off + o)) k none
        s.Loads va n (.scr b off) mt (if s.cx.got = [] then aged (n - o) else (aged (n - o)).setCx { (aged (n - o)).cx with got := [] })
            (s.cx.got ++ s.frameRead b (off + o) (n - o)) ∨
          8 < n - o ∧ ∀ fail busy k, s.loadAt (State.exitsOf fail busy) va n (.scr b off) mt k = busy
            (({ aged 8 with fresh := s.fresh + 1 }).setCx { (aged 8).cx with got := s.cx.got ++ s.frameRead b (off + o) 8 }) .line) ∧
      (∀ pa, mt < 2 → s.ownOverlap (.mem (pa + o)) (n - o) = false → s.ordered = false → s.specs = [] → s.heldPut (pa + o) = false →
        s.l1Hit (va + BitVec.ofNat 64 o) (pa + o) = true ∨ s.l2Holds (pa + o) = true →
        let aged := fun k => (s.ageElements (.mem (pa + o)) k none).cx
        ∃ s3 : State, s3.mem = s.mem ∧ s3.frames = s.frames ∧
          (s.Loads va n (.mem pa) mt s3 (s.cx.got ++ s3.dieBytes (dieOf s3.here) (pa + o) (n - o)) ∧
              s3.cx = { aged (n - o) with got := [] } ∨
            8 < n - o ∧ s3.cx = { aged 8 with got := s.cx.got ++ s3.dieBytes (dieOf s3.here) (pa + o) 8 } ∧
              ∀ fail busy k, s.loadAt (State.exitsOf fail busy) va n (.mem pa) mt k = busy s3 .line))) ∧
  (
    (∀ p ∈ loadOps, ∀ (s : State) (z : MSize) (d a : Reg) (i : BitVec 6) (c : Scope) (sc : Stall),
      let n := MSize.bytes z
      let va := s.rd a + lowWord (n * signedField i.toNat 6)
      s.issues [.w a] ((sizeRegs n d).map .w) = true → va.toNat % n = 0 →
      ∀ s1 loc mt s2 bs, s.Passes va .load s1 loc mt → State.outside? loc = false → s1.Loads va n loc mt s2 bs →
        let least := s1.loadLatency va loc
        let s3 := (s2.readRecorded a loc n).popPorts [a]
        let s4 := if n = 16 then
            (s3.putW d (loadedWord 8 false (bs.take 8)) 0 (.variable least)).putW (d + 1) (loadedWord 8 false (bs.drop 8)) 0 (.variable least)
          else s3.putW d (loadedWord n p.2.1 bs) 0 (.variable least)
        exec (p.1 z d a i c sc) s = .next ((if p.2.2 then s4.refetch else s4).retire sc)) ∧
    (∀ (s : State) (d a : Reg) (i : BitVec 12) (sc : Stall),
      let va := s.rd a + lowWord (signedField i.toNat 12)
      s.issues [.w a] [.w d] = true → va.toNat % 8 = 0 →
      ∀ s1 loc mt s2 bs, s.Passes va .load s1 loc mt → State.outside? loc = false → s1.Loads va 8 loc mt s2 bs →
        exec (.ldDLong d a i sc) s = .next
          ((((s2.readRecorded a loc 8).popPorts [a]).putW d (loadedWord 8 false bs) 0 (.variable (s1.loadLatency va loc))).retire sc)) ∧
    (∀ p ∈ loadOps, ∀ (s : State) (z : MSize) (d a : Reg) (i : BitVec 6) (c : Scope) (sc : Stall),
      let n := MSize.bytes z
      let va := s.rd a + lowWord (n * signedField i.toNat 6)
      s.issues [.w a] ((sizeRegs n d).map .w) = true → va.toNat % n = 0 →
      ∀ s1 pa mt, s.Passes va .load s1 (.mem pa) mt → isCauseway pa = true → s1.ownPending = false →
        ∀ s2, s1.readClaim (.mem pa) n = some s2 →
        ∃ t, exec (p.1 z d a i c sc) s = .next t ∧ t.cx.status = .waiting .remote ∧
          ∀ node a, s2.window pa = some (node, a) → t.outbox = s2.outbox ++ [.request (some node) s2.nextReq a []])) ∧
  (
    ∀ (s : State) (z : MSize) (d a : Reg) (i : BitVec 6) (sc : Stall), z = .w ∨ z = .d →
      let n := MSize.bytes z
      let va := s.rd a + lowWord (n * signedField i.toNat 6)
      s.issues [.w a] [.w d] = true → va.toNat % n = 0 →
      ∀ s1 loc mt s2 bs, s.Passes va .load s1 loc mt → State.outside? loc = false → s1.Loads va n loc mt s2 bs →
        let s3 := (s2.useTagged [a]).overlapsSym loc n
        let v := loadedWord n false bs
        let finish := fun (s3 : State) (tag : BitVec 3) =>
          .next (((s3.popPorts [a]).putW d v tag (.variable (s1.loadLatency va loc))).retire sc)
        (s3.mySpec = none → exec (.ldS z d a i sc) s = finish s3 0) ∧
        (∀ y, s3.mySpec = some y →
          (y.elig = false → exec (.ldS z d a i sc) s = finish s3 0) ∧
          (y.elig = true →
            (4 ≤ y.syms.length → exec (.ldS z d a i sc) s = finish s3.dropElig 0) ∧
            (y.syms.length < 4 → d = 0 ∨ memberW y.wsig (sigKey loc) = true →
              exec (.ldS z d a i sc) s = finish (s3.plainRead loc) 0) ∧
            (y.syms.length < 4 → d ≠ 0 → memberW y.wsig (sigKey loc) = false →
              exec (.ldS z d a i sc) s = finish (s3.onSpec y.task.uid fun y =>
                { y with syms := y.syms ++ [{ va := va, loc := loc, size := n, val := v }] }) (BitVec.ofNat 3 (4 + y.syms.length))))))

/-- When a store lets its instruction go on: a free one joins the outstanding stores and is acknowledged later; an ordered one
resolves its conflicts, logs the old value, writes, and enters the write signature before the instruction goes on (R186, R188,
R210, R213, R461). ST, ST.REL, ST.d and ST.CLR send the low bytes of X(d), or of a pair, and go on once the store is issued;
ST.CLR sends the whole line with zeros around them; ST.REL beyond .ctx waits for the context's earlier stores (R98, R193, R212,
R215, R460, R462). Choices of the model that it rests on: logs 4, 5, 76. -/
def Obligations.Stores : Prop :=
  (
    ∀ (s : State) (va : Word) (loc : Loc) (mt : Nat) (bs : List Byte) (clear : Bool) (port : Option Nat),
      s.ownOverlap loc bs.length = false →
      (s.ordered = false → (∀ b off, loc = .scr b off → s.ownerOf b (off / 2048) = none) →
        (∀ pa, loc = .mem pa → mt = 3 → s.ownUncached = false) →
        let s0 := s.ageElements loc bs.length none
        let target := match loc with
          | .mem pa => if isCauseway pa then s.window pa else none
          | .scr _ _ => none
        let store := fun (i : Nat) (from_ len : Nat) (lost : Bool) => ({
          id := s.nextStore + i, uid := s.cx.task.uid, tile := s.here, lq := s.cx.task.lq, ord := false
          into := (match loc with | .scr _ _ => .scratch | .mem _ => if mt = 2 ∨ mt = 3 then .uncached else .memory)
          blk := s.cx.task.blk, va := va + BitVec.ofNat 64 from_
          bytes := (List.range len).map fun j => (State.placeOf loc + from_ + j, bs.getD (from_ + j) 0)
          clear := clear, epc := s.cx.pc.toNat, port := port, lost := lost, ready := false, target := target } : PendStore)
        (bs.length ≠ 16 → ∃ t lost, s.Stores va loc mt bs clear port t ∧ (target = none → lost = false) ∧
          t.stores = s.stores ++ [store 0 0 bs.length lost] ∧ t.nextStore = s.nextStore + 1 ∧ t.ctxs = s0.ctxs ∧
          t.mem = s.mem ∧ t.frames = s.frames ∧
          ∃ due, t.agenda = insertDue due (.storeAcknowledge s.nextStore) s.agenda ∧ s.cycle < due ∧
            (lost = true → due = s.cycle + 10 * s.period) ∧ (lost = false → target ≠ none → due < s.cycle + 10 * s.period)) ∧
        (bs.length = 16 → State.outside? loc = false → State.outside? (locAdd loc 8) = false → ∃ t, s.Stores va loc mt bs clear port t ∧
          t.stores = s.stores ++ [store 0 0 8 false, store 1 8 8 false] ∧ t.nextStore = s.nextStore + 2 ∧ t.ctxs = s0.ctxs ∧
          t.mem = s.mem ∧ t.frames = s.frames)) ∧
      (s.ordered = true → ∀ b off, loc = .scr b off →
        ∀ s1 reps s2, s.resolve s.party true loc bs.length = some (s1, reps) →
        s1.logWrite s.cx.task.uid va loc bs.length = some s2 →
        s.Stores va loc mt bs clear port (((s2.frameStore b off bs).enterWrite s.cx.task.uid loc).requestRepairs reps)) ∧
      (s.ordered = true → ∀ pa, loc = .mem pa → 1 < mt ∧ mt < 4 ∨ s.l2St (dieOf s.here) (pa / 64) = .m →
        ∀ s1 reps s2, s.resolve s.party true loc bs.length = some (s1, reps) →
        s1.logWrite s.cx.task.uid va loc bs.length = some s2 →
        s.Stores va loc mt bs clear port (((s2.physWrite (some s2.here) pa bs).enterWrite s.cx.task.uid loc).requestRepairs reps))) ∧
  (
    (∀ (s : State) (z : MSize) (d a : Reg) (i : BitVec 6) (c : Scope) (sc : Stall),
      let n := MSize.bytes z
      let va := s.rd a + lowWord (n * signedField i.toNat 6)
      let bs := if n = 16 then leBytes 8 (s.rd d).toNat ++ leBytes 8 (s.rd (d + 1)).toNat else leBytes n (s.rd d).toNat
      let reads := a :: sizeRegs n d
      s.issues (reads.map .w) [] = true → va.toNat % n = 0 →
      (∀ s1 loc mt s2, s.Passes va .store s1 loc mt → State.outside? loc = false →
        s1.Stores va loc mt bs false none s2 →
        let done := .next (((s2.recordStore n d a va loc).popPorts reads).retire sc)
        exec (.st z d a i sc) s = done ∧
        (c = .ctx ∨ s.ownPending = false → exec (.stRel z d a i c sc) s = done) ∧
        (c ≠ .ctx → s.ownPending = true → exec (.stRel z d a i c sc) s = .next (s.wait .store))) ∧
      (s.ordered = false → ∀ s1 loc mt s2, s.Passes va .clear s1 loc mt →
        let o := va.toNat % 64
        let base := match loc with
          | .mem pa => .mem (pa - o)
          | .scr blk off => .scr blk (off - o)
        s1.Stores (va - BitVec.ofNat 64 o) base mt
          (List.replicate o 0 ++ bs ++ List.replicate (64 - o - n) 0) true none s2 →
        exec (.stClr z d a i sc) s = .next ((s2.popPorts reads).retire sc)) ∧
      (s.ordered = true → exec (.stClr z d a i sc) s = .next s.trapIllegal)) ∧
    (∀ (s : State) (d a : Reg) (i : BitVec 12) (sc : Stall),
      let va := s.rd a + lowWord (signedField i.toNat 12)
      s.issues [.w a, .w d] [] = true → va.toNat % 8 = 0 →
      ∀ s1 loc mt s2, s.Passes va .store s1 loc mt → State.outside? loc = false →
        s1.Stores va loc mt (leBytes 8 (s.rd d).toNat) false none s2 →
        exec (.stDLong d a i sc) s = .next (((s2.recordStore 8 d a va loc).popPorts [a, d]).retire sc)))

/-- An acknowledged store that no engine command's range holds up is performed: its bytes stand at their addresses, every other
byte of memory and of the frames is as before, and it is no longer outstanding (R210, R231, R234). Choices of the model that it
rests on: logs 4, 5, 77. -/
def Obligations.StoreAcknowledged : Prop :=
  ∀ (s : State) (p : PendStore) (a : Nat) (x : Byte) (rest : List (Nat × Byte)),
    s.stores.find? (fun q => q.id == p.id) = some p → p.bytes = (a, x) :: rest → (p.bytes.map (·.1)).Nodup → s.specs = [] →
    Memory.wf s.mem = true → Memory.wf s.frames = true → p.target = none →
    (∀ e ∈ p.bytes, isCauseway e.1 = false ∧ isRegister e.1 = false) →
    let asid := (s.launch p.lq).asid
    let inMemory := fun (t : State) => (∀ e ∈ p.bytes, Cells.read t.mem e.1 = e.2) ∧
      (∀ y, y ∉ p.bytes.map (·.1) → Cells.read t.mem y = Cells.read s.mem y) ∧ t.frames = s.frames ∧ t.ctxs = s.ctxs ∧
      t.stores = s.stores.filter fun q => q.id != p.id
    (p.into = .memory → s.lockHit p.tile asid p.va (.mem a) true = none → s.pubRegion p.lq p.va = none →
      s.l2St (dieOf p.tile) (a / 64) = .m → s.poisoned a = false → ∃ t, exec (.storeAcknowledge p.id) s = .next t ∧ inMemory t) ∧
    (p.into = .memory → s.lockHit p.tile asid p.va (.mem a) true = none → ∀ r, s.pubRegion p.lq p.va = some r →
      ∃ t, exec (.storeAcknowledge p.id) s = .next t ∧ t.mem = s.mem ∧ t.frames = s.frames ∧ t.ctxs = s.ctxs ∧
        t.stores = s.stores.filter fun q => q.id != p.id) ∧
    (p.into = .uncached → s.lockHit p.tile asid p.va (.mem a) true = none → p.lost = false →
      ∃ t, exec (.storeAcknowledge p.id) s = .next t ∧ inMemory t) ∧
    (p.into = .scratch → s.lockHit p.tile asid p.va (.scr p.blk a) true = none → (s.page p.blk (a / 2048)).lock = false →
      (s.page p.blk (a / 2048)).st = .framed → s.frameIsBad p.blk (a / 2048) = false →
      (∀ e ∈ p.bytes, e.1 / 2048 = a / 2048) →
      ∃ t, exec (.storeAcknowledge p.id) s = .next t ∧ (∀ e ∈ p.bytes, t.frameRead p.blk e.1 1 = [e.2]) ∧
        (∀ y, (∀ e ∈ p.bytes, s.frameAddr p.blk e.1 ≠ some y) → Cells.read t.frames y = Cells.read s.frames y) ∧
        t.mem = s.mem ∧ t.ctxs = s.ctxs ∧ t.stores = s.stores.filter fun q => q.id != p.id)

/-- The atomics and CAS give d the old value and store the new one indivisibly; CAS stores only where the old value is the
expected one; the address's and operand's tags clear eligibility; an AtomicOp to host memory leaves the package (R191, R299,
R344, R347, R360). An atomic is one read and one write: with no outstanding store of the context and no ordered task to disturb,
it finds the bytes at its place and leaves the new ones there (R347). Choices of the model that it rests on: logs 2, 4, 5. -/
def Obligations.Atomics : Prop :=
  (
    (∀ p ∈ atomicOps, ∀ (s : State) (z : ASize) (d a b : Reg) (c : Scope) (sc : Stall),
      let n := ASize.bytes z
      s.issues [.w a, .w b] [.w d] = true → (s.rd a).toNat % n = 0 →
      let new := fun old : List Byte => some (leBytes n (p.2.2 (8 * n) (leNat old) ((s.rd b).toNat % 2 ^ (8 * n))))
      ∀ s1 loc mt, s.Passes (s.rd a) (.rmw p.2.1) s1 loc mt →
        (State.outside? loc = false → (∀ pa, loc = .mem pa → mt ≠ 2) → ∀ s2 old, s1.Updates (s.rd a) n loc new s2 old →
          exec (p.1 z d a b c sc) s = .next
            ((((((s2.useTagged [a, b]).overlapsSym loc n).popPorts [a, b]).putW d (loadedWord n false old) 0
              (.variable (s1.loadLatency (s.rd a) loc))).refetch).retire sc)) ∧
        (∀ pa, loc = .mem pa → isCauseway pa = false → mt = 2 → s1.ownPending = false →
          ∀ s2 reps s3, s1.resolve s1.party true loc n = some (s2, reps) →
          (if s2.ordered then s2.logWrite s2.cx.task.uid (s.rd a) loc n else some s2) = some s3 →
          ∃ t, exec (p.1 z d a b c sc) s = .next t ∧ t.cx.status = .waiting .atomicOp ∧
            t.outbox = s3.outbox ++ [.request none s3.nextReq pa []])) ∧
    (∀ (s : State) (d a b : Reg) (c : Scope) (sc : Stall),
      (s.issues [.w a, .w b, .w d] [.w d] = true → (s.rd a).toNat % 8 = 0 →
        ∀ s1 loc mt s2 old, s.Passes (s.rd a) (.rmw true) s1 loc mt → State.outside? loc = false → (∀ pa, loc = .mem pa → mt ≠ 2) →
          s1.Updates (s.rd a) 8 loc (fun old => if old = leBytes 8 (s.rd d).toNat then some (leBytes 8 (s.rd b).toNat) else none)
            s2 old →
          exec (.casD d a b c sc) s = .next
            ((((((s2.useTagged [a, b, d]).overlapsSym loc 8).popPorts [a, b, d]).putW d (loadedWord 8 false old) 0
              (.variable (s1.loadLatency (s.rd a) loc))).refetch).retire sc)) ∧
      (s.issues [.w a, .w b, .w (b + 1), .w d, .w (d + 1)] [.w d, .w (d + 1)] = true → (s.rd a).toNat % 16 = 0 →
        let pair := fun (r : Reg) => leBytes 8 (s.rd r).toNat ++ leBytes 8 (s.rd (r + 1)).toNat
        ∀ s1 loc mt s2 old, s.Passes (s.rd a) (.rmw true) s1 loc mt → State.outside? loc = false → (∀ pa, loc = .mem pa → mt ≠ 2) →
          s1.Updates (s.rd a) 16 loc (fun old => if old = pair d then some (pair b) else none) s2 old →
          let reads := [a, b, b + 1, d, d + 1]
          let least := State.Latency.variable (s1.loadLatency (s.rd a) loc)
          exec (.casQ d a b c sc) s = .next
            (((((((s2.useTagged reads).overlapsSym loc 16).popPorts reads).putW d (loadedWord 8 false (old.take 8)) 0 least).putW
              (d + 1) (loadedWord 8 false (old.drop 8)) 0 least).refetch).retire sc)))) ∧
  (
    ∀ (s : State) (va : Word) (n : Nat) (f : List Byte → Option (List Byte)), s.ownPending = false → s.specs = [] →
      s.ordered = false →
      (∀ b off, s.ownerOf b (off / 2048) = none →
        (∀ new, f (s.frameRead b off n) = some new →
          s.Updates va n (.scr b off) f ((s.frameWrite b off new).ageElements (.scr b off) n none) (s.frameRead b off n)) ∧
        (f (s.frameRead b off n) = none →
          s.Updates va n (.scr b off) f (s.ageElements (.scr b off) n none) (s.frameRead b off n))) ∧
      (∀ pa, s.l2St (dieOf s.here) (pa / 64) = .m →
        (∀ new, f (s.bytesAt pa n) = some new → ∃ t, s.Updates va n (.mem pa) f t (s.bytesAt pa n) ∧
          t.mem = Cells.writeN s.mem pa new ∧ t.frames = s.frames ∧ t.ctxs = (s.ageElements (.mem pa) n none).ctxs) ∧
        (f (s.bytesAt pa n) = none → ∃ t, s.Updates va n (.mem pa) f t (s.bytesAt pa n) ∧
          t.mem = s.mem ∧ t.frames = s.frames ∧ t.ctxs = (s.ageElements (.mem pa) n none).ctxs)))

/-- VLD gives the 64 bytes at X(ws); VST sends each dword of the line that the mask selects anything of, as a store by itself,
and stores nothing under an empty mask (R483, R484, R485). HSET loads a handle and HGET stores one, 64 bytes at an aligned
address (R402, R403). Choices of the model that it rests on: logs 4, 5. -/
def Obligations.VectorMemory : Prop :=
  (
    (∀ (s : State) (vd : BitVec 4) (ws : Reg) (sc : Stall), s.vissues [.w ws] [.v vd] = true → (s.rd ws).toNat % 64 = 0 →
      ∀ s1 loc mt s2 bs, s.Passes (s.rd ws) .load s1 loc mt → State.outside? loc = false →
        s1.Loads (s.rd ws) 64 loc mt s2 bs →
        exec (.vld vd ws sc) s = .next
          (((s2.readRecorded ws loc 64).popPorts [ws]).vectorDone (.v vd) (BitVec.ofNat 512 (leNat bs))
            (.variable (s1.loadLatency (s.rd ws) loc)) sc)) ∧
    (∀ p ∈ [((.vstD, 64) : (BitVec 4 → Reg → BitVec 3 → Stall → Instr) × Nat), (.vstW, 32), (.vstB, 8)],
      ∀ (s : State) (vd : BitVec 4) (ws : Reg) (m : BitVec 3) (sc : Stall),
      s.vissues [.w ws, .v vd, .m m] [] = true → (s.rd ws).toNat % 64 = 0 →
      ∀ s1 loc mt, s.Passes (s.rd ws) .store s1 loc mt →
        ((∀ i < 512 / p.2, (s.rdM m).getLsbD i = false) →
          exec (p.1 vd ws m sc) s = .next (((s1.useTagged [ws]).popPorts [ws]).vretire sc)) ∧
        ((∃ i < 512 / p.2, (s.rdM m).getLsbD i = true) → State.outside? loc = false → s1.ordered = false →
          s1.ownOverlap loc 64 = false → (∀ b off, loc = .scr b off → s1.ownerOf b (off / 2048) = none) →
          (mt = 3 → s1.ownUncached = false) →
          ∃ s2 : State, exec (p.1 vd ws m sc) s = .next (((s2.useTagged [ws]).popPorts [ws]).vretire sc) ∧
            s2.ctxs = (s1.ageElements loc 64 none).ctxs ∧ s2.mem = s1.mem ∧ s2.frames = s1.frames ∧
            ∃ new, s2.stores = s1.stores ++ new ∧ new.length ≤ 8 ∧
              (∀ q ∈ new, q.uid = s1.cx.task.uid ∧ q.va = s.rd ws ∧ q.clear = false ∧ q.bytes ≠ []) ∧
              ∀ o < 64, ∀ y, (State.placeOf loc + o, y) ∈ new.flatMap (fun q => q.bytes) ↔
                (s.rdM m).getLsbD (8 * o / p.2) = true ∧ y = BitVec.ofNat 8 (elem (s.rdV vd) 8 o)))) ∧
  (
    ∀ (s : State) (a : Reg) (n : BitVec 2) (sc : Stall), (s.rd a).toNat % 64 = 0 →
      (s.issues [.w a] [.h n] = true → ∀ s1 loc mt s2 bs, s.Passes (s.rd a) .load s1 loc mt → State.outside? loc = false →
        s1.Loads (s.rd a) 64 loc mt s2 bs →
        exec (.hset a n sc) s = .next
          ((((s2.readRecorded a loc 64).popPorts [a]).putV (.h n) (BitVec.ofNat 512 (leNat bs))
            (.variable (s1.loadLatency (s.rd a) loc))).retire sc)) ∧
      (s.issues [.w a, .h n] [] = true → ∀ s1 loc mt, s.Passes (s.rd a) .store s1 loc mt → State.outside? loc = false →
        s1.pubRegion s1.cx.task.lq (s.rd a) = none → s1.ordered = false → s1.ownOverlap loc 64 = false →
        (∀ b off, loc = .scr b off → s1.ownerOf b (off / 2048) = none) → (mt = 3 → s1.ownUncached = false) →
        ∃ s2 : State, exec (.hget a n sc) s = .next (((s2.useTagged [a]).popPorts [a]).retire sc) ∧
          s2.ctxs = (s1.ageElements loc 64 none).ctxs ∧ s2.mem = s1.mem ∧ s2.frames = s1.frames ∧
          ∃ new, s2.stores = s1.stores ++ new ∧ new.length = 8 ∧ ∀ o < 64, ∀ y,
            (State.placeOf loc + o, y) ∈ new.flatMap (fun q => q.bytes) ↔ y = BitVec.ofNat 8 (elem s.cx.h[n.toNat] 8 o)))

/-! ## Wide accumulators -/

/-- WACLR, WADD and WADDV leave the new integer in the 67 dwords, modulo 2^4288, and no other byte changes; WSGN and WRND give
its sign and its value rounded once; in an idle adder, that of the tile whose frame holds the accumulator and reached over the
mesh, WACLR takes 8 cycles, WADD 12 or more, WADDV 16, WSGN 20 and WRND 28 after the context's earlier operations (R144, R146,
R147, R148, R492). Choices of the model that it rests on: log 103. -/
def Obligations.WideAccumulators : Prop :=
  ∀ (s : State) (sc : Stall) (d a b : Reg) (va vb : BitVec 4),
    let leaves := fun (s1 s2 : State) (off : Nat) (x : Int) =>
      s2.accInt off = signedField (x % (2 ^ 4288 : Nat)).toNat 4288 ∧ s2.mem = s1.mem ∧
        (∀ k, k ≠ s1.cur → s2.ctxs.get? k = s1.ctxs.get? k) ∧
        s2.cx = { (s1.ageElements (.scr s1.cx.task.blk off) 536 none).cx with accDone := s2.cx.accDone } ∧
        ∀ y, s1.outsideAcc off y → Cells.read s2.frames y = Cells.read s1.frames y
    let home := fun (s1 : State) (off : Nat) => (s1.page s1.cx.task.blk (off / 2048)).tile
    let oneTile := fun (s1 : State) (off : Nat) => home s1 (off + 535) = home s1 off
    let idle := fun (s1 : State) (off : Nat) => oneTile s1 off ∧ (s1.tile (home s1 off)).adder = []
    let way := fun (s1 : State) (off : Nat) => s1.meshTime s1.here (home s1 off)
    (s.issues [.w d] [] = true → (s.rd d).toNat % 8 = 0 → ∀ s1 off, s.AccPasses (s.rd d) true s1 off → s1.accFree off →
      ∃ s2 : State, exec (.waclr d sc) s = .next (((s2.useTagged [d]).popPorts [d]).retire sc) ∧ leaves s1 s2 off 0 ∧
        (idle s1 off → s2.cx.accDone = max s1.cx.accDone (s1.cycle + way s1 off + s1.span (home s1 off) 8))) ∧
    (s.issues [.w a, .w b, .w d] [] = true → (s.rd d).toNat % 8 = 0 →
      ∀ s1 off, s.AccPasses (s.rd d) true s1 off → s1.accFree off →
      ∃ s2 : State, exec (.wadd d a b sc) s = .next (((s2.useTagged [a, b, d]).popPorts [a, b, d]).retire sc) ∧
        leaves s1 s2 off (s1.accInt off + productUnits (s1.rd a) (s1.rd b)) ∧
        (oneTile s1 off → s1.cycle + way s1 off + s1.span (home s1 off) 12 ≤ s2.cx.accDone)) ∧
    (s.issues [.v va, .v vb, .w d] [] = true → (s.rd d).toNat % 8 = 0 →
      ∀ s1 off, s.AccPasses (s.rd d) true s1 off → s1.accFree off →
      ∃ s2 : State, exec (.waddv d va vb sc) s = .next (((s2.useTagged [d]).popPorts [d]).retire sc) ∧
        leaves s1 s2 off (s1.accInt off + ((List.range 8).map fun i => productUnits
          (BitVec.ofNat 64 (elem (s1.rdV va) 64 i)) (BitVec.ofNat 64 (elem (s1.rdV vb) 64 i))).sum) ∧
        (idle s1 off → s2.cx.accDone = max s1.cx.accDone (s1.cycle + way s1 off + s1.span (home s1 off) 16))) ∧
    (s.issues [.w a] [.w d] = true → (s.rd a).toNat % 8 = 0 →
      ∀ s1 off, s.AccPasses (s.rd a) false s1 off → s1.accFree off → idle s1 off →
      let x := s1.accInt off
      let done := fun (n : Nat) => max (s1.cycle + way s1 off) s1.cx.accDone + s1.span (home s1 off) n
      let reading := fun (s2 : State) (n : Nat) => s2.cx = { s1.cx with accDone := done n } ∧ s2.mem = s1.mem ∧ s2.frames = s1.frames ∧
        ∀ k, k ≠ s1.cur → s2.ctxs.get? k = s1.ctxs.get? k
      (∃ s2 : State, reading s2 20 ∧ exec (.wsgn d a sc) s = .next ((((s2.useTagged [a]).popPorts [a]).putW d (lowWord x.sign) 0
        (.arrives (done 20 + way s1 off - s1.cycle))).retire sc)) ∧
      (∃ s2 : State, reading s2 28 ∧ exec (.wrnd d a sc) s = .next ((((s2.useTagged [a]).popPorts [a]).putW d
        (BitVec.ofNat 64 (fp64.ofVal (bits s1.cx.psw 1 2) (.fin (decide (x < 0)) x.natAbs (-2148)))) 0
        (.arrives (done 28 + way s1 off - s1.cycle))).retire sc)))

/-! ## Tasks -/

/-- SPAWN and SPAWNR send the ordered record of R451 to its block's tile at issue, an ordered spawner logging a kind-2 entry;
SPAWNF and SPAWNFR send a free record, to another package where the hint leads there, and are held to commit in an ordered task;
a message counts as sent (R42, R49, R188, R302, R450, R451, R452). Choices of the model that it rests on: logs 2, 78. -/
def Obligations.Spawns : Prop :=
  (∀ (s : State) (d a : Reg) (imm : BitVec 18) (sc : Stall) (b : Nat), s.inSystem = false → s.full = true → s.myLaunch.undo ≠ 0 →
    s.HintTo b →
    (∀ (to_ : BitVec 24) (ts : Reg) (extra : List Reg) (i : Instr),
      (i = .spawn d imm sc ∧ ts = d ∧ extra = [] ∧ to_ = BitVec.ofInt 24 (s.cx.pc.toNat + 4 * signedField imm.toNat 18) ∨
        i = .spawnr a d sc ∧ ts = d ∧ extra = [a] ∧ to_ = (s.rd a).setWidth 24) →
      let reads := extra ++ [ts] ++ State.spawnReads
      let r := s.child to_ (some (s.rd ts)) b
      s.issues (reads.map .w) [] = true → to_.toNat % 4 = 0 → s.keyHeld r = false →
      (s.ordered = false → s.ownPending = false →
        let s1 := (s.recordSpawn ts extra r).popPorts reads
        exec i s = .next (({ s1 with nextUid := s1.nextUid + 1 }.sendRecord s1.here r).retire sc)) ∧
      (s.ordered = true → ∀ s0, s.undoAppend s.cx.task.uid { kind := 2, place := s.recordTile b, val := r.ts, va := 0 } = some s0 →
        let s1 := (s0.recordSpawn ts extra r).popPorts reads
        exec i s = .next (({ s1 with nextUid := s1.nextUid + 1 }.sendRecord s1.here r).retire sc)))) ∧
  (∀ (s : State) (a : Reg) (imm : BitVec 18) (sc : Stall), s.inSystem = false →
    ∀ (to_ : BitVec 24) (extra : List Reg) (i : Instr),
      (i = .spawnf imm sc ∧ extra = [] ∧ to_ = BitVec.ofInt 24 (s.cx.pc.toNat + 4 * signedField imm.toNat 18) ∨
        i = .spawnfr a sc ∧ extra = [a] ∧ to_ = (s.rd a).setWidth 24) →
      let reads := extra ++ State.spawnReads
      let s1 := ({ s with nextUid := s.nextUid + 1 }.useTagged reads).popPorts reads
      s.issues (reads.map .w) [] = true → to_.toNat % 4 = 0 →
      (∀ b, s.HintTo b → s.ordered = false → s.ownPending = false →
        exec i s = .next ((s1.sendRecord s.here (s.child to_ none b)).retire sc)) ∧
      (∀ b, s.HintTo b → s.ordered = true →
        exec i s = .next ((s1.onSpec s.cx.task.uid fun y =>
          { y with held := y.held ++ [.spawnf (s.child to_ none b) (s.rd 60)] }).retire sc)) ∧
      (∀ node, s.HintAway node → s.ordered = false → s.ownPending = false →
        exec i s = .next ((s1.sendRemote s.here node (s.child to_ none ((s.rd 60).toNat % 2 ^ 62 % 2 ^ 16))).retire sc))) ∧
  (∀ (s : State) (t : Nat) (r : TaskRec),
    (s.sendRecord t r).agenda = insertDue (s.cycle + 1 + Config.latency s.fresh)
        (.taskRecordArrive (s.recordTile r.blk) r s.cycle) s.agenda ∧
      ((s.sendRecord t r).tileLaunch t r.lq).tsent = (s.tileLaunch t r.lq).tsent + 1 ∧
      (∀ node, (s.sendRemote t node r).outbox = s.outbox ++ [.remoteSpawn node r]))

/-- TDONE ends the task once its stores are performed: the slot is Free, an ordered task is Finished with its records kept;
TYIELD keeps the context and queues a resumable record; a free task's TABORT is illegal (R51, R52, R465, R466, R467, R468).
TABORT undoes an ordered task's writes newest first, drops what it holds to commit, and the task is gone (R200, R467). Choices
of the model that it rests on: log 15. -/
def Obligations.TaskEnds : Prop :=
  (
    ∀ (s : State) (sc : Stall), s.issues [] [] = true → s.inSystem = false →
      let u := s.cx.task.uid
      let s1 := s.issuedWith sc
      (s.ownPending = true → exec (.tdone sc) s = .next (s.wait .fence)) ∧
      (s.ownPending = false → s.leavesHeld s.cx.task s.cx.regs = true → exec (.tdone sc) s = .next (s.wait .speculative)) ∧
      (s.ownPending = false → s.leavesHeld s.cx.task s.cx.regs = false →
        exec (.tdone sc) s = .next { (s1.onSpec u fun y => { y with st := .finished }).endTask s.cur with kept := s.kept.erase u }) ∧
      (s.ownPending = false → (s.ctxs.map (·.1)).Pairwise (· < ·) → s.cx.regs = [] →
        ∃ t, exec (.tdone sc) s = .next t ∧ t.ctxs.get? s.cur = none ∧ t.mem = s.mem ∧ t.frames = s.frames ∧
          (∀ k, k ≠ s.cur → t.ctxs.get? k = s.ctxs.get? k) ∧
          ∀ y, s.specs.get? u = some y → t.specs.get? u = some { y with st := .finished }) ∧
      (s.ordered = false → exec (.tabort sc) s = .next s.trapIllegal) ∧
      (s.ownPending = false → pswInh s.cx.psw = false → s.hasLease s.here u = false → s.cx.results = [] →
        let s2 := (s1.setCx { s1.cx with pc := BitVec.ofNat 24 (s.cx.pc.toNat + 4) }).onSpec u fun y => { y with st := .queued }
        let r := { s.cx.task with res := true, args := s.cx.w[63] :: s.cx.task.args.drop 1 }
        (s2.keep s.cur).2 = r ∧
        exec (.tyield sc) s = .next ((s2.keep s.cur).1.arrive ((s2.keep s.cur).1.recordTile r.blk) r none))) ∧
  (
    ∀ (s : State) (sc : Stall) (y : Spec), s.issues [] [] = true → s.ordered = true → s.specs = [(s.cx.task.uid, y)] →
      y.task.uid = s.cx.task.uid → y.unlogged = false → y.elems = [] → s.parts = [] → s.cx.status ≠ .free →
      (s.ctxs.map (·.1)).Pairwise (· < ·) → (∀ k c, s.ctxs.get? k = some c → c.task.uid = s.cx.task.uid → k = s.cur) →
      s.restoreHeld s.cx.task.uid = false → (∀ u ∈ y.undo, u.kind = 0 ∧ s.poisoned u.place = false ∧ u.place < 0xC000000000000) →
      ∃ t, exec (.tabort sc) s = .next t ∧ t.specs = [] ∧ t.ctxs.get? s.cur = none ∧
        t.mem = y.undo.foldl (fun m u => Cells.writeN m u.place (leBytes 8 u.val.toNat)) s.mem ∧ t.frames = s.frames)

/-! ## Pools and commutative ranges -/

/-- POOLGET and POOLGET.NF take the head of the free list, or the next fresh element, or find the pool empty: POOLGET then
raises pool exhaustion and POOLGET.NF gives 0; POOLPUT links an element at the head, in an ordered task at commit (R174, R175,
R427, R429). Choices of the model that it rests on: logs 70, 94. -/
def Obligations.Pools : Prop :=
  (∀ (s : State) (d a : Reg) (sc : Stall), s.issues [.w a] [.w d] = true →
    let desc := s.rd a
    desc.toNat % 64 = 0 → ∀ s1 pa, (∀ k, s.poolAccess desc k = k s1 (.mem pa)) → pa + 64 ≤ 0xC000000000000 →
    let p := s1.poolAt (.mem pa)
    8 ≤ p.esize → p.esize ≤ 65536 → p.esize % 8 = 0 → 1 ≤ p.count → 1 ≤ p.scope → p.scope ≤ 5 →
    s1.ownOverlap (.mem pa) 64 = false → ∀ s2, (∀ k, s1.poolOwn (.mem pa) k = k s2) →
    let logged := fun (s s' s'' : State) (x : Word) => s.ordered = false ∧ s'' = s' ∨ s.ordered = true ∧
      s'.undoAppend s.cx.task.uid { kind := 3, place := desc.toNat % 2 ^ 52, val := x, va := desc } = some s''
    let done := fun (s : State) (x : Word) => .next (((((s.useTagged [a]).popPorts [a]).putW d x 0 (.variable 40)).refetch).retire sc)
    let put := fun (s : State) (at_ : Nat) (bs : List Byte) => (s.writeAt none at_ bs).noteHost at_ bs
    (p.head = 0 → p.next < p.count → s2.parts = [] → s2.poolAt (.mem pa) = p → s2.l2St (dieOf s2.here) (pa / 64) = .m →
      let x := p.base + BitVec.ofNat 64 (p.esize * p.next)
      x ≠ 0 → ∀ s3, logged s2 (put s2 (pa + 16) (leBytes 4 (p.next + 1))) s3 x →
      exec (.poolget d a sc) s = done s3 x ∧ exec (.poolgetNf d a sc) s = done s3 x) ∧
    (p.head = 0 → p.count ≤ p.next → s2.parts = [] → s2.poolAt (.mem pa) = p → s2.l2St (dieOf s2.here) (pa / 64) = .m →
      exec (.poolget d a sc) s = .next (s2.trap 0x09 desc 0) ∧ exec (.poolgetNf d a sc) s = done s2 0) ∧
    (p.head ≠ 0 → s2.poolAt (.mem pa) = p → ∀ s3 l s4 e, (∀ k, s2.poolAccess p.head k = k s3 l) →
      (∀ k, s3.poolLink (.mem pa) false l k = k s4) → s4.parts = [] → s4.poolAt (.mem pa) = p →
      s4.locate s4.cx.task.lq s4.cx.task.blk p.head .pool = .inl (.mem e) → e + 8 ≤ 0xC000000000000 →
      s4.l2St (dieOf s4.here) (pa / 64) = .m → s4.l2Holds e = true →
      ∀ s5, logged s4 (put s4 (pa + 24) (s4.bytesAt e 8)) s5 p.head →
      exec (.poolget d a sc) s = done s5 p.head ∧ exec (.poolgetNf d a sc) s = done s5 p.head)) ∧
  (∀ (s : State) (a b : Reg) (sc : Stall), s.issues [.w a, .w b] [] = true →
    let x := s.rd a
    let desc := s.rd b
    desc.toNat % 64 = 0 → ∀ s1 pa s2 l, (∀ k, s.poolAccess desc k = k s1 (.mem pa)) → (∀ k, s1.poolAccess x k = k s2 l) →
    pa + 64 ≤ 0xC000000000000 →
    let p := s1.poolAt (.mem pa)
    8 ≤ p.esize → p.esize ≤ 65536 → p.esize % 8 = 0 → 1 ≤ p.count → 1 ≤ p.scope → p.scope ≤ 5 →
    p.base.toNat ≤ x.toNat → x.toNat < p.base.toNat + p.esize * p.count → (x.toNat - p.base.toNat) % p.esize = 0 →
    (s2.ordered = true → exec (.poolput a b sc) s = .next ((((s2.onSpec s2.cx.task.uid fun y =>
      { y with held := y.held ++ [.poolput x desc] }).useTagged [a, b]).popPorts [a, b]).retire sc)) ∧
    (s2.ordered = false → s2.ownPending = false → ∀ s3 s4 e, (∀ k, s2.poolOwn (.mem pa) k = k s3) → (∀ k, s3.poolLink (.mem pa) true l k = k s4) → s4.parts = [] →
      s4.locate s4.cx.task.lq s4.cx.task.blk desc .pool = .inl (.mem pa) → s4.poolAt (.mem pa) = p →
      s4.locate s4.cx.task.lq s4.cx.task.blk x .pool = .inl (.mem e) → e + 8 ≤ 0xC000000000000 →
      s4.l2St (dieOf s4.here) (pa / 64) = .m → s4.l2St (dieOf s4.here) (e / 64) = .m →
      let put := fun (s : State) (at_ : Nat) (bs : List Byte) => (s.writeAt none at_ bs).noteHost at_ bs
      exec (.poolput a b sc) s = .next (((((put (put s4 e (leBytes 8 p.head.toNat)) (pa + 24)
        (leBytes 8 x.toNat)).ageElements l 8 none).ageElements (.mem pa) 64 none |>.useTagged [a, b]).popPorts [a, b]).retire sc)))

/-- CRDECL declares a range and waits until it is in force, or goes on where it already is, and is held to commit in an ordered
task; the range then is in force, its L1 copies are gone and its waiters go on; CRADD adds to a range's element at the die's
slice, or is held to commit (R205, R206, R207, R208, R368, R371). A commutative sum is exact: combining rounds memory's element
and every partial once, to nearest even, whatever the order they came in, a NaN or both infinities giving the canonical NaN and
an exact zero +0; a load or store of a range line combines it first (R208, R209). Choices of the model that it rests on: logs 2,
28. -/
def Obligations.CommutativeRanges : Prop :=
  (
    (∀ p ∈ [((.crdeclD, .i64) : (Reg → Reg → Stall → Instr) × CrFmt), (.crdeclF32, .f32), (.crdeclF64, .f64)],
      ∀ (s : State) (a b : Reg) (sc : Stall), s.issues [.w a, .w b] [] = true →
      let lq := s.cx.task.lq
      let base := s.rd a
      let len := s.rd b
      let done := fun (s : State) => .next (((s.useTagged [a, b]).popPorts [a, b]).retire sc)
      (∀ f, s.crdeclCheck lq p.2 base len = some f → exec (p.1 a b sc) s = .next (s.trap f.cause f.word f.val2)) ∧
      (s.crdeclCheck lq p.2 base len = none →
        (s.ordered = true → exec (p.1 a b sc) s =
          done (s.onSpec s.cx.task.uid fun y => { y with held := y.held ++ [.crdecl p.2 base len] })) ∧
        (s.ordered = false →
          (∀ r, s.declared lq p.2 base len = some r →
            exec (p.1 a b sc) s = if r.live then done s else .next (s.park .crdecl sc)) ∧
          (s.declared lq p.2 base len = none → ∀ l, s.launches.get? lq = some l →
            ∃ t, exec (p.1 a b sc) s = .next t ∧ (t.ctx s.cur).status = .waiting .crdecl ∧
              t.launches.get? lq = some { l with ranges := l.ranges ++ [{ fmt := p.2, base := base, len := len.toNat, live := false }] } ∧
              t.agenda = insertDue (s.cycle + 1 + Config.latency s.fresh) (.crdeclInForce lq base.toNat) s.agenda)))) ∧
    (∀ (s : State) (fmt : CrFmt) (base len : Word),
      base.toNat % 64 ≠ 0 → s.crdeclCheck s.cx.task.lq fmt base len = some ⟨0x02, base, 64⟩) ∧
    (∀ (s : State) (lq : Nat) (l : Launch) (r : CrRange), s.launches.get? lq = some l → l.ranges = [r] → r.live = false →
      ∃ t, exec (.crdeclInForce lq r.base.toNat) s = .next t ∧ t.mem = s.mem ∧
        t.launches.get? lq = some { l with ranges := [{ r with live := true }] } ∧
        (∀ n, ∀ e ∈ (t.tile n).l1, let first := r.base.toNat % 2 ^ 57 / 64
          ¬(e.asid = l.asid ∧ first ≤ e.vline ∧ e.vline < first + r.len / 64) ∧
          ∀ x ∈ (s.onLaunch lq fun l => { l with ranges := [{ r with live := true }] }).rangeLines l r,
            ¬(x.1 ≤ e.pline ∧ e.pline ≤ x.2)) ∧
        ∀ k c, s.ctxs.get? k = some c → c.task.lq = lq → c.status = .waiting .crdecl →
          t.ctxs.get? k = some { c with status := .waiting .resource }) ∧
    (∀ (s : State) (a b : Reg) (sc : Stall) (r : CrRange), s.issues [.w a, .w b] [] = true →
      s.commRange s.cx.task.lq (s.rd a) = some r → (s.rd a).toNat % CrFmt.bytes r.fmt = 0 →
      ∀ s1 pa mt, s.Passes (s.rd a) .add s1 (.mem pa) mt →
      let done := fun (s : State) => .next (((s.useTagged [a, b]).popPorts [a, b]).retire sc)
      (s1.ordered = true → exec (.cradd a b sc) s =
        done (s1.onSpec s1.cx.task.uid fun y => { y with held := y.held ++ [.cradd (s.rd a) (s.rd b)] })) ∧
      (s1.ordered = false → s1.ownOverlap (.mem pa) (CrFmt.bytes r.fmt) = false →
        ∀ s2, (s1.ageElements (.mem pa) (CrFmt.bytes r.fmt) none).craddAt (dieOf s1.here) pa r.fmt (s.rd b) = some s2 →
        exec (.cradd a b sc) s = done s2))) ∧
  (
    ∀ (fmt : CrFmt) (old : Nat) (xs ys : List Word) (die slice pa : Nat), xs.Perm ys →
      combined fmt old (xs.map (addendOf fmt die slice pa)) = combined fmt old (ys.map (addendOf fmt die slice pa)) ∧
      (fmt = .i64 → combined fmt old (xs.map (addendOf fmt die slice pa)) = (old + (xs.map (·.toNat)).sum) % 2 ^ 64) ∧
      ∀ (f : FFmt) (unit : Int), (fmt, f, unit) ∈ [(CrFmt.f32, fp32, (-149 : Int)), (.f64, fp64, -1074)] →
        let sum := combined fmt old (xs.map (addendOf fmt die slice pa))
        let vs := (BitVec.ofNat 64 old :: xs).map fun x => f.decode (x.toNat % 2 ^ (8 * CrFmt.bytes fmt))
        (.nan ∈ vs ∨ .inf false ∈ vs ∧ .inf true ∈ vs → sum = f.nanPat) ∧
        (.nan ∉ vs → ∀ neg, .inf neg ∈ vs → .inf (!neg) ∉ vs → sum = f.signed neg f.infPat) ∧
        ((∀ v ∈ vs, ∃ neg m e, v = .fin neg m e) →
          let exact : Int := (vs.map fun v => match v with
            | .fin neg m e => (if neg then -1 else 1) * (m : Int) * 2 ^ (e - unit).toNat
            | .nan | .inf _ => 0).sum
          sum = if exact = 0 then 0 else f.ofVal 0 (.fin (decide (exact < 0)) exact.natAbs unit))) ∧
  (∀ (s : State) (die line : Nat) (fmt : CrFmt), Memory.wf s.mem = true → (s.homeLine line).st = .p → (s.homeLine line).busy = none →
    (s.homeLine line).queue = [] → s.lowerFirst die line = false → (∃ p ∈ s.parts, p.pa / 64 = line) →
    (∀ p ∈ s.parts, p.pa / 64 = line → p.fmt = fmt) →
    let n := CrFmt.bytes fmt
    ∀ i ∈ [Instr.reads die line, .readx die line, .upgrade die line], ∃ t : State, exec i s = .next t ∧
      t.parts = s.parts.filter (fun p => p.pa / 64 != line) ∧
      (∀ j < 64 / n, let pa := 64 * line + n * j
        leNat (t.bytesAt pa n) = combined fmt (leNat (s.bytesAt pa n)) (s.parts.filter fun p => p.pa == pa)) ∧
      (∀ a, a / 64 ≠ line → Cells.read t.mem a = Cells.read s.mem a) ∧ ∀ d < 8, t.l2St d line ≠ .p)

/-! ## Engines -/

/-- Reedbed commands: a task that holds or has requested the lease issues them with what they capture and the rows they lock;
MLEASE asks for the lease, and completes at once for its holder; without the lease each of the others raises protection; an
ordered task may issue none (R177, R245, R247, R248, R257, R416, R419, R421, R423). Choices of the model that it rests on: logs
6, 35, 67, 68, 79, 103. -/
def Obligations.ReedbedCommands : Prop :=
  ∀ (s : State) (e set : BitVec 3) (a b : Reg) (n : BitVec 2) (sc : Stall) (entry : Nat),
    (s.ordered = true → ∀ i ∈ [.mlease e sc, .mrel e sc, .mswap e sc, .mdrain e sc, .mfmt e a b set sc, .mgeo e a set sc,
        .mloadw e a b set sc, .mstream e a b (.set set) sc, .mstream e a b (.handle n) sc], exec i s = .next s.trapIllegal) ∧
    (s.ordered = false →
      let params := (s.tile s.here).reed[set.toNat].toList
      let v := s.reedView s.here s.cx.task.uid (s.tile s.here).cmdSeq
      let refused := fun (i : Instr) => s.leaseMine = false → exec i s = .next (s.trap 0x03 0 0)
      let issued := fun (i : Instr) (op : CmdOp) (reads : List Reg) (x y : Word) (params : List Word) (line : Option Line)
          (ranges : List LockRange) =>
        (s.leaseMine = true → s.TakesCommand op ranges.length entry →
          exec i s = .next ((s.commandIssued op e reads x y params line ranges entry).retire sc)) ∧ refused i
      (s.issues [] [.e e] = true →
        (s.leaseMine = false → s.TakesCommand .mlease 0 entry → let c := clusterOf s.here
          let s1 := s.commandIssued .mlease e [] 0 0 [] none [] entry
          exec (.mlease e sc) s = .next ((s1.setCluster c { s.cluster c with leaseQ := (s.cluster c).leaseQ ++
            [{ tile := s.here, uid := s.cx.task.uid, lq := s.cx.task.lq, granted := false, leaving := false }] }).retire sc)) ∧
        (s.leaseMine = true → s.TakesCommand .mlease 0 entry → ∃ t, exec (.mlease e sc) s = .next t ∧ s.IssuedComplete t e entry) ∧
        (∀ p ∈ [((.mrel, .mrel) : (BitVec 3 → Stall → Instr) × CmdOp), (.mswap, .mswap), (.mdrain, .mdrain)],
          issued (p.1 e sc) p.2 [] 0 0 [] none [])) ∧
      (s.issues [.w a, .w b] [.e e] = true →
        (fmtWordOk (s.rd a) = true → issued (.mfmt e a b set sc) .mfmt [a, b] (s.rd a) (s.rd b) params none []) ∧
        (fmtWordOk (s.rd a) = false → exec (.mfmt e a b set sc) s = .next s.trapIllegal) ∧
        (∀ r rs, s.rowsSide (s.rd a) (params.getD 0 0) v.k ((v.n * vcvtWidth (bits v.fmt 12 4) + 7) / 8) = some r →
          (if bit v.fmt 1 then (∃ q, s.rowsSide (s.rd b) 0 1 (v.n * ((v.k + 31) / 32)) = some q ∧ rs = [q]) else rs = []) →
          issued (.mloadw e a b set sc) .mloadw [a, b] (s.rd a) (s.rd b) params none (r :: rs)) ∧
        ((s.rd b).toNat = 0 → refused (.mstream e a b (.set set) sc) ∧ (s.leaseMine = true → s.TakesCommand .mstream 0 entry →
          ∃ t, exec (.mstream e a b (.set set) sc) s = .next t ∧ s.IssuedComplete t e entry)) ∧
        (∀ r off, let rows := (s.rd b).toNat
          let win := params.getD 2 0
          let window := 512 * (rows - 1) + 4 * v.n
          let scales := if v.active.asc then [s.lockRange v.scale (rows * ((v.active.k + 31) / 32)) false] else []
          1 ≤ rows → rows ≤ 65535 → win.toNat % 64 = 0 → State.scratchAt win off → s.SpanFits off 0 window →
          s.rowsSide (s.rd a) (params.getD 1 0) rows ((v.active.k * vcvtWidth v.active.afmt + 7) / 8) = some r →
          issued (.mstream e a b (.set set) sc) .mstream [a, b] (s.rd a) (s.rd b) params none
            ([r] ++ scales ++ [s.lockRange win window true]))) ∧
      (∀ off, s.issues [.w a, .w b, .h n] [.e e] = true → let rows := (s.rd b).toNat
        let params := (s.tile s.here).reed[0].toList
        let win := params.getD 2 0
        let window := 512 * (rows - 1) + 4 * v.n
        let scales := if v.active.asc then [s.lockRange v.scale (rows * ((v.active.k + 31) / 32)) false] else []
        1 ≤ rows → rows ≤ 65535 → win.toNat % 64 = 0 → State.scratchAt win off → s.SpanFits off 0 window →
        handleOk s.cx.h[n.toNat] = true → handleVfmt s.cx.h[n.toNat] = bits v.fmt 8 4 →
        issued (.mstream e a b (.handle n) sc) .mstream [a, b] (s.rd a) (s.rd b) params
          (some s.cx.h[n.toNat]) (scales ++ [s.lockRange win window true])) ∧
      (s.issues [.w a] [.e e] = true → geoWordOk (s.rd a) = true →
        issued (.mgeo e a set sc) .mgeo [a] (s.rd a) 0 params none []))

/-- Heron commands with a parameter set lock the index list and the scratchpad span; with a handle, and in HLD and HST, the
scratchpad image (R230, R268, R269, R401, R405, R440, R441). A copy locks its source span for reading and its destination span
for writing; a zero length completes at once (R230, R271, R364, R365). Choices of the model that it rests on: logs 6, 67, 68,
103. -/
def Obligations.HeronAndLodeCommands : Prop :=
  (
    (∀ p ∈ [((.gather, .gather) : (BitVec 3 → Reg → Reg → EngSrc → Stall → Instr) × CmdOp), (.scatter, .scatter),
        (.scatterAdd, .scatterAdd)],
      ∀ (s : State) (e set : BitVec 3) (a b : Reg) (sc : Stall) (entry off : Nat), s.ordered = false →
      s.issues [.w a, .w b] [.e e] = true →
      let params := (s.tile s.here).heron[set.toNat].toList
      let ctl := params.getD 2 0
      let unit := if ctl.getLsbD 40 then 8 else 4
      let count := bits ctl 16 17
      let span := 8 * bits ctl 0 10 * count
      bits ctl 44 2 ≠ 3 → 1 ≤ count → count ≤ 65536 → 1 ≤ bits ctl 0 10 → bits ctl 0 10 ≤ 512 →
      (s.rd a).toNat % 8 = 0 → (s.rd b).toNat % unit = 0 → State.scratchAt (s.rd a) off → s.SpanFits off 0 span →
      s.TakesCommand p.2 2 entry →
      exec (p.1 e a b (.set set) sc) s = .next ((s.commandIssued p.2 e [a, b] (s.rd a) (s.rd b) params none
        [s.lockRange (s.rd b) (unit * count) false, s.lockRange (s.rd a) span (p.2 == .gather)] entry).retire sc)) ∧
    (∀ p ∈ [((.gather, .gather) : (BitVec 3 → Reg → Reg → EngSrc → Stall → Instr) × CmdOp), (.scatter, .scatter),
        (.scatterAdd, .scatterAdd)],
      ∀ (s : State) (e : BitVec 3) (n : BitVec 2) (a b : Reg) (sc : Stall) (entry : Nat), s.ordered = false →
      s.issues [.w a, .w b, .h n] [.e e] = true →
      let line := s.cx.h[n.toNat]
      let row := s.rowEmpty (s.capture p.2 e (s.rd a) (s.rd b) [] (some line) 0 []) line
      handleOk line = true → (s.rd a).toNat % 8 = 0 →
      (row = none → s.TakesCommand p.2 1 entry →
        exec (p.1 e a b (.handle n) sc) s = .next ((s.commandIssued p.2 e [a, b] (s.rd a) (s.rd b) [] (some line)
          [s.lockRange (s.rd a) (handleCols line * 8 * handleGrow line) (p.2 == .gather)] entry).retire sc)) ∧
      (∀ s1, row = some s1 → s1.TakesCommand p.2 0 entry →
        ∃ t, exec (p.1 e a b (.handle n) sc) s = .next t ∧ s1.IssuedComplete t e entry)) ∧
    (∀ p ∈ [((.hld, .hld) : (BitVec 3 → Reg → Reg → BitVec 2 → Stall → Instr) × CmdOp), (.hst, .hst)],
      ∀ (s : State) (e : BitVec 3) (n : BitVec 2) (a b : Reg) (sc : Stall) (entry off : Nat), s.ordered = false →
      s.issues [.w a, .w b, .h n] [.e e] = true →
      let line := s.cx.h[n.toNat]
      let rows := min (max (handleOf line).blk 1) ((handleOf line).rows - (s.rd b).toNat)
      let span := handlePitch line * rows
      handleOk line = true → (s.rd a).toNat % 8 = 0 → (s.rd b).toNat < (handleOf line).rows → State.scratchAt (s.rd a) off →
      s.SpanFits off 0 span → s.TakesCommand p.2 1 entry →
      exec (p.1 e a b n sc) s = .next ((s.commandIssued p.2 e [a, b] (s.rd a) (s.rd b) [] (some line)
        [s.lockRange (s.rd a) span (p.2 == .hld)] entry).retire sc)) ∧
    (∀ p ∈ [((.hld, .hld) : (BitVec 3 → Reg → Reg → BitVec 2 → Stall → Instr) × CmdOp), (.hst, .hst)],
      ∀ (s : State) (e : BitVec 3) (n : BitVec 2) (a b : Reg) (sc : Stall) (entry : Nat), s.ordered = false →
      s.issues [.w a, .w b, .h n] [.e e] = true → handleOk s.cx.h[n.toNat] = true → (s.rd a).toNat % 8 = 0 →
      (handleOf s.cx.h[n.toNat]).rows ≤ (s.rd b).toNat → s.TakesCommand p.2 0 entry →
      ∃ t, exec (p.1 e a b n sc) s = .next t ∧ s.IssuedComplete t e entry) ∧
    (∀ (s : State) (va : Word) (n off : Nat) (w : Bool),
      (State.scratchAt va off → s.lockRange va n w
        = { scratch := true, space := s.cx.task.blk, firstLine := off / 64, lastLine := (off + n - 1) / 64, write := w }) ∧
      (va.toNat / 2 ^ 24 ≠ 2 ^ 40 - 1 → s.lockRange va n w
        = { scratch := false, space := s.asid, firstLine := va.toNat / 64, lastLine := (va.toNat + n - 1) / 64, write := w }))) ∧
  (
    ∀ p ∈ [((.cpy, .cpy) : (BitVec 3 → Reg → Reg → BitVec 3 → Stall → Instr) × CmdOp), (.cpy2, .cpy2), (.cpy3, .cpy3)],
      ∀ (s : State) (e set : BitVec 3) (a b : Reg) (sc : Stall) (entry : Nat), s.ordered = false →
      s.issues [.w a, .w b] [.e e] = true →
      let params := (s.tile s.here).lode[set.toNat].toList
      let len := bits (params.getD 0 0) 0 32
      let cnt := params.getD 3 0
      let n1 := if p.2 = .cpy then 1 else bits cnt 0 32
      let n2 := if p.2 = .cpy3 then bits cnt 32 32 else 1
      let stride := fun (i : Nat) (on : Bool) => if on then (params.getD i 0).toInt else 0
      let two := p.2 != .cpy
      let three := p.2 == .cpy3
      let lo := fun (i j : Nat) => min 0 (((n1 : Int) - 1) * stride i two) + min 0 (((n2 : Int) - 1) * stride j three)
      let hi := fun (i j : Nat) => max 0 (((n1 : Int) - 1) * stride i two) + max 0 (((n2 : Int) - 1) * stride j three)
      let side := fun (va : Word) (i j : Nat) (w : Bool) =>
        s.lockRange (va + BitVec.ofInt 64 (lo i j)) ((hi i j - lo i j).toNat + len) w
      (len = 0 ∨ n1 = 0 ∨ n2 = 0 → s.TakesCommand p.2 0 entry →
        ∃ t, exec (p.1 e a b set sc) s = .next t ∧ s.IssuedComplete t e entry) ∧
      (len ≠ 0 → n1 ≠ 0 → n2 ≠ 0 → s.TakesCommand p.2 2 entry →
        (∀ off, State.scratchAt (s.rd b) off → s.SpanFits off (lo 1 4) (hi 1 4 + len)) →
        (∀ off, State.scratchAt (s.rd a) off → s.SpanFits off (lo 2 5) (hi 2 5 + len)) →
        exec (p.1 e a b set sc) s = .next ((s.commandIssued p.2 e [a, b] (s.rd a) (s.rd b) params none
          [side (s.rd b) 1 4 false, side (s.rd a) 2 5 true] entry).retire sc)))

/-- The page commands over whole pages of the window, SPPIN within the frames a tile may pin, and SPMIG toward another live tile
of the launch, which starts the block's move; performed, a page command takes its pages in order: SPMAP brings each into a
frame, zero-filled or from its slot, SPPIN pins it there as well, SPFREE makes it Unmapped, SPFLUSH writes a dirty one to its
slot, and each waits for a locked page (R53, R165, R170, R455, R456). Choices of the model that it rests on: logs 16, 82. -/
def Obligations.PageCommands : Prop :=
  (∀ (s s' : State) (t entry : Nat) (c : Cmd), s.Performs t entry c → ((s'.tile t).cmds.map (·.1)).Pairwise (· < ·) →
    c.op ∈ [.spmap, .spfree, .sppin, .spflush] →
    inTurn (fun p x y => (pageUnit c p).run.run x = (.ok (), y))
      ((List.range c.b.toNat).map fun i => c.a.toNat % 2 ^ 24 / 2048 + i) s s' → s.EndsWith t entry s') ∧
  (∀ (s : State) (c : Cmd) (p : Nat) (b : Block), s.blocks.get? c.blk = some b → c.op ∈ [.spmap, .spfree, .sppin, .spflush] →
    let pg := s.page c.blk p
    let gives := fun (op : CmdOp) (t : State) => (pageUnit { c with op := op } p).run.run s = (.ok (), t)
    let others := fun (t : State) => ∀ x y, x ≠ c.blk ∨ y ≠ p → t.page x y = s.page x y
    (pg.lock = true → (pageUnit c p).run.run s = (.error .wait, s)) ∧
    (pg.lock = false → Memory.wf s.mem = true → Memory.wf s.frames = true →
      (∃ t, gives .spfree t ∧ t.page c.blk p = Page.unmapped ∧ others t ∧ t.mem = s.mem ∧ t.frames = s.frames) ∧
      (∀ t, gives .spmap t → gives .sppin (t.setPage c.blk p { t.page c.blk p with pin := !State.unpinned c p })) ∧
      (pg.st = .framed → pg.tile = b.tile → ∃ t, gives .spmap t ∧ t.page c.blk p = pg ∧ others t ∧ t.mem = s.mem ∧ t.frames = s.frames) ∧
      (∀ f, bits (s.launch c.lq).budget 16 16 = 0 → pg.st ≠ .framed → f < frameCount (s.tile b.tile) →
        f ∉ (s.framedOn b.tile).map (fun e => e.2.2.frame) → (∀ g < f, g ∈ (s.framedOn b.tile).map fun e => e.2.2.frame) →
        let base := frameBase b.tile f
        let slot := s.slotAt c.blk p
        (pg.st = .unmapped → ∃ t, gives .spmap t ∧ others t ∧ t.mem = s.mem ∧
          t.page c.blk p = { pg with st := .framed, lock := false, dirty := true, tile := b.tile, frame := f } ∧
          ∀ a, Cells.read t.frames a = if base ≤ a ∧ a < base + 2048 then 0 else Cells.read s.frames a) ∧
        (pg.st = .parked → codePages (s.launch b.lq) ≤ p → (∀ i < 32, slot / 64 + i ∉ s.poison) →
          ∃ t, gives .spmap t ∧ others t ∧ t.mem = s.mem ∧
            t.page c.blk p = { pg with st := .framed, lock := false, dirty := false, tile := b.tile, frame := f } ∧
            ∀ a, Cells.read t.frames a =
              if base ≤ a ∧ a < base + 2048 then Cells.read s.mem (slot + (a - base)) else Cells.read s.frames a)) ∧
      (pg.st ≠ .framed ∨ pg.dirty = false ∨ p < codePages (s.launch c.lq) → s.ownerOf c.blk p = none → gives .spflush s) ∧
      (pg.st = .framed → pg.dirty = true → codePages (s.launch c.lq) ≤ p → s.ownerOf c.blk p = none →
        let base := frameBase pg.tile pg.frame
        let slot := s.slotAt c.blk p
        ∃ t, gives .spflush t ∧ t.page c.blk p = { pg with dirty := false } ∧ others t ∧ t.frames = s.frames ∧
          ∀ a, Cells.read t.mem a =
            if slot ≤ a ∧ a < slot + 2048 then Cells.read s.frames (base + (a - slot)) else Cells.read s.mem a))) ∧
  ∀ (s : State) (e : BitVec 3) (a b : Reg) (sc : Stall) (entry off : Nat), s.outsideHandler = false →
    let blk := s.cx.task.blk
    let n := (s.rd b).toNat
    (s.issues [.w a, .w b] [.e e] = true → State.scratchAt (s.rd a) off →
      (∀ p ∈ [((.spmap, .spmap) : (BitVec 3 → Reg → Reg → Stall → Instr) × CmdOp), (.spfree, .spfree), (.sppin, .sppin),
          (.spflush, .spflush)],
        (p.2 = .spfree → s.ordered = true → exec (p.1 e a b sc) s = .next s.trapIllegal) ∧
        ((p.2 = .spfree → s.ordered = false) → off % 2048 ≠ 0 → exec (p.1 e a b sc) s = .next (s.trap 0x02 (s.rd a) 2048)) ∧
        ((p.2 = .spfree → s.ordered = false) → off % 2048 = 0 → n ≠ 0 → off / 2048 + n ≤ s.myLaunch.sppages →
          (p.2 = .spfree → s.myBlock.xb ≤ off ∧ ∀ i < n, off / 2048 + i ∉ s.workHeld blk) →
          (p.2 = .sppin → (s.rd b).getLsbD 63 = false ∧ (s.pinsOn (s.blockTile blk)).length +
            (((List.range n).map fun i => off / 2048 + i).filter fun q => !(s.pinsOn (s.blockTile blk)).contains (blk, q)).length
              ≤ frameCount (s.tile (s.blockTile blk)) - 32) →
          s.TakesCommand p.2 0 entry →
          exec (p.1 e a b sc) s = .next ((s.commandIssued p.2 e [a, b] (s.rd a) (s.rd b) [] none [] entry).retire sc)) ∧
        ((p.2 = .spfree → s.ordered = false) → off % 2048 = 0 → n = 0 → off / 2048 ≤ s.myLaunch.sppages →
          s.TakesCommand p.2 0 entry → ∃ t, exec (p.1 e a b sc) s = .next t ∧ s.IssuedComplete t e entry)) ∧
      (let k := n % 2 ^ 32;
        (s.rd b).getLsbD 63 = true → off % 2048 = 0 → off / 2048 + k ≤ s.myLaunch.sppages → s.TakesCommand .sppin 0 entry →
        ∃ t, exec (.sppin e a b sc) s = .next t ∧ ∀ i < k, (t.page blk (off / 2048 + i)).pin = false)) ∧
    (s.issues [.w a] [.e e] = true → s.ordered = false → let target := (s.rd a).toNat
      s.live target = true → target ∈ s.myLaunch.tiles → s.blockLeased blk = false →
      (target ≠ s.blockTile blk ∨ s.myBlock.st ≠ .resident) → s.TakesCommand .spmig 0 entry →
      exec (.spmig e a sc) s = .next (((s.commandIssued .spmig e [a] (s.rd a) 0 [BitVec.ofNat 64 (s.blockCtxs blk).length]
        none [] entry).startMove blk target).retire sc))

/-- FWAIT goes on at a complete ticket, raises a fault once, and raises promise-missed once the due cycle is over; FTEST gives 1
or 0; FCANCEL marks a live command; FPASS moves a ticket; none is legal in an ordered task (R177, R250, R253, R254, R255, R386,
R387). Choices of the model that it rests on: log 6. -/
def Obligations.Tickets : Prop :=
  ∀ (s : State) (e : BitVec 3) (a : Reg) (sc : Stall),
    let x := s.cx.e[e.toNat]
    let fault := fun (f : FaultedTicket) => s.deliver x f
    (s.ordered = true → ∀ i ∈ [.fwait e sc, .fcancel e sc, .ftest e a sc, .fpassRead e a sc, .fpassWrite e a sc],
      exec i s = .next s.trapIllegal) ∧
    (s.issues [.e e] [] = true → s.ordered = false →
        (s.ticketBad x = true → exec (.fwait e sc) s = .next (s.trap 0x03 (BitVec.ofNat 64 (bits x 20 12)) 0) ∧
          exec (.fcancel e sc) s = .next (s.trap 0x03 (BitVec.ofNat 64 (bits x 20 12)) 0)) ∧
        (s.TicketDone x → exec (.fwait e sc) s = .next (s.refetch.retire sc) ∧ exec (.fcancel e sc) s = .next (s.retire sc)) ∧
        (s.ticketBad x = false →
          (∀ f, s.faultOf x = some f → exec (.fwait e sc) s = .next (fault f)) ∧
          (∀ c, s.faultOf x = none → s.liveCmd x = some c →
            (s.dueOver c = true → c.missed = false → exec (.fwait e sc) s = .next (s.missPromise c)) ∧
            (c.op ≠ .spmig → exec (.fcancel e sc) s = .next ((s.setTile (ticketTile x) { s.tile (ticketTile x) with
              cmds := (s.tile (ticketTile x)).cmds.set (ticketEntry x) { c with cancel := c.cancel.or (some s.cycle) } }).retire sc))))) ∧
    (s.issues [.e e] [.w a] = true → s.ordered = false →
      (s.TicketDone x → exec (.ftest e a sc) s = .next ((s.refetch.putW a 1 0 (.variable 1)).retire sc)) ∧
      (s.ticketBad x = false → s.faultOf x = none → (s.liveCmd x).isSome = true →
        exec (.ftest e a sc) s = .next ((s.putW a 0 0 (.variable 1)).retire sc)) ∧
      (s.ticketBad x = false → ∀ f, s.faultOf x = some f → exec (.ftest e a sc) s = .next (fault f)) ∧
      exec (.fpassRead e a sc) s = .next ((s.putW a x 0 (.fixed 4)).retire sc)) ∧
    (s.issues [.w a] [.e e] = true → s.ordered = false →
      exec (.fpassWrite e a sc) s =
        .next ((((s.useTagged [a]).popPorts [a]).putV (.e e) ((s.rd a).setWidth 512) (.fixed 4)).retire sc)) ∧
    (∀ c, (s.dueOver c = true ↔ (s.cycle + 2 ^ 32 - (c.due + 1) % 2 ^ 32) % 2 ^ 32 < 2 ^ 31))

/-- Registration gives the ticket its promise and writes it to the ticket register; a completed command frees its entry,
advances the generation and is a wake event of its context; MFMT, MGEO and MSWAP have their effect then; a command that clashes
with a range of an earlier one is held (R231, R251, R252, R259, R260, R263, R444). MLOADW leaves the rows and scales that it
reads in the shadow plane; MSTREAM adds each row's sums of scaled products to the words of its window, or stores them there,
rounding each product and each sum once (R139, R140, R141, R142, R262, R263, R268). The promise of a waiting FWAIT raises its
trap when it falls due, unless the command ends in that same cycle; a lease goes to the first request of the cluster's queue,
whose MLEASE completes then; at re-arbitration it passes to the first waiting tile, or is renewed while no other tile waits
(R254, R257, R258). Choices of the model that it rests on: logs 6, 35, 68, 71, 79, 89, 95, 98, 99, 100. -/
def Obligations.CommandEvents : Prop :=
  (
    ∀ (s : State) (t entry : Nat) (c : Cmd), (s.tile t).cmds.get? entry = some c →
      (c.registered = false → ∃ u, exec (.ticketRegister t entry) s = .next u ∧ u.mem = s.mem ∧ u.frames = s.frames ∧
        ∃ due, (u.tile t).cmds.get? entry = some { c with registered := true, due := due, ticket := ticketWord due t entry c.gen } ∧
          (c.op = .mlease → due = c.issued + 64) ∧
          (∀ k, s.ctxOf c.uid = some k → ∀ p, (s.ctx k).results.find? (fun p => p.reg == .e c.treg) = some p →
            (u.ctx k).results = (s.ctx k).results.erase p ∧
              (u.ctx k).e = (s.ctx k).e.set c.treg.toNat (ticketWord due t entry c.gen))) ∧
      (c.registered = true → c.op ≠ .spmig → c.cancel = none →
        (∃ o, o ∈ (s.tile t).cmds.map (·.2) ∧ o.seq < c.seq ∧ ∃ r ∈ o.ranges, ∃ q ∈ c.ranges, (r.write = true ∨ q.write = true) ∧
          r.scratch = q.scratch ∧ r.space = q.space ∧ r.firstLine ≤ q.lastLine ∧ q.firstLine ≤ r.lastLine) →
        exec (.commandComplete t entry) s = .next { s with
          agenda := insertDue (s.cycle + 1 + Config.latency s.fresh) (.commandComplete t entry) s.agenda, fresh := s.fresh + 1 }) ∧
      (c.registered = true → c.cancel = none → s.cmdReady t c = true → s.cmdDeferred c = false →
        ((s.tile t).cmds.map (·.1)).Pairwise (· < ·) →
        (c.op = .mfmt ∨ c.op = .mgeo ∨ c.op = .mdrain ∨ c.op = .mswap) →
          ∃ u, exec (.commandComplete t entry) s = .next u ∧ u.mem = s.mem ∧ u.frames = s.frames ∧
            (∀ k, s.ctxOf c.uid = some k →
              if (s.ctx k).status = .waiting .sleep then (u.ctx k).status = .ready ∧ (u.ctx k).pc = nextPc (s.ctx k).pc
              else (u.ctx k).wake = true) ∧
            (u.tile t).cmds.get? entry = none ∧
            (u.tile t).gens.get? entry = some ((((s.tile t).gens.get? entry).getD 0 + 1) % 256) ∧
            (c.op = .mfmt → (u.tile t).fmtWord = c.a ∧ (u.tile t).scaleAddr = c.b) ∧
            (c.op = .mgeo → (u.tile t).geoK = bits c.a 0 7 + 1 ∧ (u.tile t).geoN = bits c.a 8 7 + 1) ∧
            (c.op = .mswap → (u.cluster (clusterOf t)).active = (s.cluster (clusterOf t)).shadow ∧
              (u.cluster (clusterOf t)).shadow = (s.cluster (clusterOf t)).active))) ∧
  (∀ (s s' : State) (t entry : Nat) (c : Cmd), s.Performs t entry c → ((s'.tile t).cmds.map (·.1)).Pairwise (· < ·) →
    let x := s.tile t
    let i := clusterOf t
    let param := fun (i : Nat) => c.params.getD i 0
    (c.op = .mloadw → let w := vcvtWidth (bits x.fmtWord 12 4)
      let len := (x.geoN * w + 7) / 8
      let g := (x.geoK + 31) / 32
      let row := fun (r : Nat) => c.a + BitVec.ofNat 64 r * param 0
      let kept := fun (p q : State) => q.cluster i = p.cluster i
      let fill := fun (s : State) (f : Plane → Plane) => s.setCluster i { s.cluster i with shadow := f (s.cluster i).shadow }
      let fresh : Plane := {
        loaded := true, tile := t, wfmt := bits x.fmtWord 12 4, afmt := bits x.fmtWord 8 4, wsc := x.fmtWord.getLsbD 1
        asc := x.fmtWord.getLsbD 0, k := x.geoK, n := x.geoN
        weights := List.replicate (x.geoK * x.geoN) (zeroPattern (bits x.fmtWord 12 4)), scales := [], zeros := List.replicate 64 true }
      ∀ (rows : Nat → List Byte) (scales : List Byte) (s1 s2 : State),
        (∀ r < x.geoK, vclass c.a = .memory → leavesMemory (row r) len = none) →
        (vclass c.b = .memory → leavesMemory c.b (x.geoN * g) = none) →
        inTurn (fun r p q => ∃ p1, p.EngReads t c (row r) len (rows r) p1 ∧ kept p p1 ∧
          q = fill p1 fun z => { z with
            weights := z.weights.take (r * x.geoN) ++ ((List.range x.geoN).map fun col => leNat (rows r) / 2 ^ (w * col) % 2 ^ w) ++
              z.weights.drop ((r + 1) * x.geoN) }) (List.range x.geoK) (fill s fun _ => fresh) s1 →
        (if x.fmtWord.getLsbD 1 then s1.EngReads t c c.b (x.geoN * g) scales s2 ∧ kept s1 s2 else s2 = s1 ∧ scales = []) →
        let weights := (List.range x.geoK).flatMap fun r => (List.range x.geoN).map fun col => leNat (rows r) / 2 ^ (w * col) % 2 ^ w
        ∀ zeros : List Bool, zeros.length = 64 → (∀ b < 64, (zeros.getD b false = true ↔ ∀ r < 16, ∀ col < 16,
          16 * (b / 8) + r < x.geoK → 16 * (b % 8) + col < x.geoN →
          zeroWeight fresh.wfmt (weights.getD ((16 * (b / 8) + r) * x.geoN + (16 * (b % 8) + col)) 0) = true)) →
        s' = fill s2 (fun _ => { fresh with weights := weights, scales := scales.map fun b => b.toNat, zeros := zeros }) →
        s.EndsWith t entry s') ∧
    (c.op = .mstream → let p := (s.cluster i).active
      let own := p.loaded && p.tile == t
      let n := x.geoN
      let s0 := if own then s else { s with tiles := s.tiles.set t { x with lost := true } }
      let sum := fun (acts scales : List Nat) (col : Nat) => if own = false ∨ p.n ≤ col then 0 else
        columnSum p.afmt p.wfmt ((List.range p.k).map fun k => (acts.getD k 0, p.weights.getD (k * p.n + col) 0,
          if p.asc then some (scales.getD (k / 32) 255) else none,
          if p.wsc then some (p.scales.getD (col * ((p.k + 31) / 32) + k / 32) 255) else none)) none
      inTurn (fun r q q' => ∃ acts scales old bs q1 q2, (activations t c p x.scaleAddr r).run.run q = (.ok (acts, scales), q1) ∧
        let win := param 2 + BitVec.ofNat 64 (512 * r)
        (if (param 3).getLsbD 0 then q1.EngReads t c win (4 * n) old q2 else old = List.replicate (4 * n) 0 ∧ q2 = q1) ∧
        bs.length = 4 * n ∧ (∀ col < n, leNat ((bs.drop (4 * col)).take 4) =
          fp32.ofVal 0 (FVal.add 0 (fp32.decode (leNat ((old.drop (4 * col)).take 4))) (fp32.decode (sum acts scales col)))) ∧
        q2.EngWrites t c win bs q') (List.range c.b.toNat) s0 s' → s.EndsWith t entry s')) ∧
  (∀ (s s1 : State) (t : Nat) (c : Cmd) (p : Plane) (scaleAddr : Word) (r : Nat) (acts : List Nat),
    let w := vcvtWidth p.afmt
    let g := (p.k + 31) / 32
    let va := c.a + BitVec.ofNat 64 r * c.params.getD 1 0
    let len := (p.k * w + 7) / 8
    let takes := (p.asc = false → (activations t c p scaleAddr r).run.run s = (.ok (acts, []), s1)) ∧
      ∀ bs s2, p.asc = true → s1.EngReads t c (scaleAddr + BitVec.ofNat 64 (r * g)) g bs s2 →
        (activations t c p scaleAddr r).run.run s = (.ok (acts, bs.map fun b => b.toNat), s2)
    (∀ bs, c.handle = none → (vclass c.a = .memory → leavesMemory va len = none) → s.EngReads t c va len bs s1 →
      acts = (List.range p.k).map (fun k => leNat bs / 2 ^ (w * k) % 2 ^ w) → takes) ∧
    (∀ line, c.handle = some line → c.a.toNat + r < (handleOf line).rows →
      (rowValues t c (handleOf line) (c.a.toNat + r) p.k).run.run s = (.ok acts, s1) → takes)) ∧
  (∀ (afmt wfmt : Nat) (rows : List (Nat × Nat × Option Nat × Option Nat)),
    columnSum afmt wfmt rows none = match (rows.filter fun r => !zeroWeight wfmt r.2.1).map fun r =>
        cellProduct afmt wfmt r.1 r.2.1 r.2.2.1 r.2.2.2 with
      | [] => 0
      | x :: xs => xs.foldl (fun x y => fp32.ofVal 0 (FVal.add 0 (fp32.decode x) (fp32.decode y))) x) ∧
  (∀ (afmt wfmt a w : Nat) (ca cw : Option Nat),
    (ca = some 255 ∨ cw = some 255 → cellProduct afmt wfmt a w ca cw = 0x7FC00000) ∧
    (ca ≠ some 255 → cw ≠ some 255 → let exp := fun (c : Option Nat) => match c with | some x => (x : Int) - 127 | none => 0
      (∀ na ma ea nw mw ew, valOfCode afmt a = .fin na ma ea → valOfCode wfmt w = .fin nw mw ew →
        cellProduct afmt wfmt a w ca cw = fp32.ofVal 0 (.fin (na != nw) (ma * mw) (ea + ew + (exp ca + exp cw)))) ∧
      (valOfCode afmt a = .nan ∨ valOfCode wfmt w = .nan → cellProduct afmt wfmt a w ca cw = 0x7FC00000))) ∧
  (
    (∀ (s : State) (t slot : Nat) (x : Word) (c : Cmd), let k := ctxKey t slot
      let ends := (s.cycle, Event.commandComplete (ticketTile x) (ticketEntry x)) ∈ s.agenda
      (s.ctx k).status = .waiting .ticket → (s.ctx k).waitOn = some x → s.liveCmd x = some c →
      (ends → exec (.promiseDue t slot) s = .next { s with
        agenda := insertDue s.cycle (.promiseDue (k / 32) (k % 32)) s.agenda }) ∧
      (¬ends → s.dueOver c = true → c.missed = false → ∀ first, (s.waitingOn x).head? = some first →
        exec (.promiseDue t slot) s = .next (s.asCtx first fun s => s.missPromise c)) ∧
      (¬ends → s.dueOver c = false → exec (.promiseDue t slot) s = .next s)) ∧
    (∀ (s : State) (c : Nat) (l : Lease) (rest : List Lease), (∀ o ∈ l :: rest, o.leaving = false) →
      (l.granted = true ∨ ∀ o ∈ rest, o.granted = true → o.tile ≠ l.tile) →
      (∀ p, s.leaseCmd l = some p → p.2.registered = true) → ((s.tile l.tile).cmds.map (·.1)).Pairwise (· < ·) →
      let next := fun (rest : List Lease) => { s.cluster c with
        holder := some { l with granted := true }, leaseQ := rest, grantAt := s.cycle, count := 0, ending := [] }
      let granted := fun (u : State) => (s.cycle + 4096, Event.leaseRearbitrate c) ∈ u.agenda ∧
        ∀ p, s.leaseCmd l = some p → (u.tile l.tile).cmds.get? p.1 = none
      ((s.cluster c).holder = none → (s.cluster c).leaseQ = l :: rest →
        ∃ u, exec (.leaseGrant c) s = .next u ∧ u.cluster c = next rest ∧ granted u) ∧
      (∀ h, (s.cluster c).holder = some h → (s.cluster c).leaseQ = l :: rest → h.leaving = false → h.tile ≠ l.tile →
        64 ≤ (s.cluster c).count → ∃ u, exec (.leaseRearbitrate c) s = .next u ∧ u.cluster c = next (rest ++ [h]) ∧ granted u)) ∧
    (∀ (s : State) (c : Nat) (h : Lease), (s.cluster c).holder = some h → (∀ o ∈ (s.cluster c).leaseQ, o.tile = h.tile) →
      (64 ≤ (s.cluster c).count ∨ (s.cluster c).grantAt + 4096 ≤ s.cycle) →
      ∃ u, exec (.leaseRearbitrate c) s = .next u ∧
        u.cluster c = { s.cluster c with grantAt := s.cycle, count := 0, ending := [] }))

/-- What the engines' data commands leave when they are performed. An engine's read gives the bytes of its place and changes
none; its write changes those bytes alone. A copy writes to its destination runs, in ascending order, the source runs as they
stood before. GATHER and SCATTER move rows between the scratchpad side and the table rows that an index list or a handle's row
names, in ascending order; SCATTER.ADD adds each element of them into a commutative range. HLD writes the dense image of a
handle's rows, absent entries zero, and HST writes the image's values to the entries that the structure holds (R255, R266, R267,
R268, R270, R272, R365, R405). Choices of the model that it rests on: logs 2, 81. -/
def Obligations.EngineEffects : Prop :=
  (∀ (s : State) (t : Nat) (c : Cmd) (va : Word) (off n : Nat), State.scratchAt va off → s.specs = [] → Memory.wf s.frames = true →
    let l := s.launch c.lq
    let pg := fun (i : Nat) => s.page c.blk ((off + i) / 2048)
    let at_ := fun (i : Nat) => frameBase (pg i).tile (pg i).frame + (off + i) % 2048
    (s.blocks.get? c.blk).isSome = true → l.sppages ≤ 8192 → off + n ≤ 2048 * l.sppages → (s.block c.blk).xb ≤ off →
    (∀ i < n, (pg i).st = .framed ∧ (pg i).lock = false ∧ s.frameIsBad c.blk ((off + i) / 2048) = false) →
    (∃ s', s.EngReads t c va n ((List.range n).map fun i => Cells.read s.frames (at_ i)) s' ∧ s'.mem = s.mem ∧ s'.frames = s.frames) ∧
    (∀ bs : List Byte, bs.length = n → (∀ i < n, ∀ j < n, at_ i = at_ j → i = j) → ∃ s', s.EngWrites t c va bs s' ∧ s'.mem = s.mem ∧
      (∀ i < n, Cells.read s'.frames (at_ i) = bs.getD i 0) ∧
      ∀ a, (∀ i < n, a ≠ at_ i) → Cells.read s'.frames a = Cells.read s.frames a)) ∧
  (∀ (s s1 : State) (t : Nat) (c : Cmd) (va : Word) (n pa : Nat) (rd w : Bool), vclass va = .memory → 0 < n → va.toNat % 64 + n ≤ 64 →
    s.translate (State.engLook (dieOf t)) t c.asid va = (s1, some (.ok pa 0 rd w)) → isDevice pa = true → s1.poisoned pa = false →
    s1.specs = [] → s1.parts = [] → s1.priv = [] → s1.linksDown = [] → s1.lineBusy (pa / 64) = false →
    (rd = true → ∃ s', s.EngReads t c va n (s1.bytesAt pa n) s' ∧ s'.mem = s1.mem ∧ s'.frames = s1.frames) ∧
    (∀ bs : List Byte, w = true → bs.length = n → (s1.launch c.lq).regions = [] →
      ∃ s', s.EngWrites t c va bs s' ∧ s'.mem = Cells.writeN s1.mem pa bs ∧ s'.frames = s1.frames)) ∧
  (∀ (s s' : State) (t entry : Nat) (c : Cmd), s.Performs t entry c → ((s'.tile t).cmds.map (·.1)).Pairwise (· < ·) →
    let str := fun (i : Nat) => c.params.getD i 0
    (c.op ∈ [.cpy, .cpy2, .cpy3] →
      let len := (str 0).toNat % 2 ^ 32
      let n1 := if c.op = .cpy then 1 else (str 3).toNat % 2 ^ 32
      let n2 := if c.op = .cpy3 then (str 3).toNat / 2 ^ 32 else 1
      let at_ := fun (base : Word) (outer inner i : Nat) =>
        base + (BitVec.ofNat 64 (i / n1) * str outer + BitVec.ofNat 64 (i % n1) * str inner)
      let inside := fun (base va : Word) => vclass base = .memory → leavesMemory va len = none
      (∀ i < n1 * n2, inside c.b (at_ c.b 4 1 i) ∧ inside c.a (at_ c.a 5 2 i)) → ∀ (data : Nat → List Byte) (s1 : State),
        inTurn (fun i x y => x.EngReads t c (at_ c.b 4 1 i) len (data i) y) (List.range (n1 * n2)) s s1 →
        inTurn (fun i x y => x.EngWrites t c (at_ c.a 5 2 i) (data i) y) (List.range (n1 * n2)) s1 s' → s.EndsWith t entry s') ∧
    (c.op ∈ [.gather, .scatter, .scatterAdd] →
      let moves := fun (n rb cf : Nat) (base stride : Word) (index : Nat → State → Nat → State → Prop) (s0 : State) =>
        let side := fun (i : Nat) => c.a + BitVec.ofNat 64 (i * rb)
        let row := fun (x : Nat) => base + BitVec.ofNat 64 x * stride
        let fmt : CrFmt := match cf with | 0 => .i64 | 1 => .f32 | _ => .f64
        let w := CrFmt.bytes fmt
        (∀ i < n, ∃ off, State.scratchAt (side i) off ∧ off + rb ≤ 2 ^ 24) →
          (c.op = .gather → inTurn (fun i p q => ∃ x bs p1 p2, index i p x p1 ∧ p1.EngReads t c (row x) rb bs p2 ∧
            p2.EngWrites t c (side i) bs q) (List.range n) s0 s' → s.EndsWith t entry s') ∧
          (c.op = .scatter → inTurn (fun i p q => ∃ x bs p1 p2, index i p x p1 ∧ p1.EngReads t c (side i) rb bs p2 ∧
            p2.EngWrites t c (row x) bs q) (List.range n) s0 s' → s.EndsWith t entry s') ∧
          (c.op = .scatterAdd → inTurn (fun i p q => ∃ x bs p1 p2, index i p x p1 ∧ p1.EngReads t c (side i) rb bs p2 ∧
            inTurn (fun k p q => ∃ r p1 pa, p.commRange c.lq (row x + BitVec.ofNat 64 (k * w)) = some r ∧ r.fmt = fmt ∧
              (row x + BitVec.ofNat 64 (k * w)).toNat % w = 0 ∧
              (engPlace t c (row x + BitVec.ofNat 64 (k * w)) true).run.run p = (.ok (.mem pa, 0), p1) ∧
              p1.craddAt (dieOf t) pa fmt (BitVec.ofNat 64 (leNat ((bs.drop (k * w)).take w))) = some q) (List.range (rb / w)) p2 q)
            (List.range n) s0 s' → s.EndsWith t entry s')
      (c.handle = none → let ctl := str 2
        let n := if ctl.getLsbD 40 then 8 else 4
        moves (bits ctl 16 17) (8 * bits ctl 0 10) (bits ctl 44 2) (str 0) (str 1)
          (fun i p x q => ∃ bs, p.EngReads t c (c.b + BitVec.ofNat 64 (n * i)) n bs q ∧ x = leNat bs) s) ∧
      (∀ line first n s0, c.handle = some line → let h := handleOf line
        c.b.toNat < h.rows → (rowSize t c h c.b.toNat).run.run s = (.ok (n, first), s0) → n ≤ h.cols →
        moves n (8 * h.grow) h.cf h.gbase h.gstride
          (fun i p x q => ∃ e, (rowEntry t c h c.b.toNat first i).run.run p = (.ok e, q) ∧ x = e.col) s0)) ∧
    (∀ line, c.handle = some line → let h := handleOf line
      let pitch := (h.cols * h.width + 63) / 64 * 8
      let rows := List.range (min (max h.blk 1) (h.rows - c.b.toNat))
      let image := fun (j : Nat) => c.a + BitVec.ofNat 64 (j * pitch)
      (c.op = .hld → inTurn (fun j p q => ∃ vs bs p1, (rowValues t c h (c.b.toNat + j) h.cols).run.run p = (.ok vs, p1) ∧
        bs.length = pitch ∧ leNat bs = vs.foldr (fun v acc => v + 2 ^ h.width * acc) 0 ∧ p1.EngWrites t c (image j) bs q) rows s s' →
        s.EndsWith t entry s') ∧
      (c.op = .hst → inTurn (fun j p q => ∃ es p1, (rowEntries t c h (c.b.toNat + j)).run.run p = (.ok es, p1) ∧
        inTurn (fun k p q => ∃ v p1, (readValue t c (image j) h.width (es.getD k ⟨0, 0, 0⟩).col).run.run p = (.ok v, p1) ∧
          (writeValue t c (es.getD k ⟨0, 0, 0⟩).base h.width (es.getD k ⟨0, 0, 0⟩).idx v).run.run p1 = (.ok (), q))
          (List.range es.length) p1 q) rows s s' → s.EndsWith t entry s'))) ∧
  (∀ (s s1 : State) (t : Nat) (c : Cmd) (h : Handle) (i first j : Nat) (bs : List Byte),
    let p := if h.isz then 8 else 4
    let entry := fun (e : Entry) (s1 : State) =>
      (e.col < h.cols → (rowEntry t c h i first j).run.run s = (.ok e, s1)) ∧
      (h.cols ≤ e.col → (rowEntry t c h i first j).run.run s = (.error (.fault 0x03), s1))
    (h.f1 = 0 → (rowSize t c h i).run.run s = (.ok (h.cols, 0), s) ∧ entry ⟨j, h.val + BitVec.ofNat 64 i * h.vstride, j⟩ s) ∧
    (h.f1 = 1 → (∀ s2 hi, s.EngReads t c (h.pos + BitVec.ofNat 64 (p * i)) p bs s1 →
        s1.EngReads t c (h.pos + BitVec.ofNat 64 (p * (i + 1))) p hi s2 → (rowSize t c h i).run.run s =
          if leNat hi < leNat bs then (.error (.fault 0x03), s2) else (.ok (leNat hi - leNat bs, leNat bs), s2)) ∧
      (s.EngReads t c (h.crd + BitVec.ofNat 64 (p * (first + j))) p bs s1 → entry ⟨leNat bs, h.val, first + j⟩ s1)) ∧
    (h.f1 = 2 → (rowSize t c h i).run.run s = (.ok (1, i), s) ∧
      (s.EngReads t c (h.crd + BitVec.ofNat 64 (p * i)) p bs s1 → entry ⟨leNat bs, h.val, i⟩ s1)) ∧
    (h.f1 = 3 → let n := 8 * ((h.cols + 63) / 64)
      s.EngReads t c (h.pos + BitVec.ofNat 64 (n * i)) n bs s1 →
        let set_ := (List.range (8 * n)).filter fun k => (leNat bs).testBit k
        (j < set_.length → entry ⟨set_.getD j 0, h.val, first + j⟩ s1) ∧
        ∀ s2 s3 lo hi, s1.EngReads t c (h.crd + BitVec.ofNat 64 (p * i)) p lo s2 →
          s2.EngReads t c (h.crd + BitVec.ofNat 64 (p * (i + 1))) p hi s3 → (rowSize t c h i).run.run s =
            if leNat hi < leNat lo then (.error (.fault 0x03), s3) else (.ok (set_.length, leNat lo), s3)) ∧
    (h.f1 = 4 → (rowSize t c h i).run.run s = (.ok (h.cols / 2, 0), s) ∧
      (s.EngReads t c (h.pos + BitVec.ofNat 64 (i * (h.cols / 4) + j / 2)) 1 bs s1 →
        entry ⟨4 * (j / 2) + leNat bs / 4 ^ (j % 2) % 4, h.val, i * (h.cols / 2) + j⟩ s1))) ∧
  (∀ (s s1 s2 : State) (t : Nat) (c : Cmd) (h : Handle) (i n : Nat) (es : List Entry) (val : Nat → Nat),
    (rowEntries t c h i).run.run s = (.ok es, s1) → (∀ e ∈ es, e.col < n) → (es.map fun e => e.col).Nodup →
    inTurn (fun k p q => (readValue t c (es.getD k ⟨0, 0, 0⟩).base h.width (es.getD k ⟨0, 0, 0⟩).idx).run.run p = (.ok (val k), q))
      (List.range es.length) s1 s2 →
    ∃ vs, (rowValues t c h i n).run.run s = (.ok vs, s2) ∧ vs.length = n ∧
      (∀ k < es.length, vs.getD (es.getD k ⟨0, 0, 0⟩).col 0 = val k) ∧
      ∀ col < n, (∀ e ∈ es, e.col ≠ col) → vs.getD col 0 = zeroPattern h.vfmt) ∧
  (∀ (s s1 : State) (t : Nat) (c : Cmd) (base : Word) (w idx v : Nat) (bs : List Byte),
    (w ≠ 4 → let va := base + BitVec.ofNat 64 (w / 8 * idx)
      (s.EngReads t c va (w / 8) bs s1 → (readValue t c base w idx).run.run s = (.ok (leNat bs), s1)) ∧
      (s.EngWrites t c va (leBytes (w / 8) v) s1 → (writeValue t c base w idx v).run.run s = (.ok (), s1))) ∧
    (w = 4 → let va := base + BitVec.ofNat 64 (idx / 2)
      s.EngReads t c va 1 bs s1 → let b := leNat bs
        (readValue t c base w idx).run.run s = (.ok (if idx % 2 = 0 then b % 16 else b / 16 % 16), s1) ∧
        ∀ s2, s1.EngWrites t c va (leBytes 1 (if idx % 2 = 0 then b / 16 * 16 + v else b % 16 + 16 * v)) s2 →
          (writeValue t c base w idx v).run.run s = (.ok (), s2)))

/-- What an access does to an uncommitted ordered task Y whose signature holds its line, where no other task is hit: one ordered
after Y does nothing; a load over a line that Y has written aborts Y, and waits where it is a free one; a store aborts Y where Y
has written the line, or has read it and cannot be repaired, and asks for Y's repair where it overlaps Y's symbolic loads and no
more, which a free store does not wait for and aborts; a signature's false hit is dissolved; every abort ends before the access,
which waits while one cannot be made, and repairs come after it (R180, R184, R185, R186, R187). Choices of the model that it
rests on: logs 8, 60. -/
def Obligations.Conflicts : Prop :=
  ∀ (s : State) (who : Party) (loc : Loc) (n uid : Nat) (y : Spec), (s.specs.map (·.1)).Pairwise (· < ·) →
    s.specs.get? uid = some y → y.task.uid = uid → y.unlogged = false →
    (match loc with | .mem pa => s.specNames (pa / 64) y.tile y.task.lq = true | .scr b _ => y.task.blk = b) →
    let line := sigKey loc
    let settled := fun (t : State) => match loc with | .mem pa => t.specPrune (pa / 64) | .scr _ _ => t
    let alone := fun (store : Bool) => ∀ e ∈ s.specs, e.1 ≠ uid → s.hitOn who store loc n e.2 = .none
    let nothing := fun (store : Bool) => s.resolve who store loc n = some (settled s, [])
    let aborts := fun (store : Bool) =>
      (s.restoreHeld uid = true → s.resolve who store loc n = none) ∧
      (s.restoreHeld uid = false → s.resolve who store loc n = some (settled (s.abortAll [(uid, true)] []), []))
    let wrote := memberW y.wsig line = true ∧ ∃ u ∈ y.undo, ∃ at_, u.loc = some at_ ∧ sigKey at_ = line
    let later := ∃ u x, who = .ordered u ∧ s.specs.get? u = some x ∧ x.task.lq = y.task.lq ∧ (u = uid ∨ x.before y = false)
    let earlier := ∃ u x, who = .ordered u ∧ u ≠ uid ∧ s.specs.get? u = some x ∧ x.task.lq = y.task.lq ∧ x.before y = true
    (later → ∀ store, alone store → nothing store) ∧
    (alone false →
      (earlier ∨ who = .free → ¬wrote → nothing false) ∧
      (earlier → wrote → aborts false) ∧
      (who = .free → wrote → s.resolve who false loc n = none)) ∧
    (alone true → earlier ∨ who = .free →
      let repairable := y.elig = true ∧ ∃ x ∈ y.syms, locOverlap x.loc x.size loc n = true
      (wrote → aborts true) ∧
      (¬wrote → memberR y.rsig line = false → nothing true) ∧
      (¬wrote → memberR y.rsig line = true →
        (y.elig = false → aborts true) ∧
        (repairable → earlier → s.resolve who true loc n = some (settled s, [uid])) ∧
        (repairable → who = .free → aborts true) ∧
        (y.elig = true → ¬repairable → line ∈ y.plain → aborts true) ∧
        (y.elig = true → ¬repairable → line ∉ y.plain → nothing true)))

/-! ## Ordering, barriers, waits and publication -/

/-- FENCE and FENCE.X go on once the context's stores, and for FENCE.X the task's commands, are performed, and at once in an
ordered task; what the stream ports hold is fetched again after them; WAIT reads its operands once and goes on when its dword
differs from X(b), which it loads once more after each performed write to the line; SLEEP goes on at a pending wake event (R177,
R217, R228, R393, R444, R494). Choices of the model that it rests on: logs 30, 103. -/
def Obligations.FencesAndWaits : Prop :=
  (∀ (s : State) (c : Scope) (sc : Stall), s.issues [] [] = true →
    (s.ordered = true → exec (.fence c sc) s = .next (s.retire sc) ∧ exec (.fenceX c sc) s = .next (s.retire sc)) ∧
    (s.ordered = false →
      (c = .ctx ∨ s.ownPending = false → exec (.fence c sc) s = .next ((if c = .ctx then s else s.refetch).retire sc) ∧
        ((∀ t ∈ s.tiles, ∀ d ∈ t.2.cmds, d.2.uid ≠ s.cx.task.uid) → exec (.fenceX c sc) s = .next (s.refetch.retire sc)) ∧
        (∀ t ∈ s.tiles, ∀ d ∈ t.2.cmds, d.2.uid = s.cx.task.uid → exec (.fenceX c sc) s = .next (s.wait .fence))) ∧
      (c ≠ .ctx → s.ownPending = true →
        exec (.fence c sc) s = .next (s.wait .fence) ∧ exec (.fenceX c sc) s = .next (s.wait .fence)))) ∧
  (∀ (s : State) (c : Scope) (a b : Reg) (sc : Stall), (s.ordered = true → exec (.wait c a b sc) s = .next s.trapIllegal)) ∧
  (∀ (s : State) (c : Scope) (a b : Reg) (sc : Stall), s.ordered = false →
    let u := s.cx.task.uid
    let watching := fun (s1 : State) (va x : Word) (loc : Loc) =>
      { s1 with watches := { uid := u, va := va, val := x, loc := loc, due := false } :: s1.watches }
    (s.watchOf u = none → s.issues [.w a, .w b] [] = true →
      ((s.rd a).toNat % 8 ≠ 0 → exec (.wait c a b sc) s = .next (s.trap 0x02 (s.rd a) 8)) ∧
      ((s.rd a).toNat % 8 = 0 → ∀ s1 loc mt s2 bs, s.Passes (s.rd a) .watch s1 loc mt → s1.Loads (s.rd a) 8 loc mt s2 bs →
        let s3 := (s2.useTagged [a, b]).popPorts [a, b]
        (leNat bs = (s.rd b).toNat → exec (.wait c a b sc) s = .next ((watching s3 (s.rd a) (s.rd b) loc).hold .memWord)) ∧
        (leNat bs ≠ (s.rd b).toNat → exec (.wait c a b sc) s = .next (s3.refetch.retire sc)))) ∧
    (∀ w, s.watchOf u = some w → w.va.toNat % 8 = 0 →
      ∀ s1 loc mt s2 bs, s.Passes w.va .watch s1 loc mt → s1.Loads w.va 8 loc mt s2 bs →
      (leNat bs = w.val.toNat → exec (.wait c a b sc) s = .next ((watching (s2.endWatch u) w.va w.val loc).wait .memWord)) ∧
      (leNat bs ≠ w.val.toNat → exec (.wait c a b sc) s = .next ((s2.endWatch u).refetch.retire sc)))) ∧
  (∀ (s : State) (k : Nat) (c : Ctx), s.ctxs.get? k = some c → c.status = .waiting .memWord →
    (∀ w ∈ s.watches, w.uid = c.task.uid → w.due = false) → s.mayIssue k = false) ∧
  (∀ (s : State) (x : Option Nat) (pa n : Nat) (bs : List Byte), 0 < n → bs.length = n → ∀ w, w ∈ (s.writeAt x pa bs).watches ↔
    ∃ v ∈ s.watches, w = match v.loc with
      | .mem a => if pa / 64 ≤ a / 64 ∧ a / 64 ≤ (pa + n - 1) / 64 then { v with due := true } else v
      | .scr _ _ => v) ∧
  (∀ (s : State) (sc : Stall), s.issues [] [] = true →
    (s.ordered = true → exec (.sleep sc) s = .next s.trapIllegal) ∧
    (s.ordered = false →
      (s.inSystem = true → exec (.sleep sc) s = .next (s.retire sc)) ∧
      (s.inSystem = false → s.cx.wake = true → exec (.sleep sc) s = .next ((s.setCx { s.cx with wake := false }).retire sc)) ∧
      (s.inSystem = false → s.cx.wake = false →
        exec (.sleep sc) s = .next (s.issuedCtx { s.cx with status := .waiting .sleep, next := s.cycle + s.span s.here (stallCycles sc) })))) ∧
  (∀ (s : State) (k : Nat) (c : Ctx), s.ctxs.get? k = some c → c.status = .waiting .sleep → State.mayTry c.status = false ∧
    (s.wakeCtx k).ctxs.get? k = some { c with
      pc := nextPc c.pc, status := .ready, wake := false, next := max c.next (s.cycle + 1) })

/-- BAR arrives at the object, and either releases it and goes on or waits for its generation to pass, which no uncommitted
store shows it; BARJOIN and BARLEAVE register and leave; each leaves the bytes that R223 and R224 give, or raises the trap that
they name (R177, R223, R224). -/
def Obligations.Barriers : Prop :=
  (∀ (s : State) (c : Scope) (a : Reg) (sc : Stall), s.ordered = true →
    (s.cx.barGen = none → exec (.bar c a sc) s = .next s.trapIllegal) ∧ exec (.barjoin c a sc) s = .next s.trapIllegal ∧
      exec (.barleave c a sc) s = .next s.trapIllegal) ∧
  (∀ (s : State) (c : Scope) (a : Reg) (sc : Stall), s.issues [.w a] [] = true →
    let va := s.rd a
    let fresh := s.cx.barGen = none ∧ (c = .ctx ∨ s.ownPending = false)
    let joins := s.cx.regs.length < 4
    let leaves := va ∈ s.cx.regs
    (s.ordered = false → va.toNat % 16 ≠ 0 → (s.cx.barGen = none → exec (.bar c a sc) s = .next (s.trap 0x02 va 16)) ∧
      exec (.barjoin c a sc) s = .next (s.trap 0x02 va 16) ∧ exec (.barleave c a sc) s = .next (s.trap 0x02 va 16)) ∧
    (s.ordered = false → va.toNat % 16 = 0 →
      (s.cx.barGen = none → c ≠ .ctx → s.ownPending = true → exec (.bar c a sc) s = .next (s.wait .store)) ∧
      (¬joins → exec (.barjoin c a sc) s = .next (s.trap 0x03 va 0)) ∧
      (¬leaves → exec (.barleave c a sc) s = .next (s.trap 0x03 va 0))) ∧
    (s.ordered = false → va.toNat % 16 = 0 → ∀ s1 loc mt, s.Passes va .object s1 loc mt → ∀ s2 old,
      let b := State.barrierOf old
      (fresh → s1.Updates va 16 loc (State.objectStep State.barStep) s2 old →
        (2 ≤ b.flags → exec (.bar c a sc) s = .next (s2.trap 0x03 va 0)) ∧
        (b.flags < 2 → b.expected ≤ b.arrived → exec (.bar c a sc) s = .next (s2.trap 0x0A va (BitVec.ofNat 64 b.expected))) ∧
        (b.flags < 2 → b.arrived + 1 = b.expected → exec (.bar c a sc) s = .next (((s2.wakeBarrier loc).refetch).doneAt a sc)) ∧
        (b.flags < 2 → b.arrived + 1 < b.expected → exec (.bar c a sc) s = .next (s2.issuedCtx { s2.cx with
          barGen := some (va, BitVec.ofNat 32 b.gen), status := .waiting .barrier, next := s2.cycle + 1 }))) ∧
      (joins → s1.Updates va 16 loc (State.objectStep State.joinStep) s2 old →
        (State.joinStep b = none → exec (.barjoin c a sc) s = .next (s2.trap 0x03 va 0)) ∧
        ((State.joinStep b).isSome = true →
          exec (.barjoin c a sc) s = .next ((s2.setCx { s2.cx with regs := s2.cx.regs ++ [va] }).doneAt a sc))) ∧
      (leaves → s1.Updates va 16 loc (State.objectStep State.leaveStep) s2 old →
        (State.leaveStep b = none → exec (.barleave c a sc) s = .next (s2.trap 0x03 va 0)) ∧
        ((State.leaveStep b).isSome = true →
          let s3 := s2.setCx { s2.cx with regs := s2.cx.regs.erase va }
          exec (.barleave c a sc) s = .next
            ((if b.arrived ≠ 0 ∧ b.arrived = (b.expected + 2 ^ 32 - 1) % 2 ^ 32 then s3.wakeBarrier loc else s3).doneAt a sc))))) ∧
  (∀ (s : State) (c : Scope) (a : Reg) (sc : Stall) (va : Word) (g : BitVec 32) (loc : Loc),
    s.cx.barGen = some (va, g) → s.locate s.cx.task.lq s.cx.task.blk va .read = .inl loc →
    let waits := exec (.bar c a sc) s = .next (s.wait .barrier)
    ((s.barrierAt loc).gen = g.toNat → waits) ∧
    ((s.barrierAt loc).gen ≠ g.toNat →
      (s.resolve .free false loc 16 = none → waits) ∧
      (∀ s1 reps, s.resolve .free false loc 16 = some (s1, reps) → (s1.barrierAt loc).gen ≠ g.toNat →
        exec (.bar c a sc) s = .next (((s1.setCx { s1.cx with barGen := none }).refetch).doneAt a sc)))) ∧
  (∀ (s : State) (loc : Loc), (s.ctxs.map (·.1)).Pairwise (· < ·) → ∀ k c, s.ctxs.get? k = some c →
    (s.wakeBarrier loc).ctxs.get? k = some
      (if c.regs.any fun va => s.locate c.task.lq c.task.blk va .read == .inl loc then State.wokenCtx c s.cycle else c))

/-- PUBLISH on a descriptor with phase 0 declares its region and sets phase to 1; on a declared one it closes the phase, after
those that came before it: the private copies are written out die by die, phase goes up by one and the publisher goes on (R177,
R232, R233, R235). Choices of the model that it rests on: log 34. -/
def Obligations.Publication : Prop :=
  (∀ (s : State) (c : Scope) (a : Reg) (sc : Stall), s.ordered = true → exec (.publish c a sc) s = .next s.trapIllegal) ∧
  (∀ (s : State) (c : Scope) (a : Reg) (sc : Stall), s.issues [.w a] [] = true → (c = .pkg ∨ c = .sys) →
    let desc := s.rd a
    let lq := s.cx.task.lq
    let code := if c = .pkg then 4 else 5
    (s.ordered = false → desc.toNat % 64 ≠ 0 → exec (.publish c a sc) s = .next (s.trap 0x02 desc 64)) ∧
    (s.ordered = false → desc.toNat % 64 = 0 → s.ownPending = true → exec (.publish c a sc) s = .next (s.wait .store)) ∧
    (s.ordered = false → desc.toNat % 64 = 0 → s.ownPending = false → ∀ s1 loc mt s0 pa mt2 s2, s.Passes desc .load s1 loc mt →
      s1.Passes desc .store s0 (.mem pa) mt2 → s0.readClaim (.mem pa) 64 = some s2 → s2.parts = [] →
      (s2.l2Holds pa = true ∨ s2.coherent pa = false) → pa + 64 ≤ 0xC000000000000 →
      (∀ r, r.desc = desc → State.describes (s2.bytesAt pa 64) code r →
        (s2.dwordAt (pa + 16) = 0 → s2.myLaunch.regions.length < 8 → (∀ x ∈ s2.myLaunch.regions, State.apart r x.base x.len) →
          (∀ x ∈ s2.myLaunch.ranges, State.apart r x.base x.len) → ∀ s3 old,
          s2.Updates desc 64 (.mem pa) (fun old => some (old.take 16 ++ leBytes 8 1 ++ old.drop 24)) s3 old →
          exec (.publish c a sc) s =
            .next (((s3.onLaunch lq fun l => { l with regions := l.regions ++ [r] }).refetch).doneAt a sc)) ∧
        (s2.dwordAt (pa + 16) = 0 → (8 ≤ s2.myLaunch.regions.length ∨ (∃ x ∈ s2.myLaunch.regions, ¬State.apart r x.base x.len) ∨
            ∃ x ∈ s2.myLaunch.ranges, ¬State.apart r x.base x.len) →
          exec (.publish c a sc) s = .next (s2.trap 0x03 desc 0)) ∧
        (s2.dwordAt (pa + 16) ≠ 0 → ∀ x l, s2.launches.get? lq = some l → s2.cx.task.lq = lq →
          l.regions.find? (fun y => y.desc == desc) = some x →
          ∃ t : State, exec (.publish c a sc) s = .next t ∧ (t.ctx s2.cur).status = .waiting .publish ∧
            t.launches.get? lq = some { l with regions := l.regions.map fun y => if y.desc = desc then (if x.closer.isSome
              then { y with queue := y.queue ++ [(s2.cur, sc, a)] } else { y with closer := some (s2.cur, sc, a) }) else y } ∧
            t.agenda = (if x.closer.isSome then s2.agenda
              else insertDue (s2.cycle + 1 + Config.latency s2.fresh) (.publishComplete s2.here s2.slot) s2.agenda) ∧
            t.mem = s2.mem ∧ t.frames = s2.frames)) ∧
      (leNat (((s2.bytesAt pa 64).drop 24).take 1) ≠ code ∨ (∃ b ∈ (s2.bytesAt pa 64).drop 25, b ≠ 0) →
        exec (.publish c a sc) s = .next (s2.trap 0x03 desc 0)))) ∧
  (∀ (s : State) (tile slot : Nat) (r : PubRegion) (sc : Stall) (a : Reg),
    let k := ctxKey tile slot
    let lq := (s.ctx k).task.lq
    ∀ l pa, s.launches.get? lq = some l → r ∈ l.regions → r.closer = some (k, sc, a) →
    (∀ x ∈ l.regions, x.closer.map (·.1) = some k ∨ x.desc = r.desc → x = r) →
    (∃ loc, s.locate lq (s.ctx k).task.blk r.desc .read = .inl loc) →
    s.locate lq (s.ctx k).task.blk r.desc .write = .inl (.mem pa) → pa + 64 ≤ 0xC000000000000 →
    let mine := s.priv.filter fun p => p.lq == lq && p.desc == r.desc
    let copies := sortBy (fun (a b : PrivLine) => a.die < b.die) mine
    s.specs = [] → s.parts = [] →
    (∀ p ∈ mine, s.lineBusy p.line = false ∧ s.stuck p.line none = [] ∧ s.poison.contains p.line = false) →
    let mem := (copies.flatMap fun p => p.bytes).foldl (fun m e => Cells.write m e.1 e.2) s.mem
    let phase := leNat ({ s with mem := mem }.bytesAt (pa + 16) 8)
    copies.Perm mine ∧ copies.Pairwise (fun p q => p.die ≤ q.die) ∧
    ∃ t : State, exec (.publishComplete tile slot) s = .next t ∧ t.mem = Cells.writeN mem (pa + 16) (leBytes 8 (phase + 1)) ∧
      t.frames = s.frames ∧ t.priv = s.priv.filter (fun p => !(p.lq == lq && p.desc == r.desc)) ∧
      (t.ctx k).pc = BitVec.ofNat 24 ((s.ctx k).pc.toNat + 4) ∧ (t.ctx k).status = .ready ∧
      t.launches.get? lq = some { l with regions := l.regions.map fun y => if y.desc = r.desc then (match r.queue with
        | [] => { y with closer := none }
        | n :: rest => { y with closer := some n, queue := rest }) else y })

/-! ## Special registers -/

/-- CSRR gives the register's value; CSRW, CSRS and CSRC change its RW bits alone and no other register; xb takes whole pages
inside the window where the context is privileged; a written 1 clears rbstat.lost (R45, R74, R75, R87, R113, R261, R269, R271,
R280, R373, R374). Choices of the model that it rests on: log 36. -/
def Obligations.SpecialRegisters : Prop :=
  (∀ (s : State) (d : Reg) (csr : BitVec 10) (sc : Stall), s.issues [] [.w d] = true →
    exec (.csrr d csr sc) s = .next ((s.putW d (s.csrRead csr.toNat) 0 (.variable 1)).retire sc)) ∧
  (∀ s : State,
    let c := s.cx
    let x := s.tile s.here
    s.csrRead 0x000 = c.psw ∧ s.csrRead 0x001 = c.ctxf ∧ s.csrRead 0x002 = c.w[63] ∧
    s.csrRead 0x003 = BitVec.ofNat 64 s.myBlock.xb ∧
    s.csrRead 0x004 = BitVec.ofNat 64 (s.node * 2 ^ 32 + s.slot * 2 ^ 16 + s.here) ∧
    (∀ i < 8, elem (s.csrRead 0x005) 4 i = min 15 ((s.levelIndices s.here s.slot none s.myLaunch.dmap).getD i 0)) ∧
    s.csrRead 0x006 = BitVec.ofNat 64 s.cycle ∧
    s.csrRead 0x007 = BitVec.ofNat 64 (s.gvtAt s.here c.task.lq / 2 ^ 32) ∧
    s.csrRead 0x008 = BitVec.ofNat 64 (s.gvtAt s.here c.task.lq % 2 ^ 32) ∧
    s.csrRead 0x009 = (if c.task.ord then BitVec.ofNat 64 c.task.tb.toNat else 0) ∧
    s.csrRead 0x010 = c.user.cause ∧ s.csrRead 0x011 = c.user.epc ∧ s.csrRead 0x012 = c.user.epsw ∧
    s.csrRead 0x013 = c.user.word ∧ s.csrRead 0x014 = c.user.val2 ∧ s.csrRead 0x015 = c.user.scratch ∧
    s.csrRead 0x018 = c.sup.cause ∧ s.csrRead 0x019 = c.sup.epc ∧ s.csrRead 0x01A = c.sup.epsw ∧
    s.csrRead 0x01B = c.sup.word ∧ s.csrRead 0x01C = c.sup.val2 ∧ s.csrRead 0x01D = c.sup.scratch ∧
    (∀ n ∈ [0x016, 0x017, 0x01E, 0x01F], s.csrRead n = 0) ∧
    (∀ i : Fin 8,
      (∀ j : Fin 4, s.csrRead (0x100 + 16 * i + j) = x.reed[i][j]) ∧ (∀ j < 15, 4 ≤ j → s.csrRead (0x100 + 16 * i + j) = 0) ∧
      (∀ j : Fin 3, s.csrRead (0x180 + 8 * i + j) = x.heron[i][j]) ∧ (∀ j < 8, 3 ≤ j → s.csrRead (0x180 + 8 * i + j) = 0) ∧
      (∀ j : Fin 6, s.csrRead (0x1C0 + 8 * i + j) = x.lode[i][j]) ∧ (∀ j < 8, 6 ≤ j → s.csrRead (0x1C0 + 8 * i + j) = 0) ∧
      let k := s.cluster (clusterOf s.here)
      let r := s.csrRead (0x10F + 16 * i)
      r.toNat < 256 ∧ r.toNat % 8 = 0 ∧ r.getLsbD 7 = x.lost ∧ r.getLsbD 6 = (k.active.loaded && k.active.tile == s.here) ∧
        r.getLsbD 5 = (k.shadow.loaded && k.shadow.tile == s.here) ∧ r.getLsbD 4 = k.leaseQ.any (fun l => l.tile == s.here) ∧
        r.getLsbD 3 = k.holder.any (fun l => l.tile == s.here && !l.leaving))) ∧
  (∀ p ∈ csrOps, ∀ (s : State) (a : Reg) (csr : BitVec 10) (sc : Stall), s.issues [.w a] [] = true → csrListed csr = true →
    let n := csr.toNat
    let s1 := (s.useTagged [a]).popPorts [a]
    let new := p.2 (s1.csrRead n) (s.rd a)
    (n ≠ 3 → ¬(p.1 csr a sc = .csrw csr a sc ∧ n / 0x80 = 2 ∧ n % 16 = 15) →
      ∃ s2 : State, exec (p.1 csr a sc) s = .next (s2.retire sc) ∧
        s2.csrRead n = (s1.csrRead n &&& ~~~s1.csrMask n) ||| (new &&& s1.csrMask n) ∧
        (∀ m : BitVec 10, csrListed m = true → m ≠ csr → s2.csrRead m.toNat = s1.csrRead m.toNat) ∧
        s2.mem = s1.mem ∧ s2.frames = s1.frames ∧ s2.specs = s1.specs ∧ s2.blocks = s1.blocks ∧
        s2.cx.w = s1.cx.w ∧ s2.cx.tag = s1.cx.tag ∧ s2.cx.v = s1.cx.v ∧ s2.cx.m = s1.cx.m ∧ s2.cx.e = s1.cx.e ∧ s2.cx.h = s1.cx.h) ∧
    (n = 3 → exec (p.1 csr a sc) s = .next ((if s1.privileged = true then (s1.onBlock s1.cx.task.blk fun b =>
      { b with xb := min (new.toNat / 2048 * 2048) (2048 * s1.myLaunch.sppages) }).onCx fun c => { c with fetchBuf := [] }
      else s1).retire sc)) ∧
    (p.1 csr a sc = .csrw csr a sc → n / 0x80 = 2 → n % 16 = 15 →
      ((s.rd a).getLsbD 7 = false → exec (.csrw csr a sc) s = .next (s1.retire sc)) ∧
      ((s.rd a).getLsbD 7 = true →
        exec (.csrw csr a sc) s = .next ((s1.setTile s1.here { s1.tile s1.here with lost := false }).retire sc))))

/-! ## Traps -/

/-- Taking a trap: the level's cause, epc, psw, trap word and second value are saved, psw.inh is set, and psw.sup at supervisor
level, an ordered task loses its eligibility, and the pc is the vector's; the first handler instruction issues 8 cycles on, or
when the stall of the slot's last issue ends (R69, R280, R281). Where a trap goes: the user vector of its cause, the supervisor
vector, or the end of the launch; a program-error fault of an ordered task is held instead, and taken, marked as deferred, when
it is raised (R202, R203, R274, R276, R277, R279). Choices of the model that it rests on: log 103. -/
def Obligations.TrapEntry : Prop :=
  (
    ∀ (s : State) (k : Nat) (sup : Bool) (offset : BitVec 32) (i : TrapInfo),
      let c := s.ctx k
      let t := s.enterTrap k sup offset i
      (∃ p : Word, (∀ j < 64, p.getLsbD j =
          if j = 10 then true else if j = 11 then sup || c.psw.getLsbD 11
          else if j = 9 then c.psw.getLsbD 9 && !c.psw.getLsbD 8 else c.psw.getLsbD j) ∧
        t.ctx k = { c with
          user := if sup then c.user else trapSaved c i c.user
          sup := if sup then trapSaved c i c.sup else c.sup
          psw := p, pc := BitVec.ofNat 24 offset.toNat, fetchBuf := [], trapWord := i.word, heldFault := none, got := []
          status := .waiting .entry, next := max c.next (s.cycle + s.span (k / 32) 8) }) ∧
      (∀ j, j ≠ k → t.ctxs.get? j = s.ctxs.get? j) ∧ t.mem = s.mem ∧ t.frames = s.frames ∧ t.launches = s.launches ∧
      t.agenda = s.agenda ∧ t.tiles = s.tiles ∧ t.watches = s.watches.filter (fun w => w.uid != c.task.uid) ∧
      (∀ y, s.specs.get? c.task.uid = some y → t.specs.get? c.task.uid = some { y with elig := false })) ∧
  (
    (∀ (s : State) (k : Nat) (i : TrapInfo),
      let c := s.ctx k
      let l := s.launch c.task.lq
      let user := l.uvec.getD i.cause 0
      let sup := l.svec.getD i.cause 0
      let asUser := i.cause ∈ userCauses ∧ c.psw.getLsbD 10 = false ∧ i.sup = false ∧ user ≠ 0
      let broken := c.psw.getLsbD 10 = true ∧ c.psw.getLsbD 11 = true
      (broken → s.routeTrap k i = s.endLaunch c.task.lq 6 i.cause) ∧
      (¬broken → asUser → s.routeTrap k i = s.enterTrap k false user i) ∧
      (¬broken → ¬asUser → sup ≠ 0 → s.routeTrap k i = s.enterTrap k true sup i) ∧
      (¬broken → ¬asUser → sup = 0 → s.routeTrap k i = s.endLaunch c.task.lq 6 i.cause)) ∧
    (∀ (s : State) (i : TrapInfo), s.probe = none →
      (s.ordered = true → i.cause ∈ heldCauses →
        s.raise i = s.issuedCtx { s.cx with heldFault := some i, status := .waiting .deferred }) ∧
      (¬(s.ordered = true ∧ i.cause ∈ heldCauses) →
        s.raise i = (s.setTile s.here { s.tile s.here with last := s.slot }).routeTrap s.cur i)) ∧
    (∀ (s : State) (k : Nat) (i : TrapInfo), (s.ctx k).heldFault = some i → s.raiseHeld k = s.routeTrap k { i with dfr := true }))

/-- NOP goes on; ERET restores the pc and psw of the innermost level, with psw.elig as it is, and is illegal outside a handler;
TRAP and BRK raise user trap and breakpoint with the next instruction's pc (R274, R282, R358, R425, R470). WPSW refuses an
address that is no workspace; the same address only reads wp; another one stores the registers in their page, loads those of the
new page, keeps the ports, ts and the mode bits of psw, and leaves the old address in d (R497, R498). Choices of the model that
it rests on: log 103. -/
def Obligations.SystemInstructions : Prop :=
  (
    (∀ (s : State) (sc : Stall), s.issues [] [] = true →
      let c := s.cx
      let level := if c.psw.getLsbD 11 then c.sup else c.user
      let restored := fun (p : Word) => { c with
        pc := BitVec.ofNat 24 level.epc.toNat, psw := p, fetchBuf := []
        trapWord := if c.psw.getLsbD 11 then (if c.sup.epsw.getLsbD 10 then c.user.word else c.sup.word) else c.trapWord }
      let next := s.cycle + s.span s.here (stallCycles sc)
      exec (.nop sc) s = .next (s.retire sc) ∧
      (c.psw.getLsbD 10 = false → exec (.eret sc) s = .next s.trapIllegal) ∧
      (c.psw.getLsbD 10 = true → ∃ p : Word,
        (∀ j < 64, p.getLsbD j = if j = 9 then c.psw.getLsbD 9 else level.epsw.getLsbD j) ∧
        (s.inSystem = false → exec (.eret sc) s =
          .next (s.issuedCtx { restored p with status := .ready, next := next })) ∧
        (s.inSystem = true → exec (.eret sc) s =
          .next (s.issuedCtx { restored p with pc := 0, status := .waiting .idle, next := next }))) ∧
      exec (.brk sc) s = .next ((s.issuedCtx { c with next := next }).raise ⟨0x0D, 0, 0, false, false, false, false, true⟩)) ∧
    (∀ (s : State) (a : Reg) (sc : Stall), s.issues [.w a] [] = true →
      exec (.trap a sc) s =
        .next ((((s.useTagged [a]).popPorts [a]).issuedWith sc).raise ⟨0x0E, s.rd a, 0, false, false, false, false, true⟩))) ∧
  (
    ∀ (s : State) (d a : Reg) (sc : Stall), s.issues [.w a] [.w d] = true →
      let c := s.cx
      let n := s.rd a
      let b := c.task.blk
      (s.privileged = false → exec (.wpsw d a sc) s = .next (s.trap 0x03 0 0)) ∧
      (s.privileged = true → n.toNat % 2048 ≠ 0 → exec (.wpsw d a sc) s = .next (s.trap 0x02 n 2048)) ∧
      (s.privileged = true → n.toNat % 2048 = 0 → n.toNat / 2 ^ 24 ≠ 2 ^ 40 - 1 → exec (.wpsw d a sc) s = .next (s.trap 0x03 n 0)) ∧
      (s.privileged = true → n.toNat % 2048 = 0 → ∀ off, State.scratchAt n off →
        (2048 * s.myLaunch.sppages ≤ off ∨ off < s.myBlock.xb → exec (.wpsw d a sc) s = .next (s.trap 0x03 n 0)) ∧
        (off < 2048 * s.myLaunch.sppages → s.myBlock.xb ≤ off → n = c.w[63] → c.ctxf &&& ~~~0x10000 = 0 →
          exec (.wpsw d a sc) s = .next ((((s.useTagged [a]).popPorts [a]).putW d n 0 (.fixed 0)).retire sc)) ∧
        (off < 2048 * s.myLaunch.sppages → s.myBlock.xb ≤ off → n ≠ c.w[63] → off / 2048 ∉ s.workUsed b →
          c.ctxf &&& ~~~0x10000 = 0 → c.results = [] → State.hasPage s.cur c = true → s.plain a = true → s.plain d = true →
          Memory.wf s.frames = true →
          let new := s.page b (off / 2048)
          let own := s.page b (State.workPage c)
          new.lock = false → new.st = .framed → s.frameIsBad b (off / 2048) = false → own.st = .framed →
          State.workPage c ≠ off / 2048 → frameBase own.tile own.frame ≠ frameBase new.tile new.frame →
          let x := c.ofPage (s.frameRead b off 2048)
          ∃ t : State, exec (.wpsw d a sc) s = .next t ∧
            (∀ i : Fin 2048, t.frameRead b (2048 * State.workPage c + i) 1
              = [({ c with pc := BitVec.ofNat 24 (c.pc.toNat + 4) }.pageBytes).getD i 0]) ∧
            (∀ y, y < frameBase own.tile own.frame ∨ frameBase own.tile own.frame + 2048 ≤ y →
              Cells.read t.frames y = Cells.read s.frames y) ∧ t.mem = s.mem ∧
            t.cx.w[63] = n ∧ t.cx.w[52] = (if s.inSystem then x.w[52] else c.w[52]) ∧ t.cx.w[55] = c.w[55] ∧
            (∀ i : Fin 64, i ≠ 63 → i ≠ 52 → i ≠ 55 → i.val ≠ d.toNat → t.cx.w[i] = x.w[i]) ∧
            (State.discards d = false → t.cx.w[d.toNat] = c.w[63]) ∧
            t.cx.v = x.v ∧ t.cx.m = x.m ∧ t.cx.e = x.e ∧ t.cx.h = x.h ∧ t.cx.trapWord = x.trapWord ∧
            t.cx.ctxf = c.ctxf ∧ t.cx.stream = c.stream ∧ t.cx.pc = x.pc ∧
            (∀ j < 64, j ≠ 9 → t.cx.psw.getLsbD j = if 1 ≤ j ∧ j ≤ 3 then x.psw.getLsbD j else c.psw.getLsbD j) ∧
            t.cx.status = .waiting .entry ∧ t.cx.next = s.cycle + s.span s.here 96)))

/-! ## Decoding, and the step -/

/-- Words written out from the encoding tables decode to their instructions: one or more of every major opcode family
(R89..R114). -/
def Obligations.DecodeWords : Prop :=
  decodeWord 0x04304200 = .ok (.add 3 1 2 0) ∧
  decodeWord 0x0431054F = .ok (.div 3 4 5 3) ∧
  decodeWord 0x0871BFFC = .ok (.addi 7 6 (-1) 0) ∧
  decodeWord 0x4875020C = .ok (.ldS .w 7 20 2 0) ∧
  decodeWord 0x6C80CAA0 = .ok (.casQ 8 3 10 .sys 0) ∧
  decodeWord 0x78427FF4 = .ok (.blt 4 9 (-3) 0) ∧
  decodeWord 0x83FFFFE4 = .ok (.j (-7) 0) ∧
  decodeWord 0x8C7FFFD0 = .ok (.spawn 7 (-12) 0) ∧
  decodeWord 0x94000004 = .ok (.tabort 0) ∧
  decodeWord 0x98524010 = .ok (.poolget 5 9 0) ∧
  decodeWord 0xA051871D = .ok (.fmadd .f64 5 6 7 1) ∧
  decodeWord 0xACA0C604 = .ok (.wadd 10 3 6 0) ∧
  decodeWord 0xC0C48001 = .ok (.vaddFp .f64 3 1 2 0 1) ∧
  decodeWord 0xD4845005 = .ok (.vcvt 1 4 0 true 2 1 0 1) ∧
  decodeWord 0xE2986040 = .ok (.mstream 5 6 1 (.set 0) 0) ∧
  decodeWord 0xE5007220 = .ok (.gather 2 7 8 (.handle 0) 0) ∧
  decodeWord 0xE984A2C8 = .ok (.cpy2 3 10 11 2 0) ∧
  decodeWord 0xED004140 = .ok (.spmap 2 4 5 0) ∧
  decodeWord 0xF00240B8 = .ok (.publish .sys 9 0) ∧
  decodeWord 0xF8014008 = .ok (.trap 5 0)

/-- Decoding and encoding agree in both directions: a word decodes to an instruction exactly when the instruction is well-formed
and the word is its encoding; so no two instructions share a word and nothing reserved is accepted (R89..R114). -/
def Obligations.DecodeEncodeAgree : Prop :=
  ∀ (w : BitVec 32) (i : Instr), decodeWord w = .ok i ↔ i.wellFormed = true ∧ encode i = some w

/-- A turn fetches the word at pc from the context's fetch buffer or its code page and runs exactly the instruction it decodes
to; a word that decodes to none raises illegal instruction with the word; an event that is due comes first, and of stores
acknowledged in one cycle the one of the lowest tile (R69, R86, R94, R274, R463). Choices of the model that it rests on: log
13. -/
def Obligations.StepRunsDecoded : Prop :=
  (∀ (s : State) (t k : Nat) (rest : List Nat), s.dueEvent = none → s.turn = t :: rest → (s.tile t).gated = false →
    s.issueChoice t = some k →
    let s1 := { s with turn := rest, cur := k }
    let pc := s1.cx.pc.toNat
    s1.workFault = none →
    (∀ w, s1.cx.fetchBuf.find? (fun e => e.1 == pc) = some (pc, w) →
      (∀ i, decodeWord w = .ok i → step s = exec i { s1 with word := w }) ∧
      (∀ e, decodeWord w = .error e →
        step s = .next ({ s1 with word := w }.trap 0x01 (BitVec.ofNat 64 w.toNat) 0))) ∧
    (s1.cx.fetchBuf.find? (fun e => e.1 == pc) = none → pc < s1.myBlock.xb →
      let b := s1.cx.task.blk
      let x := s1.page b (pc / 2048)
      x.lock = false → x.st = .framed → s1.frameIsBad b (pc / 2048) = false →
      let word := fun (o : Nat) => BitVec.ofNat 32 (leNat (Cells.readN s.frames (frameBase x.tile x.frame + o % 2048) 4))
      let s2 := (s1.touchPage b (pc / 2048)).wakeTile x.tile
      let line := (List.range 4).map fun i => (pc / 16 * 16 + 4 * i, word (pc / 16 * 16 + 4 * i))
      let s3 := { s2.setCx { s2.cx with fetchBuf := line } with word := word pc }
      (∀ i, decodeWord (word pc) = .ok i → step s = exec i s3) ∧
      (∀ e, decodeWord (word pc) = .error e → step s = .next (s3.trap 0x01 (BitVec.ofNat 64 (word pc).toNat) 0)))) ∧
  (∀ (s : State) (d : Nat) (e : Event) (rest : List (Nat × Event)), s.agenda = (d, e) :: rest → d ≤ s.cycle →
    (s.ackTile e = none → step s = runEvent e { s with agenda := rest }) ∧
    ((s.ackTile e).isSome = true → ∃ p ∈ s.agenda, p.1 ≤ s.cycle ∧ step s = runEvent p.2 { s with agenda := s.agenda.erase p } ∧
      ∃ v, s.ackTile p.2 = some v ∧ ∀ q ∈ s.agenda.takeWhile (fun q => q.1 ≤ s.cycle), ∀ u, s.ackTile q.2 = some u → v ≤ u)) ∧
  (∀ s : State, s.dueEvent = none → s.turn = [] → step s = .next (s.endOfCycle.getD s.nextCycle)) ∧
  (∀ (s : State) (t : Nat) (rest : List Nat), s.dueEvent = none → s.turn = t :: rest →
    (s.tile t).gated = true ∨ s.issueChoice t = none → step s = .next { s with turn := rest })

/-- After reset: the registers whose reset values the maps give, translation and Causeway disabled, the reduced service, tiles
with 128 frames, the default format context, no tile having issued, node 0, and nothing running (R6, R33, R34, R69, R151, R258,
R295, R300, R304). -/
def Obligations.ResetValues : Prop :=
  let s := State.reset
  s.full = false ∧ s.asidrtEn = false ∧ s.cwEn = false ∧ s.node = 0 ∧ s.launches = [] ∧ s.ctxs = [] ∧ s.specs = [] ∧
    s.agenda = [] ∧ (∀ t, isTile t = true → s.regRead (0x100000 + 0x100 * t) = 0x14080) ∧
    (∀ q < 64, s.regRead (0x40 * q) = 0 ∧ s.regRead (0x40 * q + 0x08) = 0 ∧ s.regRead (0x40 * q + 0x10) = 0 ∧
      s.regRead (0x40 * q + 0x20) = 0 ∧ s.regRead (0x40 * q + 0x28) = 0) ∧
    s.regRead 0x1000 = 0 ∧ s.regRead 0x2008 = 0 ∧ s.regRead 0x2010 = 0 ∧ s.regRead 0x2018 = 2400 ∧ s.regRead 0x2020 = 0 ∧
    (∀ t, (s.tile t).fmtWord = 0x2200 ∧ (s.tile t).scaleAddr = 0 ∧ (s.tile t).geoK = 128 ∧ (s.tile t).geoN = 128 ∧
      (s.tile t).last = 16) ∧
    (∀ asid va, s.translateNow asid va = .fault 3) ∧ Memory.wf s.mem = true ∧ Memory.wf s.frames = true

/-- Memory and the scratchpad frames keep their canonical form through every step: addresses rise and no entry is zero (log
1). -/
def Obligations.MemoryCanonical : Prop :=
  ∀ s t : State, Memory.wf s.mem = true → Memory.wf s.frames = true → step s = .next t →
    Memory.wf t.mem = true ∧ Memory.wf t.frames = true

/-! ## What happens by itself -/

/-- A result arrives in its register, a forward deposit in the next context's forward-in, a queue dword in the inbound queue, a
stream's next element in front of its port, up to 8 ahead, a workspace in its store; each wakes the contexts it is for (R62,
R68, R71, R78, R81, R82, R84, R437, R444). Choices of the model that it rests on: logs 2, 40. -/
def Obligations.Arrivals : Prop :=
  (∀ (s : State) (uid k : Nat) (reg : RegRef) (c : Ctx) (p : PendResult), reg ≠ .w 0 →
    s.ctxs.find? (fun e => e.2.task.uid == uid && e.2.status != .free) = some (k, c) → s.ctxs.get? k = some c →
    c.results.find? (fun q => q.reg == reg) = some p →
    ∃ d : Ctx, exec (.resultArrive uid reg) s = .next (s.setCtx k d) ∧
      d = { c with results := c.results.erase p, w := d.w, v := d.v, m := d.m, e := d.e, h := d.h } ∧
      (∀ i : Fin 64, d.w[i] = if reg = .w (BitVec.ofNat 6 i) ∧ i ≠ 55 ∧ i ≠ 63 then p.val.setWidth 64 else c.w[i]) ∧
      (∀ i : Fin 16, d.v[i] = if reg = .v (BitVec.ofNat 4 i) then p.val else c.v[i]) ∧
      (∀ i : Fin 8, d.m[i] = if reg = .m (BitVec.ofNat 3 i) ∧ i ≠ 0 then p.val.setWidth 64 else c.m[i]) ∧
      (∀ i : Fin 8, d.e[i] = if reg = .e (BitVec.ofNat 3 i) then p.val.setWidth 64 else c.e[i]) ∧
      (∀ i : Fin 4, d.h[i] = if reg = .h (BitVec.ofNat 2 i) then p.val else c.h[i])) ∧
  (∀ (s : State) (tile slot : Nat) (v : Word), slot < 16 →
    let k := ctxKey tile slot
    let landed := s.setTile tile { s.tile tile with coming := removeNat slot (s.tile tile).coming }
    (∀ c, s.ctxs.get? k = some c → c.status ≠ .free → exec (.fwdDepositLand tile slot v) s = .next { landed with
      ctxs := s.ctxs.set k (State.wokenCtx { c with w := c.w.set 52 v, ctxf := c.ctxf ||| 0x10000 } s.cycle)
      agenda := if (s.tile tile).gated = true then insertDue s.cycle (.tileWake tile) s.agenda else s.agenda }) ∧
    ((∀ c, s.ctxs.get? k = some c → c.status = .free) → exec (.fwdDepositLand tile slot v) s = .next landed)) ∧
  (∀ (s : State) (tile lq : Nat) (dir : Fin 4) (v : Word), (s.launches.get? lq).isSome = false →
    exec (.queueDwordLand tile dir v lq) s = .next s) ∧
  (∀ (s : State) (tile lq : Nat) (dir : Fin 4) (v : Word), (s.launches.get? lq).isSome = true →
    let x := s.tile tile
    let y := s.tileLaunch tile lq
    ∃ t : State, exec (.queueDwordLand tile dir v lq) s = .next t ∧
      t.tiles.get? tile = some { x with
        inq := x.inq.set dir (x.inq[dir] ++ [(v, lq)]), perLaunch := x.perLaunch.set lq { y with qrecv := y.qrecv + 1 } } ∧
      (∀ j, j ≠ tile → t.tiles.get? j = s.tiles.get? j) ∧
      ((s.ctxs.map (·.1)).Pairwise (· < ·) → ∀ k c, s.ctxs.get? k = some c →
        t.ctxs.get? k = some (if k / 32 == tile && k % 32 != 16 && c.task.lq == lq && c.ctxf.getLsbD 15 && bits c.ctxf 13 2 == dir
          then State.wokenCtx c s.cycle else c)) ∧
      ((s.tile tile).gated = false → t.agenda = s.agenda) ∧
      ((s.tile tile).gated = true → (s.cycle, .tileWake tile) ∈ t.agenda) ∧ t.mem = s.mem ∧ t.frames = s.frames) ∧
  (∀ (s : State) (tile slot : Nat) (port : Fin 4),
    let s0 := { s with cur := ctxKey tile slot }
    let x := s0.cx.stream[port]
    let held := s0.cx.ahead.filter fun e => e.port == port.val
    let va := strAddr x + BitVec.ofNat 64 held.length * strStride x
    let open_ := bits s0.cx.ctxf (2 * port) 2 = 1 ∧ s0.cx.status ≠ .free ∧ held.length < 8 ∧ held.length < strCount x ∧
      ∀ e ∈ held, e.trap = none
    let e0 : AheadElt :=
      { port := port, addr := va, loc := none, val := 0, trap := none, ready := s.cycle, atPop := false, stale := false }
    let exits := fun (fail : State → TrapInfo → State) (busy : State → Wait → State) =>
      ({ fail := fail, busy := busy, waited := fun _ => true, own := false } : Exits)
    let passes := fun (s1 : State) (loc : Loc) (mt : Nat) => ∀ fail busy k, s0.checkAccess (exits fail busy) va .load k = k s1 loc mt
    let keeps := fun (s1 : State) (e : AheadElt) =>
      exec (.streamElementArrive tile slot port) s = .next (s.asCtx (ctxKey tile slot) fun _ => s1.keepElement e)
    (¬open_ → exec (.streamElementArrive tile slot port) s = .next s) ∧
    (open_ → ∀ s1 loc mt, passes s1 loc mt → State.outside? loc = false → (∀ pa, loc = .mem pa → mt ≠ 3) →
      ∀ s2 bs, (∀ fail busy k, s1.loadOnce (exits fail busy) va (strSize x) loc mt k = k s2 bs) →
      keeps s2 { e0 with loc := some loc, val := loadedWord (strSize x) (!strSx x) bs, ready := s1.cycle + s1.loadLatency va loc }) ∧
    (open_ → ∀ s1 pa, passes s1 (.mem pa) 3 → isCauseway pa = false → keeps s1 { e0 with loc := some (.mem pa), atPop := true }) ∧
    (open_ → ∀ s1 i, (∀ fail busy k, s0.checkAccess (exits fail busy) va .load k = fail s1 i) → keeps s1 { e0 with trap := some { i with word := va } })) ∧
  (∀ (s : State) (e : AheadElt), let t := s.keepElement e
    t.ctxs = s.ctxs.set s.cur { s.cx with ahead := s.cx.ahead ++ [e] } ∧ t.mem = s.mem ∧ t.frames = s.frames ∧ t.tiles = s.tiles ∧
      (State.mayFetch t.cx e.port = false → t.agenda = s.agenda)) ∧
  (∀ (s : State) (tile slot : Nat),
    (∀ c, s.ctxs.get? (ctxKey tile slot) = some c → exec (.workspaceMoveDone tile slot) s = .next
      (if c.status = .waiting .entry then s.setCtx (ctxKey tile slot)
        { c with status := if c.heldFault.isSome then .waiting .deferred else .ready, next := max c.next s.cycle } else s)) ∧
    (s.ctxs.get? (ctxKey tile slot) = none → exec (.workspaceMoveDone tile slot) s = .next s))

/-- A tile's dispatch choice: a record whose block has moved goes after it; the earliest task of a launch that has no context
has one freed, by an abort with requeue of the last Running ordered task of its launch, or else by pre-emption of its newest
free task; otherwise the next task takes the lowest free slot, a new one with the start values of its registers and psw, a new
signature slot and its tiebreaker, a kept one with its workspace and a wake event pending, which takes 48 cycles to come in
where it has left the tile's thread-context store, and 48 more where the store is full (R42, R48, R51, R65, R74, R76, R78, R161,
R181, R444, R468). Choices of the model that it rests on: logs 2, 15, 40, 66, 83, 84, 103. -/
def Obligations.Dispatch : Prop :=
  (∀ (s : State) (tile : Nat) (r : TaskRec), s.stray tile = some r →
    let x := s.tile tile
    let y := s.tileLaunch tile r.lq
    ∃ t : State, exec (.taskDispatch tile) s = .next t ∧
      t.tiles = s.tiles.set tile { x with
        queue := x.queue.filter fun q => q.uid != r.uid, perLaunch := x.perLaunch.set r.lq { y with tsent := y.tsent + 1 } } ∧
      t.agenda = insertDue (s.cycle + 1 + Config.latency s.fresh) (.taskRecordArrive (s.recordTile r.blk) r s.cycle) s.agenda ∧
      t.ctxs = s.ctxs ∧ t.mem = s.mem ∧ t.frames = s.frames) ∧
  (∀ (s : State) (tile slot : Nat) (r : TaskRec), s.stray tile = none → (s.earliestAt tile).all (fun e => !s.lacks tile e) = true →
    s.freeSlot tile = some slot → s.nextTask tile none = some r → r ∈ (s.tile tile).queue → s.placeFor tile r = some none → (s.blocks.get? r.blk).isSome = true →
    let l := s.launch r.lq
    let s1 := s.setTile tile { s.tile tile with queue := (s.tile tile).queue.filter fun q => q.uid != r.uid }
    let k := ctxKey tile slot
    let sig := (leastFree ((s.specsOn tile).map fun y => y.slot) 0 State.sigSlots).getD 0
    (∀ (p ctr : Nat) (tb : BitVec 32), r.res = false → s1.freeWork r.blk = some p → p < 8192 →
      (r.ord = true → s.specs.get? r.uid = none ∧ s1.assignTb tile r = some (tb, ctr)) →
      (r.ord = false → tb = r.tb ∧ ctr = (s.tileLaunch tile r.lq).ctr) →
      let task := { r with tb := tb, res := false }
      ∃ (t : State) (c : Ctx), exec (.taskDispatch tile) s = .next t ∧ t.ctxs.get? k = some c ∧
        (∀ j, j ≠ k → j ≠ ctxKey tile 16 → t.ctxs.get? j = s.ctxs.get? j) ∧
        ((s.page r.blk p).st = .framed → t.ctxs = s.ctxs.set k c) ∧
        c = { Ctx.reset with
          w := c.w, psw := c.psw, pc := BitVec.ofNat 24 r.entry, task := task, dispatched := s.cycle
          sliceStart := s.cycle, status := if s.storeFull tile = true then .waiting .entry else .ready
          next := max (s.cycle + max (s.span tile (if s.storeFull tile = true then 48 else 0)) 1)
            (((s.tile tile).slotNext.get? slot).getD 0) } ∧
        (s.storeFull tile = true → (s.cycle + s.span tile 48, .workspaceMoveDone tile slot) ∈ t.agenda) ∧
        (∀ i : Fin 64, c.w[i] =
          if i = 55 then (if r.ord then r.ts else 0) else if 56 ≤ i.val ∧ i.val ≤ 59 then r.args.getD (i.val - 56) 0
          else if i = 60 then BitVec.ofNat 64 (2 ^ 62 + r.blk)
          else if i = 63 then BitVec.ofNat 64 (2 ^ 64 - 2 ^ 24 + 2048 * p % 2 ^ 24) else 0) ∧
        (∀ j < 64, c.psw.getLsbD j =
          if j = 15 then l.clamp else if j = 9 then r.ord && l.rep else if j = 8 then r.ord else j == 3 && l.chk) ∧
        (t.tile tile).queue = (s.tile tile).queue.filter (fun q => q.uid != r.uid) ∧
        t.tileLaunch tile r.lq = { s.tileLaunch tile r.lq with
          ctr := ctr, lastKind := some r.ord, numbered := (t.tileLaunch tile r.lq).numbered } ∧
        (r.ord = true → r.tb = 0 → r.uid ∈ (t.tileLaunch tile r.lq).numbered) ∧
        (r.ord = false → t.specs = s.specs) ∧
        (r.ord = true → t.specs = s.specs.set r.uid
          { task := task, asid := l.asid, tile := tile, st := .running, slot := sig, since := s.cycle, rsig := 0, wsig := 0,
            undo := [], elems := [], used := 0, plain := [], syms := [], cons := [], sstores := [], sspawns := [], held := [],
            unlogged := false, repairing := false, pending := false, elig := l.rep }) ∧
        (t.page r.blk p).ws = true ∧ t.mem = s.mem ∧ t.frames = s.frames) ∧
    (r.res = true → (r.ord = true → r.tb ≠ 0) →
      let wp := r.args.getD 0 0
      let c := ((s.kept.get? r.uid).getD Ctx.reset).ofPage (s.blockRead r.blk (wp.toNat % 2 ^ 24) 2048)
      let cost := if ((s.tile tile).tcs.any fun e => e.1 == r.uid) = true then 0 else if s.storeFull tile = true then 96 else 48
      let d := { c with
        w := c.w.set 63 wp, wake := true, task := { r with res := false }, dispatched := s.cycle, sliceStart := s.cycle, preempt := false
        status := if cost = 0 then .ready else .waiting .entry
        next := max (s.cycle + max (s.span tile cost) 1) (((s.tile tile).slotNext.get? slot).getD 0) }
      ∃ t : State, exec (.taskDispatch tile) s = .next t ∧ t.ctxs.get? k = some d ∧
        (∀ j, j ≠ k → j ≠ ctxKey tile 16 → t.ctxs.get? j = s.ctxs.get? j) ∧
        ((s.page r.blk (wp.toNat % 2 ^ 24 / 2048)).st = .framed → t.ctxs = s.ctxs.set k d) ∧
        (cost ≠ 0 → (s.cycle + s.span tile cost, .workspaceMoveDone tile slot) ∈ t.agenda) ∧ t.kept = s.kept.erase r.uid ∧
        (r.ord = true → ∀ y, s.specs.get? r.uid = some y → t.specs = s.specs.set r.uid
          { y with task := { r with res := false, args := y.task.args }, st := .running, tile := tile, since := s.cycle
                   slot := if y.tile = tile then y.slot else sig }) ∧
        t.mem = s.mem ∧ t.frames = s.frames)) ∧
  (∀ (s : State) (tile : Nat) (e : TaskRec), s.stray tile = none → s.earliestAt tile = some e → s.slotFor tile e.lq = none →
    (e.res = true ∨ (s.freeWork e.blk).isSome = true) →
    let made := fun (t : State) => { t with tiles := t.tiles.set tile { t.tile tile with roomFor := some e.uid } }
    (∀ y, s.orderedOn tile e.lq ≠ [] → State.lastOf ((s.orderedOn tile e.lq).filter fun y => !s.restoreHeld y.task.uid) = some y →
      let t := made (s.abortAll [(y.task.uid, true)] [])
      (∀ t', t.makeRoom tile e 4 = some t' → exec (.taskDispatch tile) s = .next t') ∧
      (t.makeRoom tile e 4 = none → exec (.taskDispatch tile) s = .next t)) ∧
    (∀ k c, s.orderedOn tile e.lq = [] → (s.ctxs.map (·.1)).Pairwise (· < ·) → c.preempt = false →
      s.newestOf ((s.taken tile fun _ => true).filter fun x => x.2.task.lq == e.lq && !x.2.task.ord) = some (k, c) →
      exec (.taskDispatch tile) s = .next (made (s.setCtx k { c with preempt := true }))))

/-- A record that arrives goes on to the tile of its block, is discarded by a kill key, is queued, or, where the queue is full
or records are spilled and the launch has a spill pool, is written to an element of that pool, and counts as received; a full
queue without a spill pool keeps it at the port, from which it is admitted; spilled records come back one a cycle with their
elements; balancing moves unpinned records to a less occupied neighbour (R42, R57, R58, R59, R201). Choices of the model that it
rests on: logs 2, 16, 25, 37, 39. -/
def Obligations.Records : Prop :=
  (∀ (s : State) (tile : Nat) (r : TaskRec) (b : Block), s.blocks.get? r.blk = some b → (s.launches.get? r.lq).isSome = true →
    let x := s.tile tile
    let y := s.tileLaunch tile r.lq
    let counted := x.perLaunch.set r.lq { y with trecv := y.trecv + 1 }
    let waking := if x.gated = true then insertDue s.cycle (.tileWake tile) s.agenda else s.agenda
    let at_ := s.recordTile r.blk
    at_ = (if b.st = .moving then b.target else b.tile) ∧
    (at_ ≠ tile → exec (.taskRecordArrive tile r) s = .next { s with
      agenda := insertDue (s.cycle + 1 + Config.latency s.fresh) (.taskRecordArrive at_ r s.cycle) s.agenda, fresh := s.fresh + 1 }) ∧
    (at_ = tile →
      (∀ k, r.res = false → x.kills.find? (fun k => k.hits r) = some k → k.one = none → exec (.taskRecordArrive tile r) s = .next { s with
        tiles := s.tiles.set tile { x with perLaunch := counted }, agenda := waking }) ∧
      ((∀ k ∈ x.kills, k.hits (s.asSent r) = false) → (∀ p ∈ x.inbound, p.1.lq ≠ r.lq) → (∀ p ∈ x.spillWait, p.1.lq ≠ r.lq) →
        x.queue.length < 256 → x.spilled = [] → exec (.taskRecordArrive tile r) s = .next { s with
          tiles := s.tiles.set tile { x with queue := x.queue ++ [r], perLaunch := counted }, agenda := waking }) ∧
      ((∀ k ∈ x.kills, k.hits (s.asSent r) = false) → (∀ p ∈ x.spillWait, p.1.lq ≠ r.lq) → 256 ≤ x.queue.length → (s.launch r.lq).spill = 0 →
        exec (.taskRecordArrive tile r) s = .next { s with
          tiles := s.tiles.set tile { x with inbound := x.inbound ++ [(r, some s.cycle)] }, agenda := waking }) ∧
      ((∀ k ∈ x.kills, k.hits (s.asSent r) = false) → (∀ p ∈ x.spillWait, p.1.lq ≠ r.lq) →
        (256 ≤ x.queue.length ∨ x.spilled ≠ []) → (s.launch r.lq).spill ≠ 0 → Memory.wf s.mem = true →
        let pool := (s.launch r.lq).spill
        let s1 := (s.wakeTile tile).wakeSystem tile
        ∀ h s2 e pa, s1.locate r.lq r.blk pool .pool = .inl h → s1.poolGet (dieOf tile) r.lq r.blk h = (s2, .inl e) → e ≠ 0 →
          s2.locate r.lq r.blk e .pool = .inl (.mem pa) → isDevice pa = true → pa % 64 = 0 → Memory.wf s2.mem = true →
          (∀ q ∈ s2.parts, q.pa / 64 ≠ pa / 64) → ∃ t, exec (.taskRecordArrive tile r) s = .next t ∧
            (t.tile tile).spilled = (s2.tile tile).spilled ++ [{ rec_ := r, elem := e }] ∧ (t.tile tile).queue = (s2.tile tile).queue ∧
            (t.tileLaunch tile r.lq).trecv = (s2.tileLaunch tile r.lq).trecv + 1 ∧
            (∀ a, Cells.read t.mem a = if pa ≤ a ∧ a < pa + 64 then (recordBytes r).getD (a - pa) 0 else Cells.read s2.mem a)))) ∧
  (∀ (s : State) (tile : Nat) (r : TaskRec) (sent : Option Nat) (rest : List (TaskRec × Option Nat)),
    let x := s.tile tile
    let y := s.tileLaunch tile r.lq
    x.inbound = (r, sent) :: rest → x.queue.length < 256 →
    exec (.inboundRecordAdmit tile) s = .next { s with tiles := s.tiles.set tile { x with
      inbound := rest, queue := x.queue ++ [r]
      perLaunch := if sent.isSome then x.perLaunch.set r.lq { y with trecv := y.trecv + 1 } else x.perLaunch } }) ∧
  (∀ (s : State) (tile : Nat), let x := s.tile tile
    let due := x.queue.length < 256 ∧ (x.replaying = true ∨ x.queue.length ≤ 192) ∧ x.replayed < s.cycle
    (x.spilled = [] ∨ ¬due → exec (.spillReplay tile) s = .next s) ∧
    (∀ e rest, x.spilled = e :: rest → due →
      (∃ t : State, exec (.spillReplay tile) s = .next t ∧ (t.tile tile).queue = x.queue ++ [e.rec_] ∧ (t.tile tile).spilled = rest) ∧
      ∀ s2, (s.setTile tile { x with
          spilled := rest, queue := x.queue ++ [e.rec_], replaying := !rest.isEmpty && x.queue.length < 255, replayed := s.cycle }).poolPut
          (dieOf tile) e.rec_.lq e.rec_.blk (s.launch e.rec_.lq).spill e.elem = .inl s2 →
        exec (.spillReplay tile) s = .next s2)) ∧
  (∀ (s : State) (tile n : Nat) (d : Nat), d < 4 → s.neighbour tile d = some n → (s.tile n).sample < (s.tile tile).sample →
    (∀ j < 4, j ≠ d → ∀ m, s.neighbour tile j = some m → (s.tile tile).sample ≤ (s.tile m).sample) →
    let rs := (s.movable tile n).take (((s.tile tile).sample - (s.tile n).sample) / 4)
    (∀ r ∈ rs, r ∈ (s.tile tile).queue ∧ r.pin = false ∧ r.dir = false ∧ r.res = false) ∧
    exec (.balance tile) s = .next (s.moveRecords tile n rs) ∧
    (∀ r b, rs = [r] → s.residentBlock r.lq n = some b →
      let x := s.tile tile
      let y := s.tileLaunch tile r.lq
      exec (.balance tile) s = .next { s with
        tiles := s.tiles.set tile { x with
          queue := x.queue.filter fun q => q.uid != r.uid, perLaunch := x.perLaunch.set r.lq { y with tsent := y.tsent + 1 } }
        launches := match s.launches.get? r.lq with
          | some l => s.launches.set r.lq { l with lastSent := s.cycle }
          | none => s.launches
        agenda := insertDue (s.cycle + 1 + Config.latency s.fresh) (.taskRecordArrive (s.recordTile b) { r with blk := b } s.cycle) s.agenda
        fresh := s.fresh + 1 }))

/-- A Sluice sample carries for each launch a lower bound of every rank that is not finished, and is broadcast to every tile of
a launch; a broadcast never lowers Gvt, commits a Finished task below it, leaves the others, sends the all-asleep trap to the
launch's lowest tile where the round found every tile of it asleep and nothing on its way, once until a round finds it
otherwise, and ends a launch that two rounds in succession found at rest; the activity budgets restart with their period (R40,
R47, R56, R59, R60, R61, R62, R63, R64, R199). Choices of the model that it rests on: logs 2, 7, 28, 42, 65. -/
def Obligations.SluiceRounds : Prop :=
  (∀ s : State, (∀ e ∈ s.launches, e.2.lq = e.1) → ∃ (t : State) (r : Round), exec .sluiceSample s = .next t ∧
    r.no = s.cycle / 128 ∧ r.at_ = s.cycle ∧ t.rounds = s.rounds.set r.no r ∧ t.ctxs = s.ctxs ∧ t.specs = s.specs ∧
    r.sums.map (·.1) = s.launches.map (·.1) ∧
    (∀ e ∈ r.sums, e.2.minvt ≤ noRank ∧
      (∀ y ∈ s.specs.vals, y.task.lq = e.1 → y.st ≠ .finished ∨ y.repairing = true → e.2.minvt ≤ rankOf y.task) ∧
      (∀ x ∈ s.tiles.vals, ∀ u ∈ State.recordsAt x, u.lq = e.1 → u.ord = true → e.2.minvt ≤ rankOf u) ∧
      (∀ d tile u sent, (d, .taskRecordArrive tile u sent) ∈ s.agenda → u.lq = e.1 → u.ord = true →
        e.2.minvt ≤ rankOf u ∧ e.2.oldsend ≤ sent) ∧
      (∀ k ∈ s.killsUp, k.lq = e.1 → e.2.minvt ≤ k.ts.toNat * 2 ^ 32 + k.tb.toNat) ∧
      e.2.eng = (s.tiles.flatMap fun x => x.2.cmds.filter fun c => c.2.lq == e.1).length ∧
      (e.2.idle = true → e.2.eng = 0 ∧ ∀ c ∈ s.ctxs, c.1 % 32 ≠ 16 → c.2.status ≠ .free → c.2.task.lq ≠ e.1) ∧
      ∀ l, (s.launches.map (·.1)).Pairwise (· < ·) → s.launches.get? e.1 = some l → (e.2.asleep = true ↔ ∀ tile ∈ l.tiles,
        let on := s.taken tile fun _ => true
        let mine := s.taken tile fun q => q == e.1
        mine = [] ∨ ((∀ c ∈ mine, State.asleepCtx c.2 = true) ∧
          ((∀ u ∈ State.recordsAt (s.tile tile), u.lq ≠ e.1) ∨ (on.length = 16 ∧ ∀ c ∈ on, State.asleepCtx c.2 = true))))) ∧
    (∀ e ∈ s.launches, ∀ tile ∈ e.2.tiles, ∃ d, (d, .sluiceBroadcast r.no tile) ∈ t.agenda ∧ s.cycle + 590 ≤ d)) ∧
  (∀ (s : State) (no tile lq : Nat) (r : Round) (x : RoundSum) (l : Launch), s.rounds.get? no = some r → r.sums = [(lq, x)] →
    r.kills = [] → (s.tile tile).kills = [] → s.launches.get? lq = some l → tile ∈ l.tiles → bits l.budget 0 16 = 0 →
    (∀ e ∈ s.ctxs, e.2.heldFault = none) → (s.specs.map (·.1)).Pairwise (· < ·) → (∀ e ∈ s.specs, e.2.task.uid = e.1) →
    let y := s.tileLaunch tile lq
    let top := s.nextFront tile lq x
    let moved := { y with gvt := max y.gvt x.minvt, front := top }
    (x.minvt ≠ noRank → top = max y.front x.minvt) ∧
    (x.idle = false → x.asleep = false →
      ((∀ z ∈ s.specs.vals, z.task.lq = lq → z.st = .finished → top ≤ rankOf z.task) →
        ∃ t : State, exec (.sluiceBroadcast no tile) s = .next t ∧ t.tileLaunch tile lq = moved ∧
          t.specs = s.specs ∧ t.ctxs = s.ctxs ∧ t.mem = s.mem ∧ t.frames = s.frames ∧
          (l.tiles.getLast? = some tile → (t.launch lq).prev = some r)) ∧
      (∀ uid z, s.specs.get? uid = some z → z.task.lq = lq → z.tile = tile → z.st = .finished → z.repairing = false →
        s.killOutstanding z = false → rankOf z.task < top → z.elems = [] → z.held = [] →
        (∀ a ∈ s.specs.vals, a.task.lq = lq → a.st = .finished → a = z ∨ top ≤ rankOf a.task) →
        ∃ t : State, exec (.sluiceBroadcast no tile) s = .next t ∧ t.tileLaunch tile lq = moved ∧
          t.specs = s.specs.erase uid ∧ t.ctxs = s.ctxs ∧ t.mem = s.mem ∧ t.frames = s.frames)) ∧
    (x.asleep = true → x.anyAsleep = true → x.idle = false → x.tsent = x.trecv → x.qsent = x.qrecv → x.eng = 0 →
      l.tiles.head? = some tile → (∀ z ∈ s.specs.vals, z.task.lq = lq → z.st = .finished → top ≤ rankOf z.task) →
      ∃ t : State, exec (.sluiceBroadcast no tile) s = .next t ∧
        (l.trapArmed = false ∨ 16 ≤ (s.tile tile).trapQ.length →
          (t.launch lq).trapArmed = l.trapArmed ∧ (t.tile tile).trapQ = (s.tile tile).trapQ) ∧
        (l.trapArmed = true → (s.tile tile).trapQ.length < 16 → (t.launch lq).trapArmed = false ∧
          (t.tile tile).trapQ = (s.tile tile).trapQ ++ [{
          info := { cause := 0x0B, word := BitVec.ofNat 64 lq, val2 := BitVec.ofNat 64 no, held := false, eng := false, dfr := false
                    sup := true, after := false }
          lq := lq, blk := s.handlerBlock tile lq, source := tile, uid := 0, since := 0 }])) ∧
    (x.asleep = false → x.idle = false → l.tiles.head? = some tile →
      (∀ z ∈ s.specs.vals, z.task.lq = lq → z.st = .finished → top ≤ rankOf z.task) →
      ∃ t : State, exec (.sluiceBroadcast no tile) s = .next t ∧ (t.launch lq).trapArmed = true) ∧
    (∀ p z, Memory.wf s.mem = true → s.absentMemory l.statusAt = false → s.carrying lq = false → l.prev = some p →
      p.sums.get? lq = some z → l.tiles.getLast? = some tile → p.no + 1 = r.no → l.lastSent < p.at_ →
      x.idle = true → z.idle = true → x.anyAsleep = false → x.tsent = x.trecv → x.qsent = x.qrecv → z.tsent = x.tsent →
      z.trecv = x.trecv → z.qsent = x.qsent → z.qrecv = x.qrecv → (∀ a ∈ s.specs.vals, a.task.lq ≠ lq) →
      s.killsUp = [] → (∀ q ∈ s.rounds.vals, q.kills = []) → (s.launches.map (·.1)).Pairwise (· < ·) → l.done = 0 → (s.queue lq).map = true →
      ∃ t : State, exec (.sluiceBroadcast no tile) s = .next t ∧ t.launches.get? lq = none ∧ (t.queue lq).run = false ∧
        Out.msix lq ∈ t.outbox ∧ leNat (Cells.readN t.mem l.statusAt 8) = 2 + s.cycle / 65536 % 2 ^ 48 * 65536 ∧
        (∀ e ∈ t.blocks, e.2.lq ≠ lq) ∧ (∀ e ∈ t.ctxs, e.2.task.lq = lq → e.2.status = .free ∨ e.2.status = .waiting .idle ∨
          e.2.status = .waiting .serving))) ∧
  (∀ s : State, exec .budgetPeriod s = .next { s with launches := s.launches.map fun e => (e.1, { e.2 with spent := [0, 0, 0, 0] }) })

/-- A repair re-reads the symbolic loads at the task's rank; where every constraint holds, each register takes the change of its
symbol, the records take the new values and the context goes on; where one fails, the task is aborted with requeue, when its
turn among its Wisp's sixteen has come. A symbolic store whose value differs is logged and rewritten with it at its own size,
and only then; a child that a changed field makes stale is killed by a key for that child alone, and sent again with the new
timestamp and arguments, logged as a spawn, once no key for it is held (R192, R193, R194, R196, R197, R198, R201). Choices of
the model that it rests on: logs 19, 47, 48, 88, 103. -/
def Obligations.Repairs : Prop :=
  (∀ (s s1 : State) (uid : Nat) (y : Spec) (vs : List (Word × Loc)), s.specs.get? uid = some y → y.task.uid = uid → y.repairing = true →
      bits (s.launch y.task.lq).budget 16 16 = 0 → s.wispTurn uid = true → s.midway uid = false →
      (s.charge y.task.lq 1).reReads y y.syms = .ok s1 vs →
      let new := vs.map (·.1)
      let old := y.syms.map fun x => x.val
      let syms := (y.syms.zip vs).map fun e => { e.1 with val := e.2.1, loc := e.2.2 }
      ((∃ c ∈ y.cons, c.holds new = false) → s1.restoreHeld uid = false →
        exec (.wispRepair uid) s = .next (s1.abortAll [(uid, true)] [])) ∧
      ((∀ c ∈ y.cons, c.holds new = true) → ∀ s2 s3, (s1.killStale y old new).reStores y new y.sstores = .ok s2 () →
        s2.reSends y new (List.range y.sspawns.length) = .ok s3 () → ∀ z, s3.specs.get? uid = some z → z.pending = false →
        (s3.ctxOf uid = none → s3.kept.get? uid = none → ∃ t : State, exec (.wispRepair uid) s = .next t ∧
          t.specs.get? uid = some { z with
            syms := syms, sspawns := z.sspawns.map fun p => { p with step := .idle }, repairing := false } ∧
          t.ctxs = s3.ctxs ∧ t.mem = s3.mem ∧ t.frames = s3.frames) ∧
        ∀ k c, s3.ctxOf uid = some k → s3.ctxs.get? k = some c → c.status = .halted →
          ∃ (t : State) (d : Ctx), exec (.wispRepair uid) s = .next t ∧ t.ctxs.get? k = some d ∧
            t.specs.get? uid = some { z with
              syms := syms, sspawns := z.sspawns.map fun p => { p with step := .idle }, repairing := false } ∧
            d = { c with
              w := d.w, results := d.results, status := .ready, heldFault := none, got := []
              next := max c.next (s3.cycle + s3.span (k / 32) 1) } ∧
            (c.results = [] → d.results = []) ∧
            (∀ i : Fin 64, d.w[i] = if c.tag[i] = 0 then c.w[i]
              else c.w[i] + new.getD (c.tag[i].toNat % 4) 0 - old.getD (c.tag[i].toNat % 4) 0) ∧
            (∀ j, j ≠ k → t.ctxs.get? j = s3.ctxs.get? j) ∧ t.mem = s3.mem ∧ t.frames = s3.frames)) ∧
  (∀ (s s1 : State) (y : Spec) (t : SymStore) (vals : List Word) (loc : Loc), s.repairAt y t.va .write = .ok s1 loc →
    let v := (vals.getD t.sym 0 + t.c).toNat % 2 ^ (8 * t.size)
    (s1.locNat loc t.size = v → s.reStore y t vals = .ok s1 ()) ∧
    (s1.locNat loc t.size ≠ v → (s1.lockHit y.tile y.asid t.va loc true).isSome = true → s.reStore y t vals = .wait s1) ∧
    (s1.locNat loc t.size ≠ v → s1.lockHit y.tile y.asid t.va loc true = none →
      (s1.resolve (.ordered y.task.uid) true loc t.size = none → s.reStore y t vals = .wait s1) ∧
      ∀ s2 s3 reps, s1.resolve (.ordered y.task.uid) true loc t.size = some (s2, reps) → s2.logWrite y.task.uid t.va loc t.size = some s3 →
        ∃ t' : State, s.reStore y t vals = .ok t' () ∧
          (∀ pa, loc = .mem pa → isDevice pa = true → (∀ q ∈ s3.parts, q.pa / 64 ≠ pa / 64) → Memory.wf s3.mem = true →
            t'.frames = s3.frames ∧
              ∀ a, Cells.read t'.mem a = if pa ≤ a ∧ a < pa + t.size then (leBytes t.size v).getD (a - pa) 0 else Cells.read s3.mem a) ∧
          (∀ b off f, loc = .scr b off → s3.frameAddr b off = some f → Memory.wf s3.frames = true → t'.mem = s3.mem ∧
            ∀ a, Cells.read t'.frames a = if f ≤ a ∧ a < f + t.size then (leBytes t.size v).getD (a - f) 0 else Cells.read s3.frames a))) ∧
  (∀ (s : State) (y : Spec) (old new : List Word),
    let t := s.killStale y old new
    (∀ p ∈ y.sspawns, p.step = .idle →
      p.ts.under old ≠ p.ts.under new ∨ p.args.map (fun a => a.under old) ≠ p.args.map (fun a => a.under new) →
      ∃ k ∈ t.killsUp, k.lq = y.task.lq ∧ k.ts = y.task.ts ∧ k.tb = y.task.tb ∧ k.one = some (p.rec_.ts, p.rec_.args) ∧ k.used = false) ∧
    ((∀ p ∈ y.sspawns, p.step = .idle ∧ p.ts.under old = p.ts.under new ∧
      p.args.map (fun a => a.under old) = p.args.map (fun a => a.under new)) → t.killsUp = s.killsUp) ∧
    t.mem = s.mem ∧ t.frames = s.frames ∧ t.ctxs = s.ctxs ∧ t.tiles = s.tiles) ∧
  (∀ (s : State) (y z : Spec) (new : List Word) (i : Nat) (p : SymSpawn), s.specs.get? y.task.uid = some z → z.sspawns[i]? = some p →
    let ts := p.ts.under new
    let r := { p.rec_ with
      ts := if ts.toNat < y.task.ts.toNat then y.task.ts else ts, args := p.args.map (fun a => a.under new), uid := s.nextUid }
    (p.step ≠ .killed → s.reSend y new i = .ok s ()) ∧
    (p.step = .killed → s.keyHeld r = true → s.reSend y new i = .wait s) ∧
    (p.step = .killed → s.keyHeld r = false → ∀ s2,
      s.undoAppend y.task.uid { kind := 2, place := s.recordTile r.blk, val := r.ts, va := 0 } = some s2 →
      ∃ (t : State) (d : Nat), s.reSend y new i = .ok t () ∧ s2.cycle < d ∧
        (d, .taskRecordArrive (s2.recordTile r.blk) r s2.cycle) ∈ t.agenda ∧
        (t.tileLaunch y.tile r.lq).tsent = (s2.tileLaunch y.tile r.lq).tsent + 1 ∧ t.mem = s2.mem ∧ t.frames = s2.frames))

/-- A page-in gives the page a frame of its block's tile, filled with zero or with its slot's bytes; a pull moves a Remote
page's bytes to such a frame; a Stopping block whose contexts have halted is Moving for the cycles of their transfer, and then
sits on its target with them, ends its SPMIGs and begins its pulls (R53, R163, R164, R165, R167, R168). Choices of the model
that it rests on: logs 16, 25, 37, 103. -/
def Obligations.PageMoves : Prop :=
  (∀ (s : State) (b p f : Nat) (x : Block), s.blocks.get? b = some x → Memory.wf s.frames = true → Memory.wf s.mem = true →
    let pg := s.page b p
    let l := s.launch x.lq
    let used := (s.framedOn x.tile).map fun e => e.2.2.frame
    let base := frameBase x.tile f
    f < frameCount (s.tile x.tile) → f ∉ used → (∀ g < f, g ∈ used) →
    (pg.lock = true → bits l.budget 16 16 = 0 →
      (pg.st = .unmapped → ∃ t : State, exec (.pageInDone b p) s = .next t ∧
        t.page b p = { pg with st := .framed, lock := false, dirty := true, tile := x.tile, frame := f } ∧
        (∀ a, Cells.read t.frames a = if base ≤ a ∧ a < base + 2048 then 0 else Cells.read s.frames a) ∧
        t.mem = s.mem ∧ t.ctxs = s.ctxs) ∧
      (pg.st = .parked → codePages l ≤ p →
        let slot := l.peat + areaBytes l.sppages * x.idx + tableBytes l.sppages + 2048 * p
        (∀ i < 32, slot / 64 + i ∉ s.poison) → ∃ t : State, exec (.pageInDone b p) s = .next t ∧
          t.page b p = { pg with st := .framed, lock := false, dirty := false, tile := x.tile, frame := f } ∧
          (∀ a, Cells.read t.frames a =
            if base ≤ a ∧ a < base + 2048 then Cells.read s.mem (slot + (a - base)) else Cells.read s.frames a) ∧
          t.mem = s.mem ∧ t.ctxs = s.ctxs)) ∧
    (pg.st = .framed → pg.tile ≠ x.tile → pg.frame < 256 → f < 256 →
      let old := frameBase pg.tile pg.frame
      ∃ t : State, exec (.pagePullDone b p) s = .next t ∧
        t.page b p = { pg with lock := false, tile := x.tile, frame := f } ∧
        (t.block b).pulls = x.pulls.filter (fun q => q != p) ∧
        (∀ a, Cells.read t.frames a = if base ≤ a ∧ a < base + 2048 then Cells.read s.frames (old + (a - base))
          else if old ≤ a ∧ a < old + 2048 then 0 else Cells.read s.frames a) ∧ t.mem = s.mem ∧ t.ctxs = s.ctxs)) ∧
  (∀ (s : State) (b : Nat) (x : Block), s.blocks.get? b = some x → x.st = .stopping →
    (∀ e ∈ s.blockCtxs b, e.2.status = .halted ∧ e.2.results = []) → (∀ e ∈ s.kept, e.2.task.blk = b → e.2.results = []) →
    (∀ e ∈ s.tiles, ∀ c ∈ e.2.cmds, c.2.op = .spmig → c.2.blk = b → c.2.registered = true) →
    let cost := ((s.blockCtxs b).map fun e =>
      48 + hops (e.1 / 32) x.target + (if dieOf (e.1 / 32) = dieOf x.target then 0 else 60)).sum
    exec (.blockMove b) s = .next { s with
      blocks := s.blocks.set b { x with st := .moving }, agenda := insertDue (s.cycle + s.span x.tile (cost + 1)) (.blockMove b) s.agenda }) ∧
  (∀ (s : State) (b : Nat) (x : Block), s.blocks.get? b = some x → x.st = .moving → (∀ e ∈ x.pages, e.2.lock = false) →
    (∀ e ∈ s.tiles, ∀ c ∈ e.2.cmds, c.2.op = .spmig → c.2.blk ≠ b) → s.storeTakes x.target (s.blockCtxs b).length = true →
    (s.blockCtxs b = [] → s.workHeld b = [] → ∃ t : State, exec (.blockMove b) s = .next t ∧ t.blockTile b = x.target ∧
      (t.block b).st = .resident ∧ (∀ j, j ≠ b → t.blocks.get? j = s.blocks.get? j) ∧
      (∀ p, p ∈ (t.block b).pulls ↔ ∃ e ∈ x.pages, e.1 = p ∧ e.2.st = .framed ∧ e.2.tile ≠ x.target) ∧
      t.ctxs = s.ctxs ∧ t.frames = s.frames ∧ t.mem = s.mem) ∧
    (∀ k c slot s2, s.blockCtxs b = [(k, c)] → s.ctxs.get? k = some c → (s.ctxs.map (·.1)).Pairwise (· < ·) → c.status = .halted →
      c.results = [] → c.heldFault = none →
      (((s.storeLeft b).onTile x.tile fun y => { y with stlb := y.stlb.filter fun e => e.1 != b }).onBlock b fun y =>
        { y with tile := x.target, st := .resident }).moveWork b (s.workHeld b) = some s2 →
      s2.slotFor x.target c.task.lq = some slot → ∃ t : State, exec (.blockMove b) s = .next t ∧
        t.blockTile b = x.target ∧ (t.block b).st = .resident ∧ t.ctxs.get? k = none ∧
        t.ctxs.get? (ctxKey x.target slot) = some { c with
          ahead := [], fetchBuf := [], busy := [], got := [], ctxf := c.ctxf &&& ~~~0x10000, status := .waiting .entry
          next := s.cycle + s.span x.target (if s2.storeFull x.target = true then 52 else 4) })) ∧
  (∀ (s : State) (b entry tile : Nat) (x : Block) (c : Cmd), s.blocks.get? b = some x → x.st = .moving →
    (∀ e ∈ x.pages, e.2.lock = false) → s.blockCtxs b = [] → s.workHeld b = [] → s.storeTakes x.target 0 = true →
    (s.tile tile).cmds.get? entry = some c →
    c.op = .spmig → c.blk = b →
    (∀ e ∈ s.tiles, ∀ d ∈ e.2.cmds, d.2.op = .spmig → d.2.blk = b → d = (entry, c) ∧ e.1 = tile) →
    (s.tiles.map (·.1)).Pairwise (· < ·) → ((s.tile tile).cmds.map (·.1)).Pairwise (· < ·) →
    ∃ t : State, exec (.blockMove b) s = .next t ∧ (t.tile tile).cmds.get? entry = none ∧
      (t.tile tile).gens.get? entry = some ((((s.tile tile).gens.get? entry).getD 0 + 1) % 256) ∧ t.blockTile b = x.target)

/-- The slice's end marks a context for which a task waits; a marked one leaves its slot with its workspace in its page and is
queued as resumable; the system context enters the oldest trap sent to it with its own registers; a quiet tile is gated and
wakes with 200 cycles to the first issue of every slot; the arbiter's interval changes the steps as R304 has them (R88, R285,
R286, R287, R288, R304, R305, R502). Choices of the model that it rests on: logs 20, 40, 86, 87, 103, 105. -/
def Obligations.TileService : Prop :=
  (∀ (s : State) (tile slot : Nat) (c : Ctx), slot < 16 → s.ctxs.get? (ctxKey tile slot) = some c →
    let k := ctxKey tile slot
    let l := s.launch c.task.lq
    (l.slice = 0 ∨ c.status = .free ∨ c.preempt = true ∨ s.clockAt tile s.cycle < s.clockAt tile c.sliceStart + l.slice →
      exec (.sliceExpiry tile slot) s = .next s) ∧
    (l.slice ≠ 0 → c.status ≠ .free → c.preempt = false → s.clockAt tile c.sliceStart + l.slice ≤ s.clockAt tile s.cycle →
      ((s.nextTask tile (some k)).isSome = true → exec (.sliceExpiry tile slot) s = .next (s.setCtx k { c with preempt := true })) ∧
      (s.nextTask tile (some k) = none → exec (.sliceExpiry tile slot) s = .next (s.setCtx k { c with sliceStart := s.cycle })))) ∧
  (∀ (s : State) (tile slot : Nat) (c : Ctx), slot < 16 → s.ctxs.get? (ctxKey tile slot) = some c → (s.ctxs.map (·.1)).Pairwise (· < ·) →
    let k := ctxKey tile slot
    let b := c.task.blk
    let own := s.page b (State.workPage c)
    Memory.wf s.frames = true → c.preempt = true → c.status = .ready → c.next ≤ s.cycle → (∀ p ∈ c.results, ∀ i, p.reg ≠ .e i) →
    (∀ e ∈ c.busy, e.until_ ≤ s.cycle) → (∀ p ∈ s.stores, p.port.isSome = true → p.uid ≠ c.task.uid) →
    s.notPreemptible k = false → own.st = .framed → s.blockTile b = tile →
    (s.launches.get? c.task.lq).isSome = true → (s.tile tile).queue.length < 256 → (s.tile tile).spilled = [] →
    (∀ p ∈ (s.tile tile).inbound, p.1.lq ≠ c.task.lq) → (∀ p ∈ (s.tile tile).spillWait, p.1.lq ≠ c.task.lq) →
    let d := { c with ahead := [], fetchBuf := [], got := [], ctxf := c.ctxf &&& ~~~0x10000 }
    let base := frameBase own.tile own.frame
    ∃ t : State, exec (.preempt tile slot) s = .next t ∧ t.ctxs.get? k = none ∧ t.kept.get? c.task.uid = some d ∧
      (t.tile tile).queue = (s.tile tile).queue ++ [{ c.task with res := true, args := c.w[63] :: c.task.args.drop 1 }] ∧
      (∀ i : Fin 2048, Cells.read t.frames (base + i) = d.pageBytes.getD i 0) ∧
      (∀ a, a < base ∨ base + 2048 ≤ a → Cells.read t.frames a = Cells.read s.frames a) ∧
      (∀ y, s.specs.get? c.task.uid = some y → t.specs.get? c.task.uid = some { y with st := .queued }) ∧ t.mem = s.mem) ∧
  (∀ (s : State) (tile : Nat) (i : SysTrap) (rest : List SysTrap), (s.tile tile).trapQ = i :: rest →
    let k := ctxKey tile 16
    let x := s.tile tile
    State.restingSys (s.ctx k) = true →
    let tiles := s.tiles.set tile { x with
      trapQ := rest ++ x.trapWait.take (16 - rest.length), trapWait := x.trapWait.drop (16 - rest.length) }
    (s.launches.get? i.lq = none → exec (.systemTrapEnter tile) s = .next { s with tiles := tiles }) ∧
    (∀ l vec, s.launches.get? i.lq = some l → l.svec.getD i.info.cause 0 = vec → vec ≠ 0 → i.info.sup = true →
      bits (s.ctx k).psw 10 2 = 0 →
      let s1 := { s with tiles := tiles }
      let s2 := ((s1.wakeTile tile).systemTask tile i.lq).enterTrap k true vec i.info
      exec (.systemTrapEnter tile) s = .next (s2.setCtx k { s2.ctx k with
        next := max (s2.ctx k).next ((x.slotNext.get? 16).getD 0) })) ∧
    (State.hasPage k (s.ctx k) = false →
      let uid := if (s.ctx k).task.uid = 0 then s.nextUid else (s.ctx k).task.uid
      s.systemTask tile i.lq = { s with
        nextUid := max s.nextUid (uid + 1)
        ctxs := s.ctxs.set k { s.ctx k with
          task := { noTask with lq := i.lq, blk := s.handlerBlock tile i.lq, uid := uid }, pc := 0 } })) ∧
  (∀ (s : State) (tile : Nat), let x := s.tile tile
    let idle := (∀ e ∈ s.ctxs, e.1 / 32 = tile → e.2.status = .free ∨
        e.2.status ∈ [.waiting .fwdEmpty, .waiting .qinEmpty, .waiting .qoutFull, .waiting .barrier, .waiting .sleep, .waiting .idle]) ∧
      State.recordsAt x = [] ∧ x.trapQ = [] ∧ x.idleSince + (if s.full then 24000 else 10000) ≤ s.cycle
    (idle → exec (.tilePowerGate tile) s = .next { s with tiles := s.tiles.set tile { x with gated := true, l1 := [] } }) ∧
    (¬idle → exec (.tilePowerGate tile) s = .next s) ∧
    (x.gated = false → exec (.tileWake tile) s = .next s) ∧
    (x.gated = true → ∃ first : AMap Nat, (∀ i < 17, first.get? i = some (max (s.cycle + s.span tile 200) ((x.slotNext.get? i).getD 0))) ∧
      exec (.tileWake tile) s = .next { s with
      tiles := s.tiles.set tile { x with gated := false, idleSince := s.cycle, slotNext := first }
      ctxs := s.ctxs.map fun e => (e.1, if e.1 / 32 == tile then { e.2 with next := max e.2.next (s.cycle + s.span tile 200) } else e.2) })) ∧
  (∀ (s : State) (reports : List Nat), s.islandStep.length = 36 → (∀ x ∈ s.islandStep, x ≤ 5) →
    let power := fun (steps : List Nat) (i : Nat) => Config.projectedPower (reports.getD i 0) (steps.getD i 0)
    let total := fun (steps : List Nat) => ((List.range 36).map (power steps)).sum
    let old := s.islandStep
    let mode := List.replicate 36 (if s.pctlMode = 3 then 0 else s.pctlMode)
    ∃ new : List Nat, exec (.powerInterval reports) s = .next { s with islandStep := new, modeNow := mode } ∧ new.length = 36 ∧
      (total old ≤ s.pctlBudget → s.pctlBudget * 95 ≤ total old * 100 → new = old) ∧
      (total old * 100 < s.pctlBudget * 95 → ∀ i < 36, new.getD i 0 = old.getD i 0 - 1) ∧
      (s.pctlBudget < total old →
        (∀ i < 36, new.getD i 0 = old.getD i 0 ∨ new.getD i 0 = min 5 (old.getD i 0 + 1)) ∧
        (total new ≤ s.pctlBudget ∨ ∀ i < 36, new.getD i 0 = min 5 (old.getD i 0 + 1)) ∧
        (∀ i < 36, ∀ j < 36, new.getD i 0 ≠ old.getD i 0 → new.getD j 0 = old.getD j 0 → old.getD j 0 < 5 → power old j ≤ power old i)))

/-- Mapping a launch queue loads its state from its save area, then applies a notify of the same cycle, and unmapping stores it
there; a notify moves the tail, is stored, or is ignored with badn; a queue refuses its head record with the first failing
check's code, waits, or starts it: blocks, entry task, status and counters (R34, R35, R36, R37, R38, R39, R40, R41, R42, R50,
R152, R164, R258, R289). Choices of the model that it rests on: logs 21, 23, 73, 101, 102. -/
def Obligations.LaunchQueues : Prop :=
  (∀ (s : State) (q : Nat), let x := s.queue q
    (x.map = true → exec (.lqctlMap q) s = .next s) ∧ (x.map = false → exec (.lqctlUnmap q) s = .next s) ∧
    (x.map = false → s.absentMemory x.save = false →
      let head : BitVec 16 := (s.dwordAt (x.save + 16)).setWidth 16
      let size := bits (s.dwordAt x.save) 0 4
      let far := fun (tail : BitVec 16) => decide (2 ^ size < (tail - head).toNat)
      let loaded := fun (tail : BitVec 16) => { x with
        base := bits (s.dwordAt x.save) 8 44, lgsize := size, map := true, named := true, en := (s.dwordAt (x.save + 8)).getLsbD 14
        prio := bits (s.dwordAt (x.save + 8)) 8 5, head := head, tail := if far tail then head else tail, badn := x.badn || far tail
        wait := false, noted := none }
      ((∀ n, x.noted = some n → n.1 ≠ s.cycle) →
        exec (.lqctlMap q) s = .next { s with queues := s.queues.set q (loaded ((s.dwordAt (x.save + 24)).setWidth 16)) }) ∧
      (∀ (new : BitVec 16) (old : Word), x.noted = some (s.cycle, new, old) →
        let y := loaded (old.setWidth 16)
        exec (.lqctlMap q) s = .next { s with queues := s.queues.set q (
          if far new then { y with badn := true } else { y with tail := new }) })) ∧
    (s.absentMemory x.save = true → exec (.lqctlMap q) s = .next s ∧ exec (.lqctlUnmap q) s = .next s) ∧
    (x.map = true → s.absentMemory x.save = false → x.save % 64 = 0 → Memory.wf s.mem = true → x.base < 2 ^ 44 → x.lgsize < 16 →
      x.prio < 32 → ∃ t : State, exec (.lqctlUnmap q) s = .next t ∧
      t.queues = s.queues.set q { x with map := false, named := true, wait := false, noted := none } ∧
      leNat (Cells.readN t.mem x.save 8) = x.base * 256 + x.lgsize ∧
      leNat (Cells.readN t.mem (x.save + 8) 8) = x.en.toNat * 2 ^ 14 + x.run.toNat * 2 ^ 13 + x.prio * 256 ∧
      leNat (Cells.readN t.mem (x.save + 16) 8) = x.head.toNat ∧ leNat (Cells.readN t.mem (x.save + 24) 8) = x.tail.toNat ∧
      (∀ i, 32 ≤ i → i < 64 → Cells.read t.mem (x.save + i) = 0) ∧
      (∀ a, a < x.save ∨ x.save + 64 ≤ a → Cells.read t.mem a = Cells.read s.mem a)) ∧
    (∀ tail : BitVec 16,
      (x.map = false → s.absentMemory x.save = true → exec (.lqnotify q tail) s = .next s) ∧
      (x.map = false → s.absentMemory x.save = false → (∀ p ∈ s.parts, p.pa / 64 ≠ (x.save + 24) / 64) → ∃ t : State,
        exec (.lqnotify q tail) s = .next t ∧
        (∃ n, t.queues = s.queues.set q { x with noted := some (s.cycle, tail, n) } ∧
          ((∀ m, x.noted = some m → m.1 ≠ s.cycle) → n = s.dwordAt (x.save + 24))) ∧
        t.mem = Cells.writeN s.mem (x.save + 24) (leBytes 8 tail.toNat)) ∧
      (x.map = true → 2 ^ x.lgsize < (tail - x.head).toNat →
        exec (.lqnotify q tail) s = .next { s with queues := s.queues.set q { x with badn := true } }) ∧
      (x.map = true → (tail - x.head).toNat ≤ 2 ^ x.lgsize →
        exec (.lqnotify q tail) s = .next { s with queues := s.queues.set q { x with tail := tail, wait := x.wait && tail != x.head } }))) ∧
  (∀ (s : State) (q : Nat),
    let x := s.queue q
    let at_ := x.base * 256 + 256 * (x.head.toNat % 2 ^ x.lgsize)
    let r : LRec := ⟨s.bytesAt at_ 256⟩
    let ready := x.map = true ∧ x.en = true ∧ x.run = false ∧ x.head ≠ x.tail ∧ (s.full = true ∨ q < 4) ∧
      s.absentMemory at_ = false
    let alone := ∀ p ∈ s.parts, p.pa / 64 ≠ (at_ + 0x98) / 64
    (¬ready → exec (.launchStart q) s = .next s) ∧
    (∀ code, ready → alone → s.checkRecord r = .inl code → ∃ t : State, exec (.launchStart q) s = .next t ∧
      t.queues = s.queues.set q { x with head := x.head + 1, refused := x.refused + 1, wait := false } ∧ t.launches = s.launches ∧
      t.mem = Cells.writeN s.mem (at_ + 0x98) (leBytes 8 (3 + code * 256 + s.cycle / 65536 % 2 ^ 48 * 65536))) ∧
    (∀ p : LPlan, ready → s.checkRecord r = .inr p →
      let n := p.tiles.length
      let room := s.blocks.length + n ≤ 65536 ∧ ∀ tile ∈ p.tiles, (s.tile tile).spReq = (s.tile tile).spCur
      (¬room → exec (.launchStart q) s = .next { s with queues := s.queues.set q { x with wait := true } }) ∧
      (room → alone → (∀ tile ∈ p.tiles, (s.tile tile).queue.length < 256 ∧ (s.tile tile).spilled = [] ∧ (s.tile tile).inbound = [] ∧
          (s.tile tile).kills = [] ∧ (s.tile tile).spillWait = []) →
        let hint := r.word 0x30
        let i := if hint.getLsbD 62 then hint.toNat % 2 ^ 16 else place (hint.toNat % 2 ^ 62) n
        i < n → ∃ (t : State) (l : Launch), exec (.launchStart q) s = .next t ∧ t.launches = s.launches.set q l ∧
          t.queues = s.queues.set q { x with head := x.head + 1, started := x.started + 1, run := true, wait := false } ∧
          t.mem = Cells.writeN s.mem (at_ + 0x98) (leBytes 8 1) ∧
          l.lq = q ∧ l.asid = r.get 0x04 2 ∧ l.code = r.word 0x38 ∧ l.codesz = r.get 0x40 4 ∧ l.sppages = r.get 0x44 2 ∧
          l.minres = r.get 0x46 2 ∧ l.spill = r.word 0x48 ∧ l.undo = r.word 0x50 ∧ l.alloc = r.word 0x58 ∧ l.peat = r.get 0x60 8 ∧
          l.rep = (r.get 0x06 2).testBit 1 ∧ l.chk = (r.get 0x06 2).testBit 2 ∧ l.budget = r.word 0x80 ∧
          l.slice = (if r.get 0x88 4 = 0 then 0 else max 96 (r.get 0x88 4)) ∧ l.done = r.get 0x90 8 ∧ l.statusAt = at_ + 0x98 ∧
          l.prio = min 23 x.prio ∧ l.uvec = p.uvec ∧ l.svec = p.svec ∧ l.tiles = p.tiles ∧ l.blocks.length = n ∧ l.blocks.Nodup ∧
          (∀ b ∈ l.blocks, b < 65536 ∧ s.blocks.get? b = none) ∧
          (∀ j < n, ∃ b : Block, t.blocks.get? (l.blocks.getD j 0) = some b ∧ b.lq = q ∧ b.idx = j ∧ b.tile = p.tiles.getD j 0 ∧
            b.st = .resident ∧ b.xb = 2048 * ((l.codesz + 2047) / 2048) ∧
            b.pages = (List.range ((l.codesz + 2047) / 2048)).map fun k => (k, { Page.unmapped with st := .parked })) ∧
          (∀ tile ∈ p.tiles, (∀ e ∈ s.launches, tile ∉ e.2.tiles) → (t.tile tile).fmtWord = 0x2200 ∧ (t.tile tile).scaleAddr = 0 ∧
            (t.tile tile).geoK = 128 ∧ (t.tile tile).geoN = 128) ∧
          let ord := (r.get 0x06 2).testBit 0
          (t.tile (p.tiles.getD i 0)).queue = (s.tile (p.tiles.getD i 0)).queue ++ [{
            entry := r.get 0x00 4, blk := l.blocks.getD i 0, lq := q, ord := ord, pin := hint.getLsbD 63, dir := hint.getLsbD 62
            res := false, ts := if ord then r.word 0x28 else 0, tb := 0, ptb := 0, pts := 0
            args := (List.range 4).map fun k => r.word (0x08 + 8 * k), uid := s.nextUid }])) ∧
    (r.get 0x06 2 / 8 ≠ 0 ∨ (∃ j < 32, r.bytes.getD (0xA0 + j) 0 ≠ 0) ∨ (∃ j < 8, bits (r.word (0xC0 + 8 * j)) 6 2 ≠ 0) ∨ (s.full = false ∧ r.get 0x06 2 % 4 ≠ 0) →
      s.checkRecord r = .inl 1) ∧
    (r.get 0x06 2 / 8 = 0 → r.get 0x8C 4 = 0 → r.get 0xA0 32 = 0 → (∀ j < 8, bits (r.word (0xC0 + 8 * j)) 6 2 = 0) → s.full = true →
      (r.get 0x00 4 % 4 ≠ 0 ∨ r.get 0x40 4 ≤ r.get 0x00 4 → s.checkRecord r = .inl 2) ∧
      (r.get 0x00 4 % 4 = 0 → r.get 0x00 4 < r.get 0x40 4 → (r.word 0x38).toNat % 2048 ≠ 0 ∨ r.get 0x40 4 < 4 ∨ 2 ^ 24 < r.get 0x40 4 ∨
        r.get 0x44 2 < 1 ∨ 8192 < r.get 0x44 2 ∨ r.get 0x46 2 < 1 ∨ 160 < r.get 0x46 2 → s.checkRecord r = .inl 3)))

/-- The registers' actions: a host fence completes after every earlier request; an invalidation drops the entries it meets, is
done when the earlier stores are, and starts what was held; a report is written behind its nonce; a split is applied to a tile
without blocks; a write of a register changes its RW fields (R5, R34, R37, R151, R152, R159, R243, R289, R293, R294, R295, R296,
R300, R304, R307). Choices of the model that it rests on: logs 12, 53, 54, 69. -/
def Obligations.HostRegisters : Prop :=
  (∀ s : State,
    (s.fences ≠ [] → exec .hfgo s = .next { s with fences := s.fences ++ [s.nextReq] }) ∧
    (s.fences = [] → exec .hfgo s = .next { s with
      fences := [s.nextReq], agenda := insertDue (s.cycle + 1 + Config.latency s.fresh) .hostFenceDone s.agenda, fresh := s.fresh + 1 }) ∧
    (∀ mark rest, s.fences = mark :: rest →
      let again := { s with
        agenda := insertDue (s.cycle + 1 + Config.latency s.fresh) .hostFenceDone s.agenda, fresh := s.fresh + 1 }
      ((∃ r ∈ s.hostQ, r.id < mark) → exec .hostFenceDone s = .next again) ∧
      ((∀ r ∈ s.hostQ, mark ≤ r.id) → (rest = [] → exec .hostFenceDone s = .next { s with seq := s.seq + 1, fences := [] }) ∧
        (rest ≠ [] → exec .hostFenceDone s = .next { again with seq := s.seq + 1, fences := rest }))) ∧
    (s.atreqBusy ≠ [] → exec .atreqGo s = .next { s with atreqBusy := s.atreqBusy ++ [s.atreqAddr] }) ∧
    (s.atreqBusy = [] → exec .atreqGo s = .next { s with
      atreqBusy := [s.atreqAddr], agenda := insertDue (s.cycle + 1 + Config.latency s.fresh) .attestDone s.agenda, fresh := s.fresh + 1 }) ∧
    (∀ (s2 : State) (addr : Nat), s.atreqBusy = [addr] → (s.full = true ∧ isDevice (addr * 256) = true) ∨ isHostMem (addr * 256) = true →
      let body := (List.range 16).map Config.serialByte ++ (List.range 48).map Config.firmwareDigest ++
        (List.range 48).map (Config.fuseDigest s.retired) ++ leBytes 8 (s.reportCount + 1) ++ List.replicate 8 0
      let signed := s.bytesAt (addr * 256) 32 ++ body
      s.hostWriteAll (addr * 256 + 0x20) (body ++ (List.range 96).map (Config.signatureByte s.fresh signed)) = some s2 →
      s2.reportCount = s.reportCount →
      exec .attestDone s = .next { s2 with atdone := true, atreqBusy := [], reportCount := s.reportCount + 1, fresh := s2.fresh + 1 })) ∧
  (∀ (s : State) (die : Nat) (v : Word), let w := s.walkWin die
    let lo := w.first * 2 ^ 16
    let hi := (w.first + w.count) * 2 ^ 16
    let all := v.getLsbD 16
    let set := fun (done : Bool) => { w with all := all, asid := bits v 0 16, done := done, mark := s.nextStore, outMark := s.nextReq }
    let early := (∃ p ∈ s.stores, p.id < w.mark) ∨ ∃ r ∈ s.remote, r.id < w.outMark
    (w.done = false → exec (.xinvc die v) s =
      .next { s with walk := s.walk.set die { w with held := w.held ++ [⟨v, w.count, w.first⟩] } }) ∧
    (w.done = true → w.held = [] → w.count = 0 → exec (.xinvc die v) s = .next { s with walk := s.walk.set die (set true) }) ∧
    (w.done = true → w.count ≠ 0 → ∃ t : State, exec (.xinvc die v) s = .next t ∧ t.walk = s.walk.set die (set false) ∧
      t.agenda = insertDue (s.cycle + 1 + Config.latency s.fresh) (.xinvDone die) s.agenda ∧ t.mem = s.mem ∧ t.ctxs = s.ctxs ∧
      (∀ e : TlbEntry, e ∈ t.tlb ↔ e ∈ s.tlb ∧ ¬((all = true ∨ e.asid = bits v 0 16 ∨ e.pte.getLsbD 7 = true) ∧
        e.vpn * 2 ^ 16 / 2 ^ e.size * 2 ^ e.size < hi ∧ lo < (e.vpn * 2 ^ 16 / 2 ^ e.size + 1) * 2 ^ e.size)) ∧
      (∀ x ∈ t.tiles, ∀ e ∈ x.2.l1, all = true ∨ e.asid = bits v 0 16 → e.vline * 64 < lo ∨ hi ≤ e.vline * 64)) ∧
    (w.done = true → exec (.xinvDone die) s = .next s) ∧
    (w.done = false → early → exec (.xinvDone die) s = .next { s with
      agenda := insertDue (s.cycle + 1 + Config.latency s.fresh) (.xinvDone die) s.agenda, fresh := s.fresh + 1 }) ∧
    (w.done = false → ¬early →
      (w.held = [] → exec (.xinvDone die) s = .next { s with walk := s.walk.set die { w with done := true } }) ∧
      (∀ rest, w.held = ⟨v, w.count, w.first⟩ :: rest →
        exec (.xinvDone die) s = exec (.xinvc die v) { s with walk := s.walk.set die { w with done := true, held := rest } }))) ∧
  (∀ (s : State) (tile : Nat), let x := s.tile tile
    let due := x.spReq ≠ x.spCur ∧ (∀ e ∈ s.blocks, e.2.tile ≠ tile) ∧ s.framedOn tile = []
    (due → exec (.spcfgApply tile) s = .next { s with
      tiles := s.tiles.set tile { x with spCur := x.spReq, l1 := [] }, frameBad := s.frameBad.filter fun e => e.1 != tile }) ∧
    (¬due → exec (.spcfgApply tile) s = .next s)) ∧
  (∀ (s : State) (v : Word),
    exec (.registerWrite 0x2000 v) s = .next { s with atdone := s.atdone && !v.getLsbD 1 } ∧
    exec (.registerWrite 0x2008 v) s = .next { s with asidrtBase := bits v 19 33, asidrtEn := v.getLsbD 0 } ∧
    exec (.registerWrite 0x2010 v) s = .next { s with cwBase := bits v 15 37, cwEn := v.getLsbD 0 } ∧
    exec (.registerWrite 0x2018 v) s = .next { s with pctlMode := bits v 16 2, pctlBudget := max 600 (min 2400 (bits v 0 12)) } ∧
    exec (.registerWrite 0x2020 v) s =
      (if v.getLsbD 0 then exec .atreqGo { s with atreqAddr := bits v 8 44 } else .next { s with atreqAddr := bits v 8 44 }) ∧
    exec (.registerWrite 0x1008 v) s = (if v.getLsbD 0 then exec .hfgo s else .next s) ∧
    exec (.registerWrite 0x1000 v) s = .next s ∧
    (∀ d < 8,
      exec (.registerWrite (0x8000 + 0x1000 * d) v) s = exec (.xinvc d v) s ∧
      exec (.registerWrite (0x8008 + 0x1000 * d) v) s =
        .next { s with walk := s.walk.set d { s.walkWin d with count := bits v 41 23, first := bits v 0 41 } }) ∧
    (∀ t, isTile t = true → t ∉ s.retired →
      exec (.registerWrite (0x100000 + 0x100 * t) v) s =
        .next { s with tiles := s.tiles.set t { s.tile t with spReq := BitVec.ofNat 2 (bits v 16 2) } }) ∧
    (∀ q < 64, let x := s.queue q
      exec (.registerWrite (0x40 * q) v) s =
        .next { s with queues := s.queues.set q { x with base := bits v 8 44, lgsize := bits v 0 4 } } ∧
      (x.map = false → v.getLsbD 15 = true → exec (.registerWrite (0x40 * q + 0x08) v) s = exec (.lqctlMap q) s) ∧
      (x.map = true → v.getLsbD 15 = false → exec (.registerWrite (0x40 * q + 0x08) v) s = exec (.lqctlUnmap q) s) ∧
      (x.map = true → v.getLsbD 15 = true → exec (.registerWrite (0x40 * q + 0x08) v) s =
        .next { s with queues := s.queues.set q { x with en := v.getLsbD 14, prio := bits v 8 5 } }) ∧
      (x.map = false → v.getLsbD 15 = false → exec (.registerWrite (0x40 * q + 0x08) v) s = .next s) ∧
      exec (.registerWrite (0x40 * q + 0x10) v) s = .next s ∧
      exec (.registerWrite (0x40 * q + 0x18) v) s = exec (.lqnotify q (v.setWidth 16)) s ∧
      exec (.registerWrite (0x40 * q + 0x20) v) s = .next { s with queues := s.queues.set q { x with save := bits v 6 46 * 64, named := true } } ∧
      exec (.registerWrite (0x40 * q + 0x28) v) s =
        .next { s with queues := s.queues.set q { x with badn := x.badn && !v.getLsbD 1 } }))

/-! ## The host, CXL and Causeway -/

/-- A request of the host or of another package that nothing holds up is performed when it arrives: register windows by width,
device memory at its home and host memory, dword by dword, with their completions, the AtomicOps the completer supports, CXL.mem
only in CXL operation, and snoops of lines at rest; a read over a poisoned line answers poison and a write there is discarded;
the reduced service has no device memory, no CXL and no Causeway (R33, R238, R242, R292, R293, R294, R297, R298, R301, R308,
R322, R323, R430, R503). Choices of the model that it rests on: logs 5, 10, 17, 43, 52, 58, 61, 90. -/
def Obligations.HostAccesses : Prop :=
  ∀ s : State, s.specs = [] → s.parts = [] → s.hostQ = [] →
    let s1 := { s with nextReq := s.nextReq + 1 }
    let answered := fun (st : HostStatus) (ep : Bool) (data : List Byte) =>
      { s1 with outbox := s.outbox ++ [Out.completion st ep data] }
    let clean := fun (pa n : Nat) => ∀ i < n, (pa + i) / 64 ∉ s.poison
    let atRest := fun (served : Bool) (pa n : Nat) => s.linksDown = [] ∧ (s.l2.map (·.1)).Pairwise (· < ·) ∧
      ∀ i < n, isDevice (pa + i) = true → s.lineBusy ((pa + i) / 64) = false ∧
        (served = true → (∀ e ∈ s.launches, e.2.regions = []) ∧ ∀ p ∈ s.priv, p.line ≠ (pa + i) / 64)
    let same := fun (t : State) => t.frames = s.frames ∧ t.ctxs = s.ctxs
    let wrote := fun (t : State) (pa : Nat) (data : List Byte) => t.mem = Cells.writeN s.mem pa data ∧ same t
    let waits := fun (t : State) (w w0 : HostWhat) (got : List Byte) =>
      t.hostQ = [⟨s.nextReq, State.serverOf w0, w, got, 0⟩] ∧ t.outbox = s.outbox ∧ ∃ d, (d, .hostServe) ∈ t.agenda
    let reads := fun (i : Instr) (pa n : Nat) (out : List Byte → Out) (w : Nat → HostWhat) =>
      ∃ t : State, exec i s = .next t ∧ t.mem = s.mem ∧ same t ∧
        (t.hostQ = [] ∧ t.outbox = s.outbox ++ [out (s.bytesAt pa n)] ∨
          ∃ j, 0 < j ∧ j < n ∧ (pa + j) % 8 = 0 ∧ waits t (w j) (w 0) (s.bytesAt pa j))
    let writes := fun (i : Instr) (pa : Nat) (data : List Byte) (out : List Out) (w : Nat → HostWhat) =>
      ∃ t : State, exec i s = .next t ∧
        (wrote t pa data ∧ t.hostQ = [] ∧ t.outbox = s.outbox ++ out ∨
          ∃ j, 0 < j ∧ j < data.length ∧ (pa + j) % 8 = 0 ∧ wrote t pa (data.take j) ∧ waits t (w j) (w 0) [])
    (∀ off width,
      (off % width = 0 → width = 8 → exec (.hostRead .bar0 off width) s = .next (answered .sc false (leBytes 8 (s.regRead off).toNat))) ∧
      (off % width = 0 → width = 4 → exec (.hostRead .bar0 off width) s =
        .next (answered .sc false (leBytes 4 ((s.regRead off).toNat / 2 ^ (8 * (off % 8)))))) ∧
      (width ≠ 4 → width ≠ 8 → exec (.hostRead .bar0 off width) s = .next (answered .sc false (List.replicate width 0)))) ∧
    (∀ off (data : List Byte), data.length = 8 → off % 8 = 0 →
      exec (.hostWrite .bar0 off data) s = exec (.registerWrite off (BitVec.ofNat 64 (leNat data))) s1) ∧
    (∀ op off width value cmp, exec (.hostAtomicop .bar0 op off width value cmp) s = .next (answered .ur false []) ∧
      (s.turn = [] → deviceEnd ≤ off ∨ s.full = false →
        exec (.hostAtomicop .bar2 op off width value cmp) s = .next (answered .ur false [])) ∧
      (s.turn ≠ [] → exec (.hostAtomicop .bar2 op off width value cmp) s = .next { s1 with
        hostQ := [⟨s.nextReq, off / 4096 % 32, .atomic .bar2 op off width value cmp, [], 0⟩]
        agenda := insertDue (s.cycle + 1 + Config.latency s.fresh) .hostServe s.agenda, fresh := s.fresh + 1 })) ∧
    (∀ off width (data : List Byte), deviceEnd ≤ off ∨ s.full = false →
      exec (.hostRead .bar2 off width) s = .next (answered .ur false []) ∧
      exec (.hostWrite .bar2 off data) s = .next (answered .ur false [])) ∧
    (∀ off width (data : List Byte), 0 < width → data ≠ [] → ∀ p ∈ [(HostBar.bar2, off), (.hostMem, 0x8000000000000 + off)],
      (p.1 = .bar2 → s.full = true ∧ off < deviceEnd ∧ s.launchOf off = none) →
      (clean p.2 width → atRest true p.2 width → reads (.hostRead p.1 off width) p.2 width (.completion .sc false)
        fun j => .read p.1 (off + j) (width - j)) ∧
      ((∃ i < width, (p.2 + i) / 64 ∈ s.poison) → exec (.hostRead p.1 off width) s = .next (answered .sc true [])) ∧
      ((∃ i < data.length, (p.2 + i) / 64 ∈ s.poison) → exec (.hostWrite p.1 off data) s = .next s1) ∧
      (clean p.2 data.length → atRest true p.2 data.length → writes (.hostWrite p.1 off data) p.2 data []
        fun j => .write p.1 (off + j) (data.drop j))) ∧
    (∀ off (data : List Byte) lq r, s.full = true → off < deviceEnd → s.launchOf off = none → data ≠ [] →
      off % 8 + data.length ≤ 8 → clean off data.length → s.publishedAt off = some (lq, r) →
      exec (.hostWrite .bar2 off data) s =
        .next { (s1.specPrune (off / 64)).privWrite (off / 4096 % 32 / 4) lq r.desc (State.addresses off data) with fresh := s.fresh + 1 }) ∧
    (∀ op off width value cmp, ∀ p ∈ [(HostBar.bar2, off), (.hostMem, 0x8000000000000 + off)],
      (p.1 = .bar2 → s.full = true ∧ off < deviceEnd ∧ s.launchOf off = none ∧ s.turn = []) →
      let sizes := match op with | .cas => [4, 8, 16] | .fetchAdd | .swap => [4, 8]
      let old := s.bytesAt p.2 width
      let new := match op with
        | .fetchAdd => (leNat old + value) % 2 ^ (8 * width)
        | .swap => value % 2 ^ (8 * width)
        | .cas => if leNat old = cmp % 2 ^ (8 * width) then value % 2 ^ (8 * width) else leNat old
      (p.1 = .bar2 → width ∉ sizes → exec (.hostAtomicop .bar2 op off width value cmp) s = .next (answered .ur false [])) ∧
      (p.1 = .bar2 → width ∈ sizes → off % width ≠ 0 →
        exec (.hostAtomicop .bar2 op off width value cmp) s = .next (answered .ca false [])) ∧
      (width ∈ sizes → off % width = 0 → p.2 / 64 ∉ s.poison → atRest true p.2 width → ∃ t : State,
        exec (.hostAtomicop p.1 op off width value cmp) s = .next t ∧ wrote t p.2 (leBytes width new) ∧
        t.outbox = s.outbox ++ [.completion .sc false old]) ∧
      (width ∈ sizes → off % width = 0 → p.2 / 64 ∈ s.poison →
        exec (.hostAtomicop p.1 op off width value cmp) s = .next (answered .ca false []))) ∧
    (∀ pa width, (s.cxlOn = false ∨ s.full = false ∨ deviceEnd ≤ pa →
        ∀ data, exec (.cxlMemAccess pa width data) s = .next (answered .ur false [])) ∧
      (s.cxlOn = true → s.full = true → pa < deviceEnd → 0 < width → clean pa width → atRest true pa width →
        (reads (.cxlMemAccess pa width none) pa width (.completion .sc false) fun j => .cxl (pa + j) (width - j) none) ∧
        (∀ t, exec (.cxlMemAccess pa width none) s = .next t →
          t.hostHeld = if t.hostQ = [] then insertNat (pa / 64) s.hostHeld else s.hostHeld) ∧
        ∀ x, writes (.cxlMemAccess pa width (some x)) pa (leBytes width x) [.completion .sc false []]
          fun j => .cxl (pa + j) (width - j) (some (x / 256 ^ j)))) ∧
    (∀ line excl, (s.cxlOn = false → exec (.cxlSnoop line excl) s = .next s1) ∧
      (s.cxlOn = true → s.lineBusy line = true → exec (.cxlSnoop line excl) s = .next { s1 with
        hostQ := [⟨s.nextReq, 64 + line, .snoop line excl, [], 0⟩]
        agenda := insertDue (s.cycle + 1 + Config.latency s.fresh) .hostServe s.agenda, fresh := s.fresh + 1 }) ∧
      (s.cxlOn = true → s.lineBusy line = false → (s.l2.map (·.1)).Pairwise (· < ·) → ∃ t : State, exec (.cxlSnoop line excl) s = .next t ∧
        (∀ d < 8, t.l2St d line = if s.l2St d line ∈ [.e, .o, .m] ∨ s.l2St d line = .s ∧ excl = true then .i else s.l2St d line) ∧
        (t.homeLine line).mask = (List.range 8).filter (fun d => s.l2St d line == .s && !excl) ∧
        (t.homeLine line).st = (if (t.homeLine line).mask = [] then .i else .s) ∧
        (∀ j, j ≠ line → t.homeLine j = s.homeLine j) ∧
        t.outbox = s.outbox ++ [.snoopReply line ((List.range 8).any fun d => [L2St.e, .o, .m].contains (s.l2St d line))])) ∧
    (∀ on, exec (.cxlOperationChange on) s =
      .next { s with cxlOn := on && s.full, hostHeld := if on then s.hostHeld else [] }) ∧
    (∀ node pa op, (s.full = false → exec (.remoteAccessArrive node pa op) s = .next s1) ∧
      (s.full = true → isDevice pa = false → isHostMem pa = false →
        exec (.remoteAccessArrive node pa op) s = .next { s1 with outbox := s.outbox ++ [.response node []] })) ∧
    (∀ node pa, s.full = true → isDevice pa = true ∨ isHostMem pa = true →
      (∀ k, 0 < k → clean pa k → atRest false pa k → reads (.remoteAccessArrive node pa (.load k)) pa k (.response node)
        fun j => .remote node (pa + j) (.load (k - j))) ∧
      (∀ data : List Byte, data ≠ [] → clean pa data.length → atRest false pa data.length →
        writes (.remoteAccessArrive node pa (.store data)) pa data [.response node []]
          fun j => .remote node (pa + j) (.store (data.drop j))) ∧
      (∀ order k val, 0 < k → clean pa k → atRest false pa k → let old := s.bytesAt pa k
        ∃ t : State, exec (.remoteAccessArrive node pa (.atomic order k val)) s = .next t ∧
          wrote t pa (leBytes k (atomicValue order (8 * k) (leNat old) val.toNat)) ∧ t.outbox = s.outbox ++ [.response node old]) ∧
      (∀ k cmp new, 0 < k → clean pa k → atRest false pa k → let old := s.bytesAt pa k
        ∃ t : State, exec (.remoteAccessArrive node pa (.cas k cmp new)) s = .next t ∧
          wrote t pa (leBytes k (if leNat old = cmp then new else leNat old)) ∧ t.outbox = s.outbox ++ [.response node old]))

/-- What comes back from outside: an AtomicOp's completion writes the old value, which is what an ordered task's log then holds,
and goes on, or raises protection; a Causeway answer writes its free value, and a lost one raises machine check kind 7; a remote
spawn arrives under full service, is acknowledged or refused, and counts as received (R188, R190, R244, R299, R301, R302, R308).
Choices of the model that it rests on: logs 11, 56, 107. -/
def Obligations.OutsideAnswers : Prop :=
  (∀ (s : State) (q : OutReq) (a : Reg) (rest : List Reg), q.reads = a :: rest →
    let left := s.remote.filter fun r => r.id != q.id
    let goesOn := fun (s1 : State) (note put : State → State) =>
      { s1 with remote := s1.remote.filter fun r => r.id != q.id }.asCtx q.ctx fun t =>
        (put ((note t).popPorts q.reads)).refetch.proceed
    (s.ctx q.ctx).task.uid = q.uid →
    (q.toHost = true → s.remote.find? (fun r => r.id == q.id && r.toHost) = some q → (s.ctx q.ctx).status = .waiting .atomicOp →
      let logged := fun (old : List Byte) (t : State) => if t.ordered then t.undoAmend q.uid q.pa old else t
      (∀ d order k val old, q.regs = [.w d] → q.what = .atomic order k val → 1 ≤ k → k ≤ 8 →
        let x := old % 2 ^ (8 * k)
        exec (.atomicopCompletion q.id .sc old) s = .next (goesOn
          (s.hostAtomicWrite q (leBytes k x) (leBytes k (atomicValue order (8 * k) x val.toNat))) (logged (leBytes k x))
          fun t => t.putW d (loadedWord k (!q.signed) (leBytes k x)) 0 (.fixed 0))) ∧
      (∀ d k cmp new old, q.regs = [.w d] → q.what = .cas k cmp new → 1 ≤ k → k ≤ 8 →
        let x := old % 2 ^ (8 * k)
        exec (.atomicopCompletion q.id .sc old) s = .next (goesOn
          (if x = cmp then s.hostAtomicWrite q (leBytes k x) (leBytes k new) else s) (logged (leBytes k x))
          fun t => t.putW d (loadedWord k (!q.signed) (leBytes k x)) 0 (.fixed 0))) ∧
      (∀ old new : List Byte,
        (∀ j, State.atomicPlaces q old = [j] → (s.hostAtomicWrite q old new).mem =
          Cells.writeN s.mem q.pa ((q.since.drop j).foldl (State.overlay q.pa) new)) ∧
        (q.since = [] → (s.hostAtomicWrite q old new).mem = Cells.writeN s.mem q.pa new)) ∧
      (∀ status old, status ≠ .sc → exec (.atomicopCompletion q.id status old) s =
        .next ({ s with remote := left }.asCtx q.ctx fun t => t.trap 0x03 (t.rd a) 0))) ∧
    (q.toHost = false → (s.ctx q.ctx).status = .waiting .remote →
      (s.remote.find? (fun r => r.id == q.id && !r.toHost) = some q →
        exec (.causewayTimeout q.id) s =
          .next ({ s with remote := left }.asCtx q.ctx fun t => t.trap 0x0F 7 (BitVec.ofNat 64 q.pa))) ∧
      (s.remote.find? (fun r => r.uid == q.uid && !r.toHost) = some q →
        let ticked := { s with fresh := s.fresh + 1 }
        let bytes := fun k => (List.range k).map (Config.remoteByte s.fresh)
        (∀ d k, q.regs = [.w d] → q.what = .load k → q.sym = none → 1 ≤ k → k ≤ 8 →
          exec (.resultArrive q.uid (.w 0)) s = .next (goesOn ticked (fun t => t.recordPlain k (.mem q.pa))
            fun t => t.putW d (loadedWord k (!q.signed) (bytes k)) 0 (.fixed 0))) ∧
        (∀ d k va, q.regs = [.w d] → q.what = .load k → q.sym = some va → 1 ≤ k → k ≤ 8 →
          exec (.resultArrive q.uid (.w 0)) s = .next ({ ticked with remote := left }.asCtx q.ctx fun t =>
            let noted := t.recordSymbolic k d va (.mem q.pa) (bytes k)
            ((noted.1.popPorts q.reads).putW d (loadedWord k (!q.signed) (bytes k)) noted.2 (.fixed 0)).refetch.proceed)) ∧
        (∀ data, q.regs = [] → q.what = .store data →
          exec (.resultArrive q.uid (.w 0)) s = .next (goesOn ticked (fun t => t) fun t => t))))) ∧
  (∀ (s : State) (node asid : Nat) (r : TaskRec), (s.full = false → exec (.remoteSpawnArrive node asid r) s = .next s) ∧
    (s.full = true → (∀ l, s.launches.get? r.lq = some l → l.asid ≠ asid ∨ r.blk ∉ l.blocks) →
      exec (.remoteSpawnArrive node asid r) s = .next { s with outbox := s.outbox ++ [.spawnAck node r.lq false] }) ∧
    (∀ l, s.full = true → s.launches.get? r.lq = some l → l.asid = asid → r.blk ∈ l.blocks →
      let tile := s.recordTile r.blk
      let x := s.tile tile
      x.kills = [] → x.queue.length < 256 → x.spilled = [] → x.inbound = [] → x.spillWait = [] →
      exec (.remoteSpawnArrive node asid r) s = .next { s with
        tiles := s.tiles.set tile { x with
          queue := x.queue ++ [{ r with ord := false, res := false, ts := 0, tb := 0, ptb := 0, pts := 0, uid := s.nextUid }] }
        launches := s.launches.set r.lq { l with lastSent := s.cycle }
        nextUid := s.nextUid + 1, outbox := s.outbox ++ [.spawnAck node r.lq true]
        agenda := if x.gated = true then insertDue s.cycle (.tileWake tile) s.agenda else s.agenda })) ∧
  (∀ (s : State) (lq node : Nat) (l : Launch), s.launches.get? lq = some l →
    (l.remoteOut = 0 → exec (.remoteSpawnAck lq) s = .next s ∧ exec (.remoteSpawnRefuse lq node) s = .next s) ∧
    (l.remoteOut ≠ 0 → let tile := l.tiles.headD 0
      let x := s.tile tile
      let y := s.tileLaunch tile lq
      let counted := { x with perLaunch := x.perLaunch.set lq { y with trecv := y.trecv + 1 } }
      let launches := s.launches.set lq { l with remoteOut := l.remoteOut - 1 }
      exec (.remoteSpawnAck lq) s = .next { s with tiles := s.tiles.set tile counted, launches := launches } ∧
      (x.trapQ.length < 16 → exec (.remoteSpawnRefuse lq node) s = .next { s with
        tiles := s.tiles.set tile { counted with trapQ := x.trapQ ++
          [⟨⟨0x03, BitVec.ofNat 64 node, 0, false, false, false, true, false⟩, lq, s.handlerBlock tile lq, tile, 0, 0⟩] }
        launches := launches })))

/-! ## Coherence -/

/-- A die's L2: in each state a message from the home has the transition and the answer that R237 gives, the waiting write is
performed when Data(M) or UpgAck comes, unless its range has been locked meanwhile, and a message that a state does not list,
which cannot occur, is dropped (R25, R231, R237, R240, R333). Choices of the model that it rests on: logs 2, 49, 51. -/
def Obligations.CacheTransitions : Prop :=
  ∀ (s : State) (die line : Nat), die < 8 → (s.l2.map (·.1)).Pairwise (· < ·) → (s.setMates die line).length < 16 →
    (∀ p ∈ s.stores, p.ready = false) →
    let x := s.l2St die line
    let moves := fun (i : Instr) (y : L2St) (reply : Option Event) => ∃ t : State, exec i s = .next t ∧ t.l2St die line = y ∧
      (∀ d j, d < 8 → d ≠ die ∨ j ≠ line → t.l2St d j = s.l2St d j) ∧ t.mem = s.mem ∧ t.frames = s.frames ∧ t.ctxs = s.ctxs ∧
      t.stores = s.stores ∧ t.agenda = (match reply with
        | some e => insertDue (s.cycle + (if e = .fwddata die line then 60 else 1) + Config.latency s.fresh) e s.agenda
        | none => s.agenda) ∧
      (y = .i ∨ y = .im → x ∉ [.is_, .im, .mi] → reply ≠ some (.fwdnone die line) →
        ∀ tile l1, t.tiles.get? tile = some l1 → dieOf tile = die → ∀ e ∈ l1.l1, e.pline ≠ line)
    let table := fun (i : Instr) (rows : List (L2St × L2St × Option Event)) =>
      (∀ r ∈ rows, r.1 = x → moves i r.2.1 r.2.2) ∧ ((∀ r ∈ rows, r.1 ≠ x) → exec i s = .next s)
    let data := some (.fwddata die line)
    let noData := some (.fwdnone die line)
    let ack := some (.invack die line)
    table (.dataS die line) [(.is_, .s, none)] ∧ table (.dataE die line) [(.is_, .e, none)] ∧
    table (.dataM die line) [(.im, .m, none), (.sm, .m, none)] ∧ table (.upgack die line) [(.sm, .m, none)] ∧
    table (.wback die line) [(.mi, .i, none)] ∧
    table (.inv die line) [(.s, .i, ack), (.i, .i, ack), (.sm, .im, ack), (.is_, .is_, ack), (.im, .im, ack)] ∧
    table (.fwds die line) [(.m, .o, data), (.e, .s, data), (.o, .o, data), (.mi, .mi, data), (.sm, .sm, data), (.i, .i, noData),
      (.is_, .is_, noData), (.im, .im, noData)] ∧
    table (.fwdx die line) [(.m, .i, data), (.e, .i, data), (.o, .i, data), (.sm, .im, data), (.mi, .mi, data), (.i, .i, noData),
      (.is_, .is_, noData), (.im, .im, noData)] ∧
    (x = .sm → ∀ t1 : State, exec (.upgack die line) s = .next t1 →
      ∀ p : PendStore, dieOf p.tile = die → (p.bytes.getD 0 (0, 0)).1 / 64 = line → p.ready = true → (∀ q ∈ s.stores, q.id ≠ p.id) →
        let pa := (p.bytes.getD 0 (0, 0)).1
        let waits := { t1 with stores := s.stores ++ [{ p with ready := false }] }
        let hit := s.lockHit p.tile (s.launch p.lq).asid p.va (.mem pa) true
        (hit = none → exec (.upgack die line) { s with stores := s.stores ++ [p] } = .next (waits.performMemory { p with ready := true } pa)) ∧
        (hit ≠ none → exec (.upgack die line) { s with stores := s.stores ++ [p] } = .next { waits with
          agenda := insertDue (s.cycle + 1 + Config.latency s.fresh) (.storeAcknowledge p.id) s.agenda, fresh := s.fresh + 1 }))

/-- The home: a request that finds the line at rest is answered or begins the forwards and invalidations of R238; the last
answer completes it, and one that comes unasked is dropped; a WriteBack gives the line up and is acknowledged; 20 µs of retries
over a failed bridge poison the line (R11, R238, R239, R240, R241, R298, R334). Choices of the model that it rests on: logs 41,
50, 51. -/
def Obligations.HomeTransitions : Prop :=
  (∀ (s : State) (die line : Nat) (r : HomeReq) (i : Instr),
    (r, i) ∈ [(HomeReq.reads, Instr.reads die line), (.readx, .readx die line), (.upgrade, .upgrade die line)] →
    s.lowerFirst die line = false →
    let h := s.homeLine line
    let others := h.mask.filter fun d => d != die
    let taken := { s with
      hostHeld := s.hostHeld.filter (fun l => l != line)
      outbox := if s.hostHeld.contains line then s.outbox ++ [Out.backInval line] else s.outbox }
    let sends := fun (t : State) (e : Event) => ∃ due, s.cycle < due ∧ (due, e) ∈ t.agenda
    let owned := fun (e : Event) => ∃ t : State, exec i s = .next t ∧ sends t e ∧ t.hostHeld = taken.hostHeld ∧
      t.outbox = taken.outbox ∧ t.home = s.home.set line { h with st := .x, owner := die, mask := [] }
    let begins := fun (q : HomeReq) (acks : List Nat) (fwd : Option Event) => ∃ t : State, exec i s = .next t ∧
      t.home = s.home.set line { h with busy := some ⟨q, die, acks, fwd.isSome, false, false, false, false⟩ } ∧
      (∀ d ∈ acks, sends t (.inv d line)) ∧ (∀ e, fwd = some e → sends t e) ∧ t.outbox = s.outbox
    (h.busy.isSome = true ∨ h.queue ≠ [] →
      exec i s = .next { s with home := s.home.set line { h with queue := h.queue ++ [(r, die)] } }) ∧
    (h.busy = none → h.queue = [] → s.linksDown = [] →
      (h.st = .i → owned (if r = .reads then .dataE die line else .dataM die line)) ∧
      (h.st = .s → r = .reads → ∃ t : State, exec i s = .next t ∧ sends t (.dataS die line) ∧
        t.home = s.home.set line { h with mask := insertNat die h.mask }) ∧
      (h.st = .s → r ≠ .reads → others = [] →
        owned (if r = .upgrade ∧ die ∈ h.mask then .upgack die line else .dataM die line)) ∧
      (h.st = .s → r ≠ .reads → others ≠ [] → begins (if r = .upgrade ∧ die ∈ h.mask then .upgrade else .readx) others none) ∧
      (h.st = .x ∨ h.st = .o → r = .reads → begins .reads [] (some (.fwds h.owner line))) ∧
      (h.st = .x → r ≠ .reads → begins .readx others (some (.fwdx h.owner line))) ∧
      (h.st = .o → r = .readx → begins .readx others (some (.fwdx h.owner line))) ∧
      (h.st = .o → r = .upgrade → h.owner = die → others ≠ [] → begins .upgrade others none) ∧
      (h.st = .o → r = .upgrade → h.owner = die → others = [] → owned (.upgack die line)) ∧
      (h.st = .o → r = .upgrade → h.owner ≠ die →
        begins (if die ∈ h.mask then .upgrade else .readx) others (some (.fwdx h.owner line))) ∧
      (h.st = .p → exec i s = exec i ((s.combine line).setHome line { (s.combine line).homeLine line with st := .i, mask := [] })))) ∧
  (∀ (s : State) (die line : Nat) (b : Busy), (s.homeLine line).busy = some b → (s.homeLine line).queue = [] →
    let h := s.homeLine line
    let free := { h with busy := none }
    let sends := fun (t : State) (e : Event) => ∃ due, s.cycle < due ∧ (due, e) ∈ t.agenda
    let owned := fun (i : Instr) (e : Event) => ∃ t : State, exec i s = .next t ∧ sends t e ∧
      t.home = s.home.set line { free with st := .x, owner := b.die, mask := [] }
    let reply := if b.req = .upgrade then .upgack b.die line else .dataM b.die line
    (b.acks.filter (fun d => d != die) ≠ [] ∨ b.needData = true → exec (.invack die line) s = .next { s with
      home := s.home.set line { h with busy := some { b with acks := b.acks.filter fun d => d != die } } }) ∧
    (b.acks.filter (fun d => d != die) = [] → b.needData = false → b.req ≠ .reads → owned (.invack die line) reply) ∧
    (die ∉ h.drops → b.needData = true → h.owner = die →
      (b.acks ≠ [] → exec (.fwddata die line) s = .next { s with
        home := s.home.set line { h with busy := some { b with needData := false, absent := false } } }) ∧
      (b.acks = [] → b.req ≠ .reads → owned (.fwddata die line) reply ∧ owned (.fwdnone die line) reply) ∧
      (b.acks = [] → b.req = .reads → owned (.fwdnone die line) (.dataE b.die line)) ∧
      (b.acks = [] → b.req = .reads → b.served = false → ∃ t : State, exec (.fwddata die line) s = .next t ∧
        sends t (.dataS b.die line) ∧ t.home = s.home.set line (if h.st = .o ∨ b.ownerDirty = true
          then { free with st := .o, mask := insertNat b.die h.mask }
          else { free with st := .s, mask := insertNat h.owner (insertNat b.die h.mask) }))) ∧
    (die ∉ h.drops → b.needData = false ∨ h.owner ≠ die →
      exec (.fwddata die line) s = .next s ∧ exec (.fwdnone die line) s = .next s) ∧
    (die ∈ h.drops → ∀ i ∈ [Instr.fwddata die line, .fwdnone die line],
      exec i s = .next { s with home := s.home.set line { h with drops := h.drops.erase die } }) ∧
    (h.owner = die → h.st = .x ∨ h.st = .o → b.needData = true → b.acks = [] → b.req = .reads → b.absent = false →
      ∃ t : State, exec (.writeback die line) s = .next t ∧ sends t (.wback die line) ∧ sends t (.dataS b.die line) ∧
        t.home = s.home.set line { free with
          st := .s, mask := if h.st = .o then insertNat b.die h.mask else [b.die], drops := die :: h.drops }) ∧
    (h.owner = die → h.st = .x ∨ h.st = .o → b.needData = true → b.acks ≠ [] → ∃ t : State, exec (.writeback die line) s = .next t ∧
      sends t (.wback die line) ∧ t.home = s.home.set line { h with
        busy := some { b with needData := false, served := true }, drops := die :: h.drops }) ∧
    (b.retry = true → b.acks ≠ [] → s.stores = [] → ∃ t : State, exec (.invRetryTimeout line) s = .next t ∧ line ∈ t.poison ∧
      (t.homeLine line).st = .i ∧ (t.homeLine line).busy = none ∧ (t.homeLine line).mask = [] ∧ t.mem = s.mem ∧ t.ctxs = s.ctxs) ∧
    (b.retry = false ∨ b.acks = [] → exec (.invRetryTimeout line) s = .next s)) ∧
  (∀ (s : State) (die line : Nat), (s.homeLine line).queue = [] →
    let h := s.homeLine line
    (h.busy = none → exec (.invack die line) s = .next s ∧ exec (.invRetryTimeout line) s = .next s ∧
      ∃ t : State, exec (.writeback die line) s = .next t ∧ (∃ due, s.cycle < due ∧ (due, .wback die line) ∈ t.agenda) ∧
        t.home = (if h.owner ≠ die then s.home else if h.st = .x then s.home.set line { h with st := .i, mask := [] }
          else if h.st = .o then s.home.set line { h with st := .s } else s.home)) ∧
    (h.busy = none → die ∉ h.drops → exec (.fwddata die line) s = .next s ∧ exec (.fwdnone die line) s = .next s)) ∧
  (∀ (s : State) (a b : Nat), let k := (min a b, max a b)
    let down := { s with linksDown := if k ∈ s.linksDown then s.linksDown else k :: s.linksDown }
    s.failLink a b = down ∧ (down.cutOff = false ∨ s.cutOff = true ∨ s.launches = [] → exec (.dieLinkFailure a b) s = .next down))

/-! ## Resets and hardware faults -/

/-- Resets leave the reset values and what outlives them; full service starts with no launch running and gives the package its
node; a retired tile, two base dies that no route joins, or an uncorrectable thread-context entry ends the launches it touches
with machine check, its kind in the status, and an interrupt; other uncorrectable errors poison what was changed and refill what
was not (R6, R11, R19, R22, R32, R40, R154, R165, R173, R279, R290, R291, R297, R306, R309). Choices of the model that it rests
on: logs 12, 17, 40, 55, 57, 63, 96. -/
def Obligations.ResetsAndFailures : Prop :=
  (∀ s : State,
    exec .powerOnReset s = .next { State.reset with
      mem := s.mem.filter fun c => isHostMem c.1
      retired := s.retired, fwRun := Config.firmwareVerified s.fresh, fresh := s.fresh + 1 } ∧
    exec .packageReset s = .next { State.reset with
      node := s.node, mem := s.mem, poison := s.poison, retired := s.retired, reportCount := s.reportCount
      fwRun := Config.firmwareVerified s.fresh, fresh := s.fresh + 1 } ∧
    (s.fwRun = true → s.launches = [] → exec .fullServiceStart s = .next { s with
      full := true, node := Config.nodeNumber s.node s.fresh % 2 ^ 21, fresh := s.fresh + 1 }) ∧
    (s.fwRun = false ∨ s.launches ≠ [] → exec .fullServiceStart s = .next s)) ∧
  (∀ (s : State) (q kind : Nat) (l : Launch) (i : Instr), s.launches = [(q, l)] → l.lq = q → s.specs = [] → s.stores = [] →
    Memory.wf s.mem = true → s.absentMemory l.statusAt = false → l.done = 0 → (s.queue q).map = true →
    ((∃ t, i = .tileRetire t ∧ kind = 4 ∧ isTile t = true ∧ t ∉ s.retired ∧ t ∈ l.tiles) ∨
      (∃ a b, i = .bridgeFailure a b ∧ kind = 5) ∨
      (∃ a b, i = .dieLinkFailure a b ∧ kind = 5 ∧ s.cutOff = false ∧ (s.failLink a b).cutOff = true) ∨
      (∃ tile entry e, i = .tcsUncorrectable tile (17 + entry) ∧ kind = 3 ∧ (s.tile tile).tcs[entry]? = some e ∧ e.2 = q) ∨
      (∃ tile slot, i = .tcsUncorrectable tile slot ∧ kind = 3 ∧ slot ≤ 16 ∧ (s.ctx (ctxKey tile slot)).status ≠ .free ∧
        State.restingSys (s.ctx (ctxKey tile slot)) = false ∧ (s.ctx (ctxKey tile slot)).task.lq = q)) →
    ∃ t : State, exec i s = .next t ∧ t.launches = [] ∧ (t.queue q).run = false ∧ (∀ e ∈ t.blocks, e.2.lq ≠ q) ∧
      leNat (Cells.readN t.mem l.statusAt 8) = 4 + kind * 16 + 0x0F * 256 + s.cycle / 65536 % 2 ^ 48 * 65536 ∧
      t.outbox = s.outbox ++ [.msix q] ++ (if kind = 3 then [] else [.msix 64])) ∧
  (∀ (s : State) (tile : Nat), isTile tile = true → tile ∉ s.retired → (∀ e ∈ s.launches, tile ∉ e.2.tiles) →
    (s.tiles.map (·.1)).Pairwise (· < ·) →
    ∃ t : State, exec (.tileRetire tile) s = .next t ∧ t.retired = insertNat tile s.retired ∧ t.live tile = false ∧
      t.tiles.get? tile = none ∧ (∀ j, j ≠ tile → t.tiles.get? j = s.tiles.get? j) ∧ (∀ e ∈ t.ctxs, e.1 / 32 ≠ tile) ∧
      t.launches = s.launches ∧ t.mem = s.mem) ∧
  (∀ (s : State) (tile : Nat), isTile tile = false ∨ tile ∈ s.retired → exec (.tileRetire tile) s = .next s) ∧
  (∀ (s : State) (a b : Nat), a < 4 → b < 4 → a ≠ b → (s.failRoutes a b).cutOff = true ∧
    (s.launches = [] → exec (.bridgeFailure a b) s = .next (s.failRoutes a b))) ∧
  (∀ (s : State) (tile slot : Nat),
    (slot ≤ 16 ∧ (s.ctx (ctxKey tile slot)).status ∈ [.free, .waiting .idle, .waiting .serving] ∨ 17 + (s.tile tile).tcs.length ≤ slot) →
    exec (.tcsUncorrectable tile slot) s = .next s) ∧
  (∀ (s : State) (die line : Nat), die < 8 → (s.l2.map (·.1)).Pairwise (· < ·) →
    let x := s.l2St die line
    let dropped := s.tiles.map fun e => (e.1, { e.2 with l1 := e.2.l1.filter fun c => c.pline != line })
    let poisoned := { s with poison := insertNat line s.poison, tiles := dropped }
    exec (.hbmUncorrectable line) s = .next poisoned ∧
    let owned := (s.homeLine line).owner = die ∧ (s.homeLine line).st = .o
    (x ∈ [.m, .o, .mi, .p] ∨ x = .sm ∧ owned → exec (.l2Uncorrectable die line) s = .next poisoned) ∧
    (x ∈ [.s, .e] → ∃ t : State, exec (.l2Uncorrectable die line) s = .next t ∧ t.l2St die line = .i ∧ t.poison = s.poison ∧
      t.mem = s.mem ∧ (∀ j, j ≠ line → t.l2St die j = s.l2St die j)) ∧
    (x ∈ [.i, .is_, .im] ∨ x = .sm ∧ ¬owned → exec (.l2Uncorrectable die line) s = .next s)) ∧
  (∀ (s : State) (tile asid vline frame : Nat), let x := s.tile tile
    exec (.l1Uncorrectable tile asid vline) s = .next { s with
      tiles := s.tiles.set tile { x with l1 := x.l1.filter fun e => !(e.asid == asid && e.vline == vline) } } ∧
    ((∀ e ∈ s.framedOn tile, e.2.2.frame ≠ frame) → exec (.frameUncorrectable tile frame) s = .next s) ∧
    ((∃ e ∈ s.framedOn tile, e.2.2.frame = frame) → exec (.frameUncorrectable tile frame) s =
      .next { s with frameBad := if (tile, frame) ∈ s.frameBad then s.frameBad else (tile, frame) :: s.frameBad }))
end

