-- ==== Sys2Proof/Laws/Encoding.lean ====
section
/-!
SUPPORT. The fields of a packed word are the fields packed (R90): one lemma for each field of each format.
-/
set_option linter.unusedSimpArgs false
namespace Sys2Proof

theorem fOp_packR (op : BitVec 6) (d : BitVec 6) (a : BitVec 6) (b : BitVec 6) (fn : BitVec 6) (sc : BitVec 2) : fOp (packR op d a b fn sc) = op := by
  show BitVec.extractLsb' 26 6 (op ++ d ++ a ++ b ++ fn ++ sc : BitVec (6+6+6+6+6+2)) = _
  rw [BitVec.extractLsb'_append_eq_of_le (by decide), BitVec.extractLsb'_append_eq_of_le (by decide), BitVec.extractLsb'_append_eq_of_le (by decide), BitVec.extractLsb'_append_eq_of_le (by decide), BitVec.extractLsb'_append_eq_of_le (by decide)]
  simp
theorem fD_packR (op : BitVec 6) (d : BitVec 6) (a : BitVec 6) (b : BitVec 6) (fn : BitVec 6) (sc : BitVec 2) : fD (packR op d a b fn sc) = d := by
  show BitVec.extractLsb' 20 6 (op ++ d ++ a ++ b ++ fn ++ sc : BitVec (6+6+6+6+6+2)) = _
  rw [BitVec.extractLsb'_append_eq_of_le (by decide), BitVec.extractLsb'_append_eq_of_le (by decide), BitVec.extractLsb'_append_eq_of_le (by decide), BitVec.extractLsb'_append_eq_of_le (by decide), BitVec.extractLsb'_append_eq_of_add_le (by decide)]
  simp
theorem fA_packR (op : BitVec 6) (d : BitVec 6) (a : BitVec 6) (b : BitVec 6) (fn : BitVec 6) (sc : BitVec 2) : fA (packR op d a b fn sc) = a := by
  show BitVec.extractLsb' 14 6 (op ++ d ++ a ++ b ++ fn ++ sc : BitVec (6+6+6+6+6+2)) = _
  rw [BitVec.extractLsb'_append_eq_of_le (by decide), BitVec.extractLsb'_append_eq_of_le (by decide), BitVec.extractLsb'_append_eq_of_le (by decide), BitVec.extractLsb'_append_eq_of_add_le (by decide)]
  simp
theorem fB_packR (op : BitVec 6) (d : BitVec 6) (a : BitVec 6) (b : BitVec 6) (fn : BitVec 6) (sc : BitVec 2) : fB (packR op d a b fn sc) = b := by
  show BitVec.extractLsb' 8 6 (op ++ d ++ a ++ b ++ fn ++ sc : BitVec (6+6+6+6+6+2)) = _
  rw [BitVec.extractLsb'_append_eq_of_le (by decide), BitVec.extractLsb'_append_eq_of_le (by decide), BitVec.extractLsb'_append_eq_of_add_le (by decide)]
  simp
theorem fFn_packR (op : BitVec 6) (d : BitVec 6) (a : BitVec 6) (b : BitVec 6) (fn : BitVec 6) (sc : BitVec 2) : fFn (packR op d a b fn sc) = fn := by
  show BitVec.extractLsb' 2 6 (op ++ d ++ a ++ b ++ fn ++ sc : BitVec (6+6+6+6+6+2)) = _
  rw [BitVec.extractLsb'_append_eq_of_le (by decide), BitVec.extractLsb'_append_eq_of_add_le (by decide)]
  simp
theorem fLo6_packR (op : BitVec 6) (d : BitVec 6) (a : BitVec 6) (b : BitVec 6) (fn : BitVec 6) (sc : BitVec 2) : fLo6 (packR op d a b fn sc) = fn := by
  show BitVec.extractLsb' 2 6 (op ++ d ++ a ++ b ++ fn ++ sc : BitVec (6+6+6+6+6+2)) = _
  rw [BitVec.extractLsb'_append_eq_of_le (by decide), BitVec.extractLsb'_append_eq_of_add_le (by decide)]
  simp
theorem fSc_packR (op : BitVec 6) (d : BitVec 6) (a : BitVec 6) (b : BitVec 6) (fn : BitVec 6) (sc : BitVec 2) : fSc (packR op d a b fn sc) = sc := by
  show BitVec.extractLsb' 0 2 (op ++ d ++ a ++ b ++ fn ++ sc : BitVec (6+6+6+6+6+2)) = _
  rw [BitVec.extractLsb'_append_eq_of_add_le (by decide)]
  simp
theorem fFnHi_packR (op : BitVec 6) (d : BitVec 6) (a : BitVec 6) (b : BitVec 6) (fn : BitVec 6) (sc : BitVec 2) : fFnHi (packR op d a b fn sc) = fn.extractLsb' 3 3 := by
  show BitVec.extractLsb' 5 3 (op ++ d ++ a ++ b ++ fn ++ sc : BitVec (6+6+6+6+6+2)) = _
  rw [BitVec.extractLsb'_append_eq_of_le (by decide), BitVec.extractLsb'_append_eq_of_add_le (by decide)]
theorem fFnLo_packR (op : BitVec 6) (d : BitVec 6) (a : BitVec 6) (b : BitVec 6) (fn : BitVec 6) (sc : BitVec 2) : fFnLo (packR op d a b fn sc) = fn.extractLsb' 0 3 := by
  show BitVec.extractLsb' 2 3 (op ++ d ++ a ++ b ++ fn ++ sc : BitVec (6+6+6+6+6+2)) = _
  rw [BitVec.extractLsb'_append_eq_of_le (by decide), BitVec.extractLsb'_append_eq_of_add_le (by decide)]
theorem fOp_packI (op : BitVec 6) (d : BitVec 6) (a : BitVec 6) (imm : BitVec 12) (sc : BitVec 2) : fOp (packI op d a imm sc) = op := by
  show BitVec.extractLsb' 26 6 (op ++ d ++ a ++ imm ++ sc : BitVec (6+6+6+12+2)) = _
  rw [BitVec.extractLsb'_append_eq_of_le (by decide), BitVec.extractLsb'_append_eq_of_le (by decide), BitVec.extractLsb'_append_eq_of_le (by decide), BitVec.extractLsb'_append_eq_of_le (by decide)]
  simp
theorem fD_packI (op : BitVec 6) (d : BitVec 6) (a : BitVec 6) (imm : BitVec 12) (sc : BitVec 2) : fD (packI op d a imm sc) = d := by
  show BitVec.extractLsb' 20 6 (op ++ d ++ a ++ imm ++ sc : BitVec (6+6+6+12+2)) = _
  rw [BitVec.extractLsb'_append_eq_of_le (by decide), BitVec.extractLsb'_append_eq_of_le (by decide), BitVec.extractLsb'_append_eq_of_le (by decide), BitVec.extractLsb'_append_eq_of_add_le (by decide)]
  simp
theorem fA_packI (op : BitVec 6) (d : BitVec 6) (a : BitVec 6) (imm : BitVec 12) (sc : BitVec 2) : fA (packI op d a imm sc) = a := by
  show BitVec.extractLsb' 14 6 (op ++ d ++ a ++ imm ++ sc : BitVec (6+6+6+12+2)) = _
  rw [BitVec.extractLsb'_append_eq_of_le (by decide), BitVec.extractLsb'_append_eq_of_le (by decide), BitVec.extractLsb'_append_eq_of_add_le (by decide)]
  simp
theorem fImm12_packI (op : BitVec 6) (d : BitVec 6) (a : BitVec 6) (imm : BitVec 12) (sc : BitVec 2) : fImm12 (packI op d a imm sc) = imm := by
  show BitVec.extractLsb' 2 12 (op ++ d ++ a ++ imm ++ sc : BitVec (6+6+6+12+2)) = _
  rw [BitVec.extractLsb'_append_eq_of_le (by decide), BitVec.extractLsb'_append_eq_of_add_le (by decide)]
  simp
theorem fSc_packI (op : BitVec 6) (d : BitVec 6) (a : BitVec 6) (imm : BitVec 12) (sc : BitVec 2) : fSc (packI op d a imm sc) = sc := by
  show BitVec.extractLsb' 0 2 (op ++ d ++ a ++ imm ++ sc : BitVec (6+6+6+12+2)) = _
  rw [BitVec.extractLsb'_append_eq_of_add_le (by decide)]
  simp
theorem fOp_packL (op : BitVec 6) (d : BitVec 6) (imm : BitVec 18) (sc : BitVec 2) : fOp (packL op d imm sc) = op := by
  show BitVec.extractLsb' 26 6 (op ++ d ++ imm ++ sc : BitVec (6+6+18+2)) = _
  rw [BitVec.extractLsb'_append_eq_of_le (by decide), BitVec.extractLsb'_append_eq_of_le (by decide), BitVec.extractLsb'_append_eq_of_le (by decide)]
  simp
theorem fD_packL (op : BitVec 6) (d : BitVec 6) (imm : BitVec 18) (sc : BitVec 2) : fD (packL op d imm sc) = d := by
  show BitVec.extractLsb' 20 6 (op ++ d ++ imm ++ sc : BitVec (6+6+18+2)) = _
  rw [BitVec.extractLsb'_append_eq_of_le (by decide), BitVec.extractLsb'_append_eq_of_le (by decide), BitVec.extractLsb'_append_eq_of_add_le (by decide)]
  simp
theorem fImm18_packL (op : BitVec 6) (d : BitVec 6) (imm : BitVec 18) (sc : BitVec 2) : fImm18 (packL op d imm sc) = imm := by
  show BitVec.extractLsb' 2 18 (op ++ d ++ imm ++ sc : BitVec (6+6+18+2)) = _
  rw [BitVec.extractLsb'_append_eq_of_le (by decide), BitVec.extractLsb'_append_eq_of_add_le (by decide)]
  simp
theorem fImm16_packL (op : BitVec 6) (d : BitVec 6) (imm : BitVec 18) (sc : BitVec 2) : fImm16 (packL op d imm sc) = imm.extractLsb' 0 16 := by
  show BitVec.extractLsb' 2 16 (op ++ d ++ imm ++ sc : BitVec (6+6+18+2)) = _
  rw [BitVec.extractLsb'_append_eq_of_le (by decide), BitVec.extractLsb'_append_eq_of_add_le (by decide)]
theorem fImm18Hi_packL (op : BitVec 6) (d : BitVec 6) (imm : BitVec 18) (sc : BitVec 2) : fImm18Hi (packL op d imm sc) = imm.extractLsb' 16 2 := by
  show BitVec.extractLsb' 18 2 (op ++ d ++ imm ++ sc : BitVec (6+6+18+2)) = _
  rw [BitVec.extractLsb'_append_eq_of_le (by decide), BitVec.extractLsb'_append_eq_of_add_le (by decide)]
theorem fSc_packL (op : BitVec 6) (d : BitVec 6) (imm : BitVec 18) (sc : BitVec 2) : fSc (packL op d imm sc) = sc := by
  show BitVec.extractLsb' 0 2 (op ++ d ++ imm ++ sc : BitVec (6+6+18+2)) = _
  rw [BitVec.extractLsb'_append_eq_of_add_le (by decide)]
  simp
theorem fOp_packJ (op : BitVec 6) (off : BitVec 24) (sc : BitVec 2) : fOp (packJ op off sc) = op := by
  show BitVec.extractLsb' 26 6 (op ++ off ++ sc : BitVec (6+24+2)) = _
  rw [BitVec.extractLsb'_append_eq_of_le (by decide), BitVec.extractLsb'_append_eq_of_le (by decide)]
  simp
theorem fOff24_packJ (op : BitVec 6) (off : BitVec 24) (sc : BitVec 2) : fOff24 (packJ op off sc) = off := by
  show BitVec.extractLsb' 2 24 (op ++ off ++ sc : BitVec (6+24+2)) = _
  rw [BitVec.extractLsb'_append_eq_of_le (by decide), BitVec.extractLsb'_append_eq_of_add_le (by decide)]
  simp
theorem fSc_packJ (op : BitVec 6) (off : BitVec 24) (sc : BitVec 2) : fSc (packJ op off sc) = sc := by
  show BitVec.extractLsb' 0 2 (op ++ off ++ sc : BitVec (6+24+2)) = _
  rw [BitVec.extractLsb'_append_eq_of_add_le (by decide)]
  simp
theorem fOp_packM (op : BitVec 6) (d : BitVec 6) (a : BitVec 6) (b : BitVec 6) (scope : BitVec 3) (order : BitVec 3) (sc : BitVec 2) : fOp (packM op d a b scope order sc) = op := by
  show BitVec.extractLsb' 26 6 (op ++ d ++ a ++ b ++ scope ++ order ++ sc : BitVec (6+6+6+6+3+3+2)) = _
  rw [BitVec.extractLsb'_append_eq_of_le (by decide), BitVec.extractLsb'_append_eq_of_le (by decide), BitVec.extractLsb'_append_eq_of_le (by decide), BitVec.extractLsb'_append_eq_of_le (by decide), BitVec.extractLsb'_append_eq_of_le (by decide), BitVec.extractLsb'_append_eq_of_le (by decide)]
  simp
theorem fD_packM (op : BitVec 6) (d : BitVec 6) (a : BitVec 6) (b : BitVec 6) (scope : BitVec 3) (order : BitVec 3) (sc : BitVec 2) : fD (packM op d a b scope order sc) = d := by
  show BitVec.extractLsb' 20 6 (op ++ d ++ a ++ b ++ scope ++ order ++ sc : BitVec (6+6+6+6+3+3+2)) = _
  rw [BitVec.extractLsb'_append_eq_of_le (by decide), BitVec.extractLsb'_append_eq_of_le (by decide), BitVec.extractLsb'_append_eq_of_le (by decide), BitVec.extractLsb'_append_eq_of_le (by decide), BitVec.extractLsb'_append_eq_of_le (by decide), BitVec.extractLsb'_append_eq_of_add_le (by decide)]
  simp
theorem fA_packM (op : BitVec 6) (d : BitVec 6) (a : BitVec 6) (b : BitVec 6) (scope : BitVec 3) (order : BitVec 3) (sc : BitVec 2) : fA (packM op d a b scope order sc) = a := by
  show BitVec.extractLsb' 14 6 (op ++ d ++ a ++ b ++ scope ++ order ++ sc : BitVec (6+6+6+6+3+3+2)) = _
  rw [BitVec.extractLsb'_append_eq_of_le (by decide), BitVec.extractLsb'_append_eq_of_le (by decide), BitVec.extractLsb'_append_eq_of_le (by decide), BitVec.extractLsb'_append_eq_of_le (by decide), BitVec.extractLsb'_append_eq_of_add_le (by decide)]
  simp
theorem fB_packM (op : BitVec 6) (d : BitVec 6) (a : BitVec 6) (b : BitVec 6) (scope : BitVec 3) (order : BitVec 3) (sc : BitVec 2) : fB (packM op d a b scope order sc) = b := by
  show BitVec.extractLsb' 8 6 (op ++ d ++ a ++ b ++ scope ++ order ++ sc : BitVec (6+6+6+6+3+3+2)) = _
  rw [BitVec.extractLsb'_append_eq_of_le (by decide), BitVec.extractLsb'_append_eq_of_le (by decide), BitVec.extractLsb'_append_eq_of_le (by decide), BitVec.extractLsb'_append_eq_of_add_le (by decide)]
  simp
theorem fScopeBits_packM (op : BitVec 6) (d : BitVec 6) (a : BitVec 6) (b : BitVec 6) (scope : BitVec 3) (order : BitVec 3) (sc : BitVec 2) : fScopeBits (packM op d a b scope order sc) = scope := by
  show BitVec.extractLsb' 5 3 (op ++ d ++ a ++ b ++ scope ++ order ++ sc : BitVec (6+6+6+6+3+3+2)) = _
  rw [BitVec.extractLsb'_append_eq_of_le (by decide), BitVec.extractLsb'_append_eq_of_le (by decide), BitVec.extractLsb'_append_eq_of_add_le (by decide)]
  simp
theorem fOrder_packM (op : BitVec 6) (d : BitVec 6) (a : BitVec 6) (b : BitVec 6) (scope : BitVec 3) (order : BitVec 3) (sc : BitVec 2) : fOrder (packM op d a b scope order sc) = order := by
  show BitVec.extractLsb' 2 3 (op ++ d ++ a ++ b ++ scope ++ order ++ sc : BitVec (6+6+6+6+3+3+2)) = _
  rw [BitVec.extractLsb'_append_eq_of_le (by decide), BitVec.extractLsb'_append_eq_of_add_le (by decide)]
  simp
theorem fSc_packM (op : BitVec 6) (d : BitVec 6) (a : BitVec 6) (b : BitVec 6) (scope : BitVec 3) (order : BitVec 3) (sc : BitVec 2) : fSc (packM op d a b scope order sc) = sc := by
  show BitVec.extractLsb' 0 2 (op ++ d ++ a ++ b ++ scope ++ order ++ sc : BitVec (6+6+6+6+3+3+2)) = _
  rw [BitVec.extractLsb'_append_eq_of_add_le (by decide)]
  simp
theorem fOp_packV (op : BitVec 6) (vd : BitVec 4) (va : BitVec 4) (vb : BitVec 4) (vc : BitVec 4) (m : BitVec 3) (fn : BitVec 5) (sc : BitVec 2) : fOp (packV op vd va vb vc m fn sc) = op := by
  show BitVec.extractLsb' 26 6 (op ++ vd ++ va ++ vb ++ vc ++ m ++ fn ++ sc : BitVec (6+4+4+4+4+3+5+2)) = _
  rw [BitVec.extractLsb'_append_eq_of_le (by decide), BitVec.extractLsb'_append_eq_of_le (by decide), BitVec.extractLsb'_append_eq_of_le (by decide), BitVec.extractLsb'_append_eq_of_le (by decide), BitVec.extractLsb'_append_eq_of_le (by decide), BitVec.extractLsb'_append_eq_of_le (by decide), BitVec.extractLsb'_append_eq_of_le (by decide)]
  simp
theorem fVd_packV (op : BitVec 6) (vd : BitVec 4) (va : BitVec 4) (vb : BitVec 4) (vc : BitVec 4) (m : BitVec 3) (fn : BitVec 5) (sc : BitVec 2) : fVd (packV op vd va vb vc m fn sc) = vd := by
  show BitVec.extractLsb' 22 4 (op ++ vd ++ va ++ vb ++ vc ++ m ++ fn ++ sc : BitVec (6+4+4+4+4+3+5+2)) = _
  rw [BitVec.extractLsb'_append_eq_of_le (by decide), BitVec.extractLsb'_append_eq_of_le (by decide), BitVec.extractLsb'_append_eq_of_le (by decide), BitVec.extractLsb'_append_eq_of_le (by decide), BitVec.extractLsb'_append_eq_of_le (by decide), BitVec.extractLsb'_append_eq_of_le (by decide), BitVec.extractLsb'_append_eq_of_add_le (by decide)]
  simp
theorem fVa_packV (op : BitVec 6) (vd : BitVec 4) (va : BitVec 4) (vb : BitVec 4) (vc : BitVec 4) (m : BitVec 3) (fn : BitVec 5) (sc : BitVec 2) : fVa (packV op vd va vb vc m fn sc) = va := by
  show BitVec.extractLsb' 18 4 (op ++ vd ++ va ++ vb ++ vc ++ m ++ fn ++ sc : BitVec (6+4+4+4+4+3+5+2)) = _
  rw [BitVec.extractLsb'_append_eq_of_le (by decide), BitVec.extractLsb'_append_eq_of_le (by decide), BitVec.extractLsb'_append_eq_of_le (by decide), BitVec.extractLsb'_append_eq_of_le (by decide), BitVec.extractLsb'_append_eq_of_le (by decide), BitVec.extractLsb'_append_eq_of_add_le (by decide)]
  simp
theorem fVb_packV (op : BitVec 6) (vd : BitVec 4) (va : BitVec 4) (vb : BitVec 4) (vc : BitVec 4) (m : BitVec 3) (fn : BitVec 5) (sc : BitVec 2) : fVb (packV op vd va vb vc m fn sc) = vb := by
  show BitVec.extractLsb' 14 4 (op ++ vd ++ va ++ vb ++ vc ++ m ++ fn ++ sc : BitVec (6+4+4+4+4+3+5+2)) = _
  rw [BitVec.extractLsb'_append_eq_of_le (by decide), BitVec.extractLsb'_append_eq_of_le (by decide), BitVec.extractLsb'_append_eq_of_le (by decide), BitVec.extractLsb'_append_eq_of_le (by decide), BitVec.extractLsb'_append_eq_of_add_le (by decide)]
  simp
theorem fVc_packV (op : BitVec 6) (vd : BitVec 4) (va : BitVec 4) (vb : BitVec 4) (vc : BitVec 4) (m : BitVec 3) (fn : BitVec 5) (sc : BitVec 2) : fVc (packV op vd va vb vc m fn sc) = vc := by
  show BitVec.extractLsb' 10 4 (op ++ vd ++ va ++ vb ++ vc ++ m ++ fn ++ sc : BitVec (6+4+4+4+4+3+5+2)) = _
  rw [BitVec.extractLsb'_append_eq_of_le (by decide), BitVec.extractLsb'_append_eq_of_le (by decide), BitVec.extractLsb'_append_eq_of_le (by decide), BitVec.extractLsb'_append_eq_of_add_le (by decide)]
  simp
theorem fM_packV (op : BitVec 6) (vd : BitVec 4) (va : BitVec 4) (vb : BitVec 4) (vc : BitVec 4) (m : BitVec 3) (fn : BitVec 5) (sc : BitVec 2) : fM (packV op vd va vb vc m fn sc) = m := by
  show BitVec.extractLsb' 7 3 (op ++ vd ++ va ++ vb ++ vc ++ m ++ fn ++ sc : BitVec (6+4+4+4+4+3+5+2)) = _
  rw [BitVec.extractLsb'_append_eq_of_le (by decide), BitVec.extractLsb'_append_eq_of_le (by decide), BitVec.extractLsb'_append_eq_of_add_le (by decide)]
  simp
theorem fVfn_packV (op : BitVec 6) (vd : BitVec 4) (va : BitVec 4) (vb : BitVec 4) (vc : BitVec 4) (m : BitVec 3) (fn : BitVec 5) (sc : BitVec 2) : fVfn (packV op vd va vb vc m fn sc) = fn := by
  show BitVec.extractLsb' 2 5 (op ++ vd ++ va ++ vb ++ vc ++ m ++ fn ++ sc : BitVec (6+4+4+4+4+3+5+2)) = _
  rw [BitVec.extractLsb'_append_eq_of_le (by decide), BitVec.extractLsb'_append_eq_of_add_le (by decide)]
  simp
theorem fVfn4_packV (op : BitVec 6) (vd : BitVec 4) (va : BitVec 4) (vb : BitVec 4) (vc : BitVec 4) (m : BitVec 3) (fn : BitVec 5) (sc : BitVec 2) : fVfn4 (packV op vd va vb vc m fn sc) = fn.extractLsb' 4 1 := by
  show BitVec.extractLsb' 6 1 (op ++ vd ++ va ++ vb ++ vc ++ m ++ fn ++ sc : BitVec (6+4+4+4+4+3+5+2)) = _
  rw [BitVec.extractLsb'_append_eq_of_le (by decide), BitVec.extractLsb'_append_eq_of_add_le (by decide)]
theorem fPart_packV (op : BitVec 6) (vd : BitVec 4) (va : BitVec 4) (vb : BitVec 4) (vc : BitVec 4) (m : BitVec 3) (fn : BitVec 5) (sc : BitVec 2) : fPart (packV op vd va vb vc m fn sc) = fn.extractLsb' 1 3 := by
  show BitVec.extractLsb' 3 3 (op ++ vd ++ va ++ vb ++ vc ++ m ++ fn ++ sc : BitVec (6+4+4+4+4+3+5+2)) = _
  rw [BitVec.extractLsb'_append_eq_of_le (by decide), BitVec.extractLsb'_append_eq_of_add_le (by decide)]
theorem fMd_packV (op : BitVec 6) (vd : BitVec 4) (va : BitVec 4) (vb : BitVec 4) (vc : BitVec 4) (m : BitVec 3) (fn : BitVec 5) (sc : BitVec 2) : fMd (packV op vd va vb vc m fn sc) = vd.extractLsb' 0 3 := by
  show BitVec.extractLsb' 22 3 (op ++ vd ++ va ++ vb ++ vc ++ m ++ fn ++ sc : BitVec (6+4+4+4+4+3+5+2)) = _
  rw [BitVec.extractLsb'_append_eq_of_le (by decide), BitVec.extractLsb'_append_eq_of_le (by decide), BitVec.extractLsb'_append_eq_of_le (by decide), BitVec.extractLsb'_append_eq_of_le (by decide), BitVec.extractLsb'_append_eq_of_le (by decide), BitVec.extractLsb'_append_eq_of_le (by decide), BitVec.extractLsb'_append_eq_of_add_le (by decide)]
theorem fMa_packV (op : BitVec 6) (vd : BitVec 4) (va : BitVec 4) (vb : BitVec 4) (vc : BitVec 4) (m : BitVec 3) (fn : BitVec 5) (sc : BitVec 2) : fMa (packV op vd va vb vc m fn sc) = va.extractLsb' 0 3 := by
  show BitVec.extractLsb' 18 3 (op ++ vd ++ va ++ vb ++ vc ++ m ++ fn ++ sc : BitVec (6+4+4+4+4+3+5+2)) = _
  rw [BitVec.extractLsb'_append_eq_of_le (by decide), BitVec.extractLsb'_append_eq_of_le (by decide), BitVec.extractLsb'_append_eq_of_le (by decide), BitVec.extractLsb'_append_eq_of_le (by decide), BitVec.extractLsb'_append_eq_of_le (by decide), BitVec.extractLsb'_append_eq_of_add_le (by decide)]
theorem fMb_packV (op : BitVec 6) (vd : BitVec 4) (va : BitVec 4) (vb : BitVec 4) (vc : BitVec 4) (m : BitVec 3) (fn : BitVec 5) (sc : BitVec 2) : fMb (packV op vd va vb vc m fn sc) = vb.extractLsb' 0 3 := by
  show BitVec.extractLsb' 14 3 (op ++ vd ++ va ++ vb ++ vc ++ m ++ fn ++ sc : BitVec (6+4+4+4+4+3+5+2)) = _
  rw [BitVec.extractLsb'_append_eq_of_le (by decide), BitVec.extractLsb'_append_eq_of_le (by decide), BitVec.extractLsb'_append_eq_of_le (by decide), BitVec.extractLsb'_append_eq_of_le (by decide), BitVec.extractLsb'_append_eq_of_add_le (by decide)]
theorem fVd3_packV (op : BitVec 6) (vd : BitVec 4) (va : BitVec 4) (vb : BitVec 4) (vc : BitVec 4) (m : BitVec 3) (fn : BitVec 5) (sc : BitVec 2) : fVd3 (packV op vd va vb vc m fn sc) = vd.extractLsb' 3 1 := by
  show BitVec.extractLsb' 25 1 (op ++ vd ++ va ++ vb ++ vc ++ m ++ fn ++ sc : BitVec (6+4+4+4+4+3+5+2)) = _
  rw [BitVec.extractLsb'_append_eq_of_le (by decide), BitVec.extractLsb'_append_eq_of_le (by decide), BitVec.extractLsb'_append_eq_of_le (by decide), BitVec.extractLsb'_append_eq_of_le (by decide), BitVec.extractLsb'_append_eq_of_le (by decide), BitVec.extractLsb'_append_eq_of_le (by decide), BitVec.extractLsb'_append_eq_of_add_le (by decide)]
theorem fVa3_packV (op : BitVec 6) (vd : BitVec 4) (va : BitVec 4) (vb : BitVec 4) (vc : BitVec 4) (m : BitVec 3) (fn : BitVec 5) (sc : BitVec 2) : fVa3 (packV op vd va vb vc m fn sc) = va.extractLsb' 3 1 := by
  show BitVec.extractLsb' 21 1 (op ++ vd ++ va ++ vb ++ vc ++ m ++ fn ++ sc : BitVec (6+4+4+4+4+3+5+2)) = _
  rw [BitVec.extractLsb'_append_eq_of_le (by decide), BitVec.extractLsb'_append_eq_of_le (by decide), BitVec.extractLsb'_append_eq_of_le (by decide), BitVec.extractLsb'_append_eq_of_le (by decide), BitVec.extractLsb'_append_eq_of_le (by decide), BitVec.extractLsb'_append_eq_of_add_le (by decide)]
theorem fVb3_packV (op : BitVec 6) (vd : BitVec 4) (va : BitVec 4) (vb : BitVec 4) (vc : BitVec 4) (m : BitVec 3) (fn : BitVec 5) (sc : BitVec 2) : fVb3 (packV op vd va vb vc m fn sc) = vb.extractLsb' 3 1 := by
  show BitVec.extractLsb' 17 1 (op ++ vd ++ va ++ vb ++ vc ++ m ++ fn ++ sc : BitVec (6+4+4+4+4+3+5+2)) = _
  rw [BitVec.extractLsb'_append_eq_of_le (by decide), BitVec.extractLsb'_append_eq_of_le (by decide), BitVec.extractLsb'_append_eq_of_le (by decide), BitVec.extractLsb'_append_eq_of_le (by decide), BitVec.extractLsb'_append_eq_of_add_le (by decide)]
theorem fVbHi_packV (op : BitVec 6) (vd : BitVec 4) (va : BitVec 4) (vb : BitVec 4) (vc : BitVec 4) (m : BitVec 3) (fn : BitVec 5) (sc : BitVec 2) : fVbHi (packV op vd va vb vc m fn sc) = vb.extractLsb' 2 2 := by
  show BitVec.extractLsb' 16 2 (op ++ vd ++ va ++ vb ++ vc ++ m ++ fn ++ sc : BitVec (6+4+4+4+4+3+5+2)) = _
  rw [BitVec.extractLsb'_append_eq_of_le (by decide), BitVec.extractLsb'_append_eq_of_le (by decide), BitVec.extractLsb'_append_eq_of_le (by decide), BitVec.extractLsb'_append_eq_of_le (by decide), BitVec.extractLsb'_append_eq_of_add_le (by decide)]
theorem fVcHi_packV (op : BitVec 6) (vd : BitVec 4) (va : BitVec 4) (vb : BitVec 4) (vc : BitVec 4) (m : BitVec 3) (fn : BitVec 5) (sc : BitVec 2) : fVcHi (packV op vd va vb vc m fn sc) = vc.extractLsb' 2 2 := by
  show BitVec.extractLsb' 12 2 (op ++ vd ++ va ++ vb ++ vc ++ m ++ fn ++ sc : BitVec (6+4+4+4+4+3+5+2)) = _
  rw [BitVec.extractLsb'_append_eq_of_le (by decide), BitVec.extractLsb'_append_eq_of_le (by decide), BitVec.extractLsb'_append_eq_of_le (by decide), BitVec.extractLsb'_append_eq_of_add_le (by decide)]
theorem fSc_packV (op : BitVec 6) (vd : BitVec 4) (va : BitVec 4) (vb : BitVec 4) (vc : BitVec 4) (m : BitVec 3) (fn : BitVec 5) (sc : BitVec 2) : fSc (packV op vd va vb vc m fn sc) = sc := by
  show BitVec.extractLsb' 0 2 (op ++ vd ++ va ++ vb ++ vc ++ m ++ fn ++ sc : BitVec (6+4+4+4+4+3+5+2)) = _
  rw [BitVec.extractLsb'_append_eq_of_add_le (by decide)]
  simp
theorem fOp_packC (op : BitVec 6) (e : BitVec 3) (cmd : BitVec 5) (a : BitVec 6) (b : BitVec 6) (eng : BitVec 4) (sc : BitVec 2) : fOp (packC op e cmd a b eng sc) = op := by
  show BitVec.extractLsb' 26 6 (op ++ e ++ cmd ++ a ++ b ++ eng ++ sc : BitVec (6+3+5+6+6+4+2)) = _
  rw [BitVec.extractLsb'_append_eq_of_le (by decide), BitVec.extractLsb'_append_eq_of_le (by decide), BitVec.extractLsb'_append_eq_of_le (by decide), BitVec.extractLsb'_append_eq_of_le (by decide), BitVec.extractLsb'_append_eq_of_le (by decide), BitVec.extractLsb'_append_eq_of_le (by decide)]
  simp
theorem fE_packC (op : BitVec 6) (e : BitVec 3) (cmd : BitVec 5) (a : BitVec 6) (b : BitVec 6) (eng : BitVec 4) (sc : BitVec 2) : fE (packC op e cmd a b eng sc) = e := by
  show BitVec.extractLsb' 23 3 (op ++ e ++ cmd ++ a ++ b ++ eng ++ sc : BitVec (6+3+5+6+6+4+2)) = _
  rw [BitVec.extractLsb'_append_eq_of_le (by decide), BitVec.extractLsb'_append_eq_of_le (by decide), BitVec.extractLsb'_append_eq_of_le (by decide), BitVec.extractLsb'_append_eq_of_le (by decide), BitVec.extractLsb'_append_eq_of_le (by decide), BitVec.extractLsb'_append_eq_of_add_le (by decide)]
  simp
theorem fEHi_packC (op : BitVec 6) (e : BitVec 3) (cmd : BitVec 5) (a : BitVec 6) (b : BitVec 6) (eng : BitVec 4) (sc : BitVec 2) : fEHi (packC op e cmd a b eng sc) = e.extractLsb' 2 1 := by
  show BitVec.extractLsb' 25 1 (op ++ e ++ cmd ++ a ++ b ++ eng ++ sc : BitVec (6+3+5+6+6+4+2)) = _
  rw [BitVec.extractLsb'_append_eq_of_le (by decide), BitVec.extractLsb'_append_eq_of_le (by decide), BitVec.extractLsb'_append_eq_of_le (by decide), BitVec.extractLsb'_append_eq_of_le (by decide), BitVec.extractLsb'_append_eq_of_le (by decide), BitVec.extractLsb'_append_eq_of_add_le (by decide)]
theorem fPort_packC (op : BitVec 6) (e : BitVec 3) (cmd : BitVec 5) (a : BitVec 6) (b : BitVec 6) (eng : BitVec 4) (sc : BitVec 2) : fPort (packC op e cmd a b eng sc) = e.extractLsb' 0 2 := by
  show BitVec.extractLsb' 23 2 (op ++ e ++ cmd ++ a ++ b ++ eng ++ sc : BitVec (6+3+5+6+6+4+2)) = _
  rw [BitVec.extractLsb'_append_eq_of_le (by decide), BitVec.extractLsb'_append_eq_of_le (by decide), BitVec.extractLsb'_append_eq_of_le (by decide), BitVec.extractLsb'_append_eq_of_le (by decide), BitVec.extractLsb'_append_eq_of_le (by decide), BitVec.extractLsb'_append_eq_of_add_le (by decide)]
theorem fCmd_packC (op : BitVec 6) (e : BitVec 3) (cmd : BitVec 5) (a : BitVec 6) (b : BitVec 6) (eng : BitVec 4) (sc : BitVec 2) : fCmd (packC op e cmd a b eng sc) = cmd := by
  show BitVec.extractLsb' 18 5 (op ++ e ++ cmd ++ a ++ b ++ eng ++ sc : BitVec (6+3+5+6+6+4+2)) = _
  rw [BitVec.extractLsb'_append_eq_of_le (by decide), BitVec.extractLsb'_append_eq_of_le (by decide), BitVec.extractLsb'_append_eq_of_le (by decide), BitVec.extractLsb'_append_eq_of_le (by decide), BitVec.extractLsb'_append_eq_of_add_le (by decide)]
  simp
theorem fCa_packC (op : BitVec 6) (e : BitVec 3) (cmd : BitVec 5) (a : BitVec 6) (b : BitVec 6) (eng : BitVec 4) (sc : BitVec 2) : fCa (packC op e cmd a b eng sc) = a := by
  show BitVec.extractLsb' 12 6 (op ++ e ++ cmd ++ a ++ b ++ eng ++ sc : BitVec (6+3+5+6+6+4+2)) = _
  rw [BitVec.extractLsb'_append_eq_of_le (by decide), BitVec.extractLsb'_append_eq_of_le (by decide), BitVec.extractLsb'_append_eq_of_le (by decide), BitVec.extractLsb'_append_eq_of_add_le (by decide)]
  simp
theorem fCb_packC (op : BitVec 6) (e : BitVec 3) (cmd : BitVec 5) (a : BitVec 6) (b : BitVec 6) (eng : BitVec 4) (sc : BitVec 2) : fCb (packC op e cmd a b eng sc) = b := by
  show BitVec.extractLsb' 6 6 (op ++ e ++ cmd ++ a ++ b ++ eng ++ sc : BitVec (6+3+5+6+6+4+2)) = _
  rw [BitVec.extractLsb'_append_eq_of_le (by decide), BitVec.extractLsb'_append_eq_of_le (by decide), BitVec.extractLsb'_append_eq_of_add_le (by decide)]
  simp
theorem fEng_packC (op : BitVec 6) (e : BitVec 3) (cmd : BitVec 5) (a : BitVec 6) (b : BitVec 6) (eng : BitVec 4) (sc : BitVec 2) : fEng (packC op e cmd a b eng sc) = eng := by
  show BitVec.extractLsb' 2 4 (op ++ e ++ cmd ++ a ++ b ++ eng ++ sc : BitVec (6+3+5+6+6+4+2)) = _
  rw [BitVec.extractLsb'_append_eq_of_le (by decide), BitVec.extractLsb'_append_eq_of_add_le (by decide)]
  simp
theorem fEngHi_packC (op : BitVec 6) (e : BitVec 3) (cmd : BitVec 5) (a : BitVec 6) (b : BitVec 6) (eng : BitVec 4) (sc : BitVec 2) : fEngHi (packC op e cmd a b eng sc) = eng.extractLsb' 3 1 := by
  show BitVec.extractLsb' 5 1 (op ++ e ++ cmd ++ a ++ b ++ eng ++ sc : BitVec (6+3+5+6+6+4+2)) = _
  rw [BitVec.extractLsb'_append_eq_of_le (by decide), BitVec.extractLsb'_append_eq_of_add_le (by decide)]
theorem fEngH_packC (op : BitVec 6) (e : BitVec 3) (cmd : BitVec 5) (a : BitVec 6) (b : BitVec 6) (eng : BitVec 4) (sc : BitVec 2) : fEngH (packC op e cmd a b eng sc) = eng.extractLsb' 2 2 := by
  show BitVec.extractLsb' 4 2 (op ++ e ++ cmd ++ a ++ b ++ eng ++ sc : BitVec (6+3+5+6+6+4+2)) = _
  rw [BitVec.extractLsb'_append_eq_of_le (by decide), BitVec.extractLsb'_append_eq_of_add_le (by decide)]
theorem fSet_packC (op : BitVec 6) (e : BitVec 3) (cmd : BitVec 5) (a : BitVec 6) (b : BitVec 6) (eng : BitVec 4) (sc : BitVec 2) : fSet (packC op e cmd a b eng sc) = eng.extractLsb' 0 3 := by
  show BitVec.extractLsb' 2 3 (op ++ e ++ cmd ++ a ++ b ++ eng ++ sc : BitVec (6+3+5+6+6+4+2)) = _
  rw [BitVec.extractLsb'_append_eq_of_le (by decide), BitVec.extractLsb'_append_eq_of_add_le (by decide)]
theorem fH_packC (op : BitVec 6) (e : BitVec 3) (cmd : BitVec 5) (a : BitVec 6) (b : BitVec 6) (eng : BitVec 4) (sc : BitVec 2) : fH (packC op e cmd a b eng sc) = eng.extractLsb' 0 2 := by
  show BitVec.extractLsb' 2 2 (op ++ e ++ cmd ++ a ++ b ++ eng ++ sc : BitVec (6+3+5+6+6+4+2)) = _
  rw [BitVec.extractLsb'_append_eq_of_le (by decide), BitVec.extractLsb'_append_eq_of_add_le (by decide)]
theorem fSc_packC (op : BitVec 6) (e : BitVec 3) (cmd : BitVec 5) (a : BitVec 6) (b : BitVec 6) (eng : BitVec 4) (sc : BitVec 2) : fSc (packC op e cmd a b eng sc) = sc := by
  show BitVec.extractLsb' 0 2 (op ++ e ++ cmd ++ a ++ b ++ eng ++ sc : BitVec (6+3+5+6+6+4+2)) = _
  rw [BitVec.extractLsb'_append_eq_of_add_le (by decide)]
  simp
theorem fOp_packS (op : BitVec 6) (d : BitVec 6) (a : BitVec 6) (csrOp : BitVec 2) (csr : BitVec 10) (sc : BitVec 2) : fOp (packS op d a csrOp csr sc) = op := by
  show BitVec.extractLsb' 26 6 (op ++ d ++ a ++ csrOp ++ csr ++ sc : BitVec (6+6+6+2+10+2)) = _
  rw [BitVec.extractLsb'_append_eq_of_le (by decide), BitVec.extractLsb'_append_eq_of_le (by decide), BitVec.extractLsb'_append_eq_of_le (by decide), BitVec.extractLsb'_append_eq_of_le (by decide), BitVec.extractLsb'_append_eq_of_le (by decide)]
  simp
theorem fD_packS (op : BitVec 6) (d : BitVec 6) (a : BitVec 6) (csrOp : BitVec 2) (csr : BitVec 10) (sc : BitVec 2) : fD (packS op d a csrOp csr sc) = d := by
  show BitVec.extractLsb' 20 6 (op ++ d ++ a ++ csrOp ++ csr ++ sc : BitVec (6+6+6+2+10+2)) = _
  rw [BitVec.extractLsb'_append_eq_of_le (by decide), BitVec.extractLsb'_append_eq_of_le (by decide), BitVec.extractLsb'_append_eq_of_le (by decide), BitVec.extractLsb'_append_eq_of_le (by decide), BitVec.extractLsb'_append_eq_of_add_le (by decide)]
  simp
theorem fA_packS (op : BitVec 6) (d : BitVec 6) (a : BitVec 6) (csrOp : BitVec 2) (csr : BitVec 10) (sc : BitVec 2) : fA (packS op d a csrOp csr sc) = a := by
  show BitVec.extractLsb' 14 6 (op ++ d ++ a ++ csrOp ++ csr ++ sc : BitVec (6+6+6+2+10+2)) = _
  rw [BitVec.extractLsb'_append_eq_of_le (by decide), BitVec.extractLsb'_append_eq_of_le (by decide), BitVec.extractLsb'_append_eq_of_le (by decide), BitVec.extractLsb'_append_eq_of_add_le (by decide)]
  simp
theorem fCsrOp_packS (op : BitVec 6) (d : BitVec 6) (a : BitVec 6) (csrOp : BitVec 2) (csr : BitVec 10) (sc : BitVec 2) : fCsrOp (packS op d a csrOp csr sc) = csrOp := by
  show BitVec.extractLsb' 12 2 (op ++ d ++ a ++ csrOp ++ csr ++ sc : BitVec (6+6+6+2+10+2)) = _
  rw [BitVec.extractLsb'_append_eq_of_le (by decide), BitVec.extractLsb'_append_eq_of_le (by decide), BitVec.extractLsb'_append_eq_of_add_le (by decide)]
  simp
theorem fCsr_packS (op : BitVec 6) (d : BitVec 6) (a : BitVec 6) (csrOp : BitVec 2) (csr : BitVec 10) (sc : BitVec 2) : fCsr (packS op d a csrOp csr sc) = csr := by
  show BitVec.extractLsb' 2 10 (op ++ d ++ a ++ csrOp ++ csr ++ sc : BitVec (6+6+6+2+10+2)) = _
  rw [BitVec.extractLsb'_append_eq_of_le (by decide), BitVec.extractLsb'_append_eq_of_add_le (by decide)]
  simp
theorem fSc_packS (op : BitVec 6) (d : BitVec 6) (a : BitVec 6) (csrOp : BitVec 2) (csr : BitVec 10) (sc : BitVec 2) : fSc (packS op d a csrOp csr sc) = sc := by
  show BitVec.extractLsb' 0 2 (op ++ d ++ a ++ csrOp ++ csr ++ sc : BitVec (6+6+6+2+10+2)) = _
  rw [BitVec.extractLsb'_append_eq_of_add_le (by decide)]
  simp
theorem fWs_packV (op : BitVec 6) (vd va : BitVec 4) (ws : Reg) (m : BitVec 3) (fn : BitVec 5) (sc : BitVec 2) :
    fWs (packV op vd va (wsHi ws) (wsLo ws) m fn sc) = ws := by
  apply BitVec.eq_of_getElem_eq
  intro i hi
  simp only [fWs, packV, BitVec.getElem_extractLsb']
  show ((op ++ vd ++ va ++ wsHi ws ++ wsLo ws ++ m ++ fn ++ sc : BitVec (6+4+4+4+4+3+5+2))).getLsbD (10 + i) = _
  simp only [BitVec.getLsbD_append, wsHi, wsLo, BitVec.getLsbD_setWidth, BitVec.getLsbD_extractLsb']
  have : i = 0 ∨ i = 1 ∨ i = 2 ∨ i = 3 ∨ i = 4 ∨ i = 5 := by omega
  rcases this with rfl | rfl | rfl | rfl | rfl | rfl <;> simp [BitVec.getLsbD_eq_getElem]
@[simp] theorem md3 (m : BitVec 3) : (m.setWidth 4).extractLsb' 3 1 = 0#1 := by revert m; decide
@[simp] theorem md0 (m : BitVec 3) : (m.setWidth 4).extractLsb' 0 3 = m := by revert m; decide
@[simp] theorem eng2 (h : BitVec 2) : (2#2 ++ h).extractLsb' 2 2 = 2#2 := by revert h; decide
@[simp] theorem eng0 (h : BitVec 2) : (2#2 ++ h).extractLsb' 0 2 = h := by revert h; decide
@[simp] theorem eng3 (h : BitVec 2) : (2#2 ++ h).extractLsb' 3 1 = 1#1 := by revert h; decide
@[simp] theorem port2 (n : BitVec 2) : (n.setWidth 3).extractLsb' 2 1 = 0#1 := by revert n; decide
@[simp] theorem port0 (n : BitVec 2) : (n.setWidth 3).extractLsb' 0 2 = n := by revert n; decide
@[simp] theorem wsHi2 (ws : Reg) : (wsHi ws).extractLsb' 2 2 = 0#2 := by revert ws; decide
@[simp] theorem fn3 (a b : BitVec 3) : (a ++ b).extractLsb' 3 3 = a := by revert a b; decide
@[simp] theorem fn0 (a b : BitVec 3) : (a ++ b).extractLsb' 0 3 = b := by revert a b; decide
@[simp] theorem vecNum6 (v : BitVec 4) : vecNum (v.setWidth 6) = true := by revert v; decide
@[simp] theorem vfn4 (p : BitVec 3) (s : Bool) : (0#1 ++ p ++ BitVec.ofBool s).extractLsb' 4 1 = 0#1 := by revert p s; decide
@[simp] theorem vfn1 (p : BitVec 3) (s : Bool) : (0#1 ++ p ++ BitVec.ofBool s).extractLsb' 1 3 = p := by revert p s; decide
@[simp] theorem vfn0 (p : BitVec 3) (s : Bool) : (0#1 ++ p ++ BitVec.ofBool s)[0] = s := by revert p s; decide
@[simp] theorem imm16 (i : BitVec 16) : (i.setWidth 18).extractLsb' 0 16 = i := by
  apply BitVec.eq_of_toNat_eq; have := i.isLt; simp [BitVec.extractLsb'_toNat]; omega
@[simp] theorem imm18 (i : BitVec 16) : (i.setWidth 18).extractLsb' 16 2 = 0#2 := by
  apply BitVec.eq_of_toNat_eq; have := i.isLt; simp [BitVec.extractLsb'_toNat, Nat.shiftRight_eq_div_pow]; omega
@[simp] theorem fSat_packV (op : BitVec 6) (vd va vb vc : BitVec 4) (m : BitVec 3) (fn : BitVec 5) (sc : BitVec 2) :
    fSat (packV op vd va vb vc m fn sc) = fn.getLsbD 0 := by
  show ((op ++ vd ++ va ++ vb ++ vc ++ m ++ fn ++ sc : BitVec (6+4+4+4+4+3+5+2))).getLsbD 2 = _
  simp only [BitVec.getLsbD_append]; simp
theorem isz_packV (op : BitVec 6) (vd va vb vc : BitVec 4) (m : BitVec 3) (fn : BitVec 5) (sc : BitVec 2) :
    fISz (packV op vd va vb vc m fn sc) = ISize.ofBits (vc.extractLsb' 0 2) := by
  show ISize.ofBits (BitVec.extractLsb' 10 2 (op ++ vd ++ va ++ vb ++ vc ++ m ++ fn ++ sc : BitVec (6+4+4+4+4+3+5+2))) = _
  rw [BitVec.extractLsb'_append_eq_of_le (by decide), BitVec.extractLsb'_append_eq_of_le (by decide), BitVec.extractLsb'_append_eq_of_le (by decide), BitVec.extractLsb'_append_eq_of_add_le (by decide)]
@[simp] theorem ofBits_bits (z : ISize) : ISize.ofBits (z.bits.extractLsb' 0 2) = z := by cases z <;> rfl
@[simp] theorem bits2 (z : ISize) : z.bits.extractLsb' 2 2 = 0#2 := by cases z <;> rfl
theorem decodeInt_0 (x : BitVec 32) (h : fFn x = 0) : decodeInt x = .ok (.add (fD x) (fA x) (fB x) (fSc x)) := by
  unfold decodeInt; rw [h]; rfl
theorem decodeInt_1 (x : BitVec 32) (h : fFn x = 1) : decodeInt x = .ok (.sub (fD x) (fA x) (fB x) (fSc x)) := by
  unfold decodeInt; rw [h]; rfl
theorem decodeInt_2 (x : BitVec 32) (h : fFn x = 2) : decodeInt x = .ok (.and (fD x) (fA x) (fB x) (fSc x)) := by
  unfold decodeInt; rw [h]; rfl
theorem decodeInt_3 (x : BitVec 32) (h : fFn x = 3) : decodeInt x = .ok (.or (fD x) (fA x) (fB x) (fSc x)) := by
  unfold decodeInt; rw [h]; rfl
theorem decodeInt_4 (x : BitVec 32) (h : fFn x = 4) : decodeInt x = .ok (.xor (fD x) (fA x) (fB x) (fSc x)) := by
  unfold decodeInt; rw [h]; rfl
theorem decodeInt_5 (x : BitVec 32) (h : fFn x = 5) : decodeInt x = .ok (.sll (fD x) (fA x) (fB x) (fSc x)) := by
  unfold decodeInt; rw [h]; rfl
theorem decodeInt_6 (x : BitVec 32) (h : fFn x = 6) : decodeInt x = .ok (.srl (fD x) (fA x) (fB x) (fSc x)) := by
  unfold decodeInt; rw [h]; rfl
theorem decodeInt_7 (x : BitVec 32) (h : fFn x = 7) : decodeInt x = .ok (.sra (fD x) (fA x) (fB x) (fSc x)) := by
  unfold decodeInt; rw [h]; rfl
theorem decodeInt_8 (x : BitVec 32) (h : fFn x = 8) : decodeInt x = .ok (.rol (fD x) (fA x) (fB x) (fSc x)) := by
  unfold decodeInt; rw [h]; rfl
theorem decodeInt_9 (x : BitVec 32) (h : fFn x = 9) : decodeInt x = .ok (.ror (fD x) (fA x) (fB x) (fSc x)) := by
  unfold decodeInt; rw [h]; rfl
theorem decodeInt_10 (x : BitVec 32) (h : fFn x = 10) : decodeInt x = .ok (.slt (fD x) (fA x) (fB x) (fSc x)) := by
  unfold decodeInt; rw [h]; rfl
theorem decodeInt_11 (x : BitVec 32) (h : fFn x = 11) : decodeInt x = .ok (.sltu (fD x) (fA x) (fB x) (fSc x)) := by
  unfold decodeInt; rw [h]; rfl
theorem decodeInt_12 (x : BitVec 32) (h : fFn x = 12) : decodeInt x = .ok (.min (fD x) (fA x) (fB x) (fSc x)) := by
  unfold decodeInt; rw [h]; rfl
theorem decodeInt_13 (x : BitVec 32) (h : fFn x = 13) : decodeInt x = .ok (.max (fD x) (fA x) (fB x) (fSc x)) := by
  unfold decodeInt; rw [h]; rfl
theorem decodeInt_14 (x : BitVec 32) (h : fFn x = 14) : decodeInt x = .ok (.minu (fD x) (fA x) (fB x) (fSc x)) := by
  unfold decodeInt; rw [h]; rfl
theorem decodeInt_15 (x : BitVec 32) (h : fFn x = 15) : decodeInt x = .ok (.maxu (fD x) (fA x) (fB x) (fSc x)) := by
  unfold decodeInt; rw [h]; rfl
theorem decodeInt_16 (x : BitVec 32) (h : fFn x = 16) : decodeInt x = .ok (.mul (fD x) (fA x) (fB x) (fSc x)) := by
  unfold decodeInt; rw [h]; rfl
theorem decodeInt_17 (x : BitVec 32) (h : fFn x = 17) : decodeInt x = .ok (.mulh (fD x) (fA x) (fB x) (fSc x)) := by
  unfold decodeInt; rw [h]; rfl
theorem decodeInt_18 (x : BitVec 32) (h : fFn x = 18) : decodeInt x = .ok (.mulhu (fD x) (fA x) (fB x) (fSc x)) := by
  unfold decodeInt; rw [h]; rfl
theorem decodeInt_19 (x : BitVec 32) (h : fFn x = 19) : decodeInt x = .ok (.div (fD x) (fA x) (fB x) (fSc x)) := by
  unfold decodeInt; rw [h]; rfl
theorem decodeInt_20 (x : BitVec 32) (h : fFn x = 20) : decodeInt x = .ok (.divu (fD x) (fA x) (fB x) (fSc x)) := by
  unfold decodeInt; rw [h]; rfl
theorem decodeInt_21 (x : BitVec 32) (h : fFn x = 21) : decodeInt x = .ok (.rem (fD x) (fA x) (fB x) (fSc x)) := by
  unfold decodeInt; rw [h]; rfl
theorem decodeInt_22 (x : BitVec 32) (h : fFn x = 22) : decodeInt x = .ok (.remu (fD x) (fA x) (fB x) (fSc x)) := by
  unfold decodeInt; rw [h]; rfl
theorem decodeInt_23 (x : BitVec 32) (h : fFn x = 23) : decodeInt x = need (fB x == 0) .unusedField (.ok (.clz (fD x) (fA x) (fSc x))) := by
  unfold decodeInt; rw [h]; rfl
theorem decodeInt_24 (x : BitVec 32) (h : fFn x = 24) : decodeInt x = need (fB x == 0) .unusedField (.ok (.ctz (fD x) (fA x) (fSc x))) := by
  unfold decodeInt; rw [h]; rfl
theorem decodeInt_25 (x : BitVec 32) (h : fFn x = 25) : decodeInt x = need (fB x == 0) .unusedField (.ok (.cpop (fD x) (fA x) (fSc x))) := by
  unfold decodeInt; rw [h]; rfl
theorem decodeInt_26 (x : BitVec 32) (h : fFn x = 26) : decodeInt x = need (fB x == 0) .unusedField (.ok (.sextB (fD x) (fA x) (fSc x))) := by
  unfold decodeInt; rw [h]; rfl
theorem decodeInt_27 (x : BitVec 32) (h : fFn x = 27) : decodeInt x = need (fB x == 0) .unusedField (.ok (.sextH (fD x) (fA x) (fSc x))) := by
  unfold decodeInt; rw [h]; rfl
theorem decodeInt_28 (x : BitVec 32) (h : fFn x = 28) : decodeInt x = need (fB x == 0) .unusedField (.ok (.sextW (fD x) (fA x) (fSc x))) := by
  unfold decodeInt; rw [h]; rfl
theorem decodeInt_29 (x : BitVec 32) (h : fFn x = 29) : decodeInt x = need (fB x == 0) .unusedField (.ok (.zextB (fD x) (fA x) (fSc x))) := by
  unfold decodeInt; rw [h]; rfl
theorem decodeInt_30 (x : BitVec 32) (h : fFn x = 30) : decodeInt x = need (fB x == 0) .unusedField (.ok (.zextH (fD x) (fA x) (fSc x))) := by
  unfold decodeInt; rw [h]; rfl
theorem decodeInt_31 (x : BitVec 32) (h : fFn x = 31) : decodeInt x = need (fB x == 0) .unusedField (.ok (.zextW (fD x) (fA x) (fSc x))) := by
  unfold decodeInt; rw [h]; rfl
theorem decodeMem_0 (sz : MSize) (x : BitVec 32) (h : fOrder x = 0) : decodeMem sz x = need (fScopeBits x == 0) .unusedField (need (pairOk sz (fD x)) .badRegister (.ok (.ld sz (fD x) (fA x) (fB x) (fSc x)))) := by
  unfold decodeMem; rw [h]; rfl
theorem decodeMem_1 (sz : MSize) (x : BitVec 32) (h : fOrder x = 1) : decodeMem sz x = need (fScopeBits x == 0) .unusedField (need (sz.narrow) .reservedMinor (.ok (.ldU sz (fD x) (fA x) (fB x) (fSc x)))) := by
  unfold decodeMem; rw [h]; rfl
theorem decodeMem_2 (sz : MSize) (x : BitVec 32) (h : fOrder x = 2) : decodeMem sz x = need (pairOk sz (fD x)) .badRegister (withScope x fun s => .ok (.ldAcq sz (fD x) (fA x) (fB x) s (fSc x))) := by
  unfold decodeMem; rw [h]; rfl
theorem decodeMem_3 (sz : MSize) (x : BitVec 32) (h : fOrder x = 3) : decodeMem sz x = need (fScopeBits x == 0) .unusedField (need (sz.symbolic) .reservedMinor (.ok (.ldS sz (fD x) (fA x) (fB x) (fSc x)))) := by
  unfold decodeMem; rw [h]; rfl
theorem decodeMem_4 (sz : MSize) (x : BitVec 32) (h : fOrder x = 4) : decodeMem sz x = need (fScopeBits x == 0) .unusedField (need (pairOk sz (fD x)) .badRegister (.ok (.st sz (fD x) (fA x) (fB x) (fSc x)))) := by
  unfold decodeMem; rw [h]; rfl
theorem decodeMem_5 (sz : MSize) (x : BitVec 32) (h : fOrder x = 5) : decodeMem sz x = need (pairOk sz (fD x)) .badRegister (withScope x fun s => .ok (.stRel sz (fD x) (fA x) (fB x) s (fSc x))) := by
  unfold decodeMem; rw [h]; rfl
theorem decodeMem_6 (sz : MSize) (x : BitVec 32) (h : fOrder x = 6) : decodeMem sz x = need (fScopeBits x == 0) .unusedField (need (pairOk sz (fD x)) .badRegister (.ok (.stClr sz (fD x) (fA x) (fB x) (fSc x)))) := by
  unfold decodeMem; rw [h]; rfl
theorem decodeAtomic_0 (wd : ASize) (x : BitVec 32) (h : fOrder x = 0) : decodeAtomic wd x = withScope x fun s => .ok (.aadd wd (fD x) (fA x) (fB x) s (fSc x)) := by
  unfold decodeAtomic; rw [h]; rfl
theorem decodeAtomic_1 (wd : ASize) (x : BitVec 32) (h : fOrder x = 1) : decodeAtomic wd x = withScope x fun s => .ok (.aswap wd (fD x) (fA x) (fB x) s (fSc x)) := by
  unfold decodeAtomic; rw [h]; rfl
theorem decodeAtomic_2 (wd : ASize) (x : BitVec 32) (h : fOrder x = 2) : decodeAtomic wd x = withScope x fun s => .ok (.aand wd (fD x) (fA x) (fB x) s (fSc x)) := by
  unfold decodeAtomic; rw [h]; rfl
theorem decodeAtomic_3 (wd : ASize) (x : BitVec 32) (h : fOrder x = 3) : decodeAtomic wd x = withScope x fun s => .ok (.aor wd (fD x) (fA x) (fB x) s (fSc x)) := by
  unfold decodeAtomic; rw [h]; rfl
theorem decodeAtomic_4 (wd : ASize) (x : BitVec 32) (h : fOrder x = 4) : decodeAtomic wd x = withScope x fun s => .ok (.axor wd (fD x) (fA x) (fB x) s (fSc x)) := by
  unfold decodeAtomic; rw [h]; rfl
theorem decodeAtomic_5 (wd : ASize) (x : BitVec 32) (h : fOrder x = 5) : decodeAtomic wd x = withScope x fun s => .ok (.amax wd (fD x) (fA x) (fB x) s (fSc x)) := by
  unfold decodeAtomic; rw [h]; rfl
theorem decodeAtomic_6 (wd : ASize) (x : BitVec 32) (h : fOrder x = 6) : decodeAtomic wd x = withScope x fun s => .ok (.amin wd (fD x) (fA x) (fB x) s (fSc x)) := by
  unfold decodeAtomic; rw [h]; rfl
theorem decodeAtomic_7 (wd : ASize) (x : BitVec 32) (h : fOrder x = 7) : decodeAtomic wd x = withScope x fun s => .ok (.amaxu wd (fD x) (fA x) (fB x) s (fSc x)) := by
  unfold decodeAtomic; rw [h]; rfl
theorem decodeTask_0 (x : BitVec 32) (h : fFn x = 0) : decodeTask x = need (fD x == 0) .unusedField (need (fA x == 0) .unusedField (need (fB x == 0) .unusedField (.ok (.tdone (fSc x))))) := by
  unfold decodeTask; rw [h]; rfl
theorem decodeTask_1 (x : BitVec 32) (h : fFn x = 1) : decodeTask x = need (fD x == 0) .unusedField (need (fA x == 0) .unusedField (need (fB x == 0) .unusedField (.ok (.tabort (fSc x))))) := by
  unfold decodeTask; rw [h]; rfl
theorem decodeTask_2 (x : BitVec 32) (h : fFn x = 2) : decodeTask x = need (fD x == 0) .unusedField (need (fA x == 0) .unusedField (need (fB x == 0) .unusedField (.ok (.tyield (fSc x))))) := by
  unfold decodeTask; rw [h]; rfl
theorem decodeTask_3 (x : BitVec 32) (h : fFn x = 3) : decodeTask x = need (fD x == 0) .unusedField (.ok (.spawnr (fA x) (fB x) (fSc x))) := by
  unfold decodeTask; rw [h]; rfl
theorem decodeTask_4 (x : BitVec 32) (h : fFn x = 4) : decodeTask x = need (fD x == 0) .unusedField (need (fB x == 0) .unusedField (.ok (.spawnfr (fA x) (fSc x)))) := by
  unfold decodeTask; rw [h]; rfl
theorem decodePool_0 (x : BitVec 32) (h : fFn x = 0) : decodePool x = need (fD x == 0) .unusedField (.ok (.crdeclD (fA x) (fB x) (fSc x))) := by
  unfold decodePool; rw [h]; rfl
theorem decodePool_1 (x : BitVec 32) (h : fFn x = 1) : decodePool x = need (fD x == 0) .unusedField (.ok (.crdeclF32 (fA x) (fB x) (fSc x))) := by
  unfold decodePool; rw [h]; rfl
theorem decodePool_2 (x : BitVec 32) (h : fFn x = 2) : decodePool x = need (fD x == 0) .unusedField (.ok (.crdeclF64 (fA x) (fB x) (fSc x))) := by
  unfold decodePool; rw [h]; rfl
theorem decodePool_3 (x : BitVec 32) (h : fFn x = 3) : decodePool x = need (fD x == 0) .unusedField (.ok (.cradd (fA x) (fB x) (fSc x))) := by
  unfold decodePool; rw [h]; rfl
theorem decodePool_4 (x : BitVec 32) (h : fFn x = 4) : decodePool x = need (fB x == 0) .unusedField (.ok (.poolget (fD x) (fA x) (fSc x))) := by
  unfold decodePool; rw [h]; rfl
theorem decodePool_5 (x : BitVec 32) (h : fFn x = 5) : decodePool x = need (fB x == 0) .unusedField (.ok (.poolgetNf (fD x) (fA x) (fSc x))) := by
  unfold decodePool; rw [h]; rfl
theorem decodePool_6 (x : BitVec 32) (h : fFn x = 6) : decodePool x = need (fD x == 0) .unusedField (.ok (.poolput (fA x) (fB x) (fSc x))) := by
  unfold decodePool; rw [h]; rfl
theorem decodeFp_0 (f : FSize) (x : BitVec 32) (h : fFn x = 0) : decodeFp f x = .ok (.fadd f (fD x) (fA x) (fB x) (fSc x)) := by
  unfold decodeFp; rw [h]; rfl
theorem decodeFp_1 (f : FSize) (x : BitVec 32) (h : fFn x = 1) : decodeFp f x = .ok (.fsub f (fD x) (fA x) (fB x) (fSc x)) := by
  unfold decodeFp; rw [h]; rfl
theorem decodeFp_2 (f : FSize) (x : BitVec 32) (h : fFn x = 2) : decodeFp f x = .ok (.fmul f (fD x) (fA x) (fB x) (fSc x)) := by
  unfold decodeFp; rw [h]; rfl
theorem decodeFp_3 (f : FSize) (x : BitVec 32) (h : fFn x = 3) : decodeFp f x = .ok (.fdiv f (fD x) (fA x) (fB x) (fSc x)) := by
  unfold decodeFp; rw [h]; rfl
theorem decodeFp_4 (f : FSize) (x : BitVec 32) (h : fFn x = 4) : decodeFp f x = need (fB x == 0) .unusedField (.ok (.fsqrt f (fD x) (fA x) (fSc x))) := by
  unfold decodeFp; rw [h]; rfl
theorem decodeFp_5 (f : FSize) (x : BitVec 32) (h : fFn x = 5) : decodeFp f x = .ok (.fmin f (fD x) (fA x) (fB x) (fSc x)) := by
  unfold decodeFp; rw [h]; rfl
theorem decodeFp_6 (f : FSize) (x : BitVec 32) (h : fFn x = 6) : decodeFp f x = .ok (.fmax f (fD x) (fA x) (fB x) (fSc x)) := by
  unfold decodeFp; rw [h]; rfl
theorem decodeFp_7 (f : FSize) (x : BitVec 32) (h : fFn x = 7) : decodeFp f x = .ok (.fmadd f (fD x) (fA x) (fB x) (fSc x)) := by
  unfold decodeFp; rw [h]; rfl
theorem decodeFp_8 (f : FSize) (x : BitVec 32) (h : fFn x = 8) : decodeFp f x = .ok (.fmsub f (fD x) (fA x) (fB x) (fSc x)) := by
  unfold decodeFp; rw [h]; rfl
theorem decodeFp_9 (f : FSize) (x : BitVec 32) (h : fFn x = 9) : decodeFp f x = .ok (.fnmadd f (fD x) (fA x) (fB x) (fSc x)) := by
  unfold decodeFp; rw [h]; rfl
theorem decodeFp_10 (f : FSize) (x : BitVec 32) (h : fFn x = 10) : decodeFp f x = .ok (.feq f (fD x) (fA x) (fB x) (fSc x)) := by
  unfold decodeFp; rw [h]; rfl
theorem decodeFp_11 (f : FSize) (x : BitVec 32) (h : fFn x = 11) : decodeFp f x = .ok (.flt f (fD x) (fA x) (fB x) (fSc x)) := by
  unfold decodeFp; rw [h]; rfl
theorem decodeFp_12 (f : FSize) (x : BitVec 32) (h : fFn x = 12) : decodeFp f x = .ok (.fle f (fD x) (fA x) (fB x) (fSc x)) := by
  unfold decodeFp; rw [h]; rfl
theorem decodeFp_13 (f : FSize) (x : BitVec 32) (h : fFn x = 13) : decodeFp f x = need (fB x == 0) .unusedField (.ok (.fclass f (fD x) (fA x) (fSc x))) := by
  unfold decodeFp; rw [h]; rfl
theorem decodeFp_14 (f : FSize) (x : BitVec 32) (h : fFn x = 14) : decodeFp f x = need (fB x == 0) .unusedField (.ok (.fneg f (fD x) (fA x) (fSc x))) := by
  unfold decodeFp; rw [h]; rfl
theorem decodeFp_15 (f : FSize) (x : BitVec 32) (h : fFn x = 15) : decodeFp f x = need (fB x == 0) .unusedField (.ok (.fabs f (fD x) (fA x) (fSc x))) := by
  unfold decodeFp; rw [h]; rfl
theorem decodeWide_0 (x : BitVec 32) (h : fFn x = 0) : decodeWide x = need (fA x == 0) .unusedField (need (fB x == 0) .unusedField (.ok (.waclr (fD x) (fSc x)))) := by
  unfold decodeWide; rw [h]; rfl
theorem decodeWide_1 (x : BitVec 32) (h : fFn x = 1) : decodeWide x = .ok (.wadd (fD x) (fA x) (fB x) (fSc x)) := by
  unfold decodeWide; rw [h]; rfl
theorem decodeWide_2 (x : BitVec 32) (h : fFn x = 2) : decodeWide x = need (vecNum (fA x)) .badRegister (need (vecNum (fB x)) .badRegister (.ok (.waddv (fD x) ((fA x).setWidth 4) ((fB x).setWidth 4) (fSc x)))) := by
  unfold decodeWide; rw [h]; rfl
theorem decodeWide_3 (x : BitVec 32) (h : fFn x = 3) : decodeWide x = need (fB x == 0) .unusedField (.ok (.wsgn (fD x) (fA x) (fSc x))) := by
  unfold decodeWide; rw [h]; rfl
theorem decodeWide_4 (x : BitVec 32) (h : fFn x = 4) : decodeWide x = need (fB x == 0) .unusedField (.ok (.wrnd (fD x) (fA x) (fSc x))) := by
  unfold decodeWide; rw [h]; rfl
theorem decodeMapA_0 (f : VFmt) (x : BitVec 32) (h : fVfn x = 0) : decodeMapA f x = need (fVc x == 0) .unusedField (.ok (.vaddFp f (fVd x) (fVa x) (fVb x) (fM x) (fSc x))) := by
  unfold decodeMapA; rw [h]; rfl
theorem decodeMapA_1 (f : VFmt) (x : BitVec 32) (h : fVfn x = 1) : decodeMapA f x = need (fVc x == 0) .unusedField (.ok (.vsubFp f (fVd x) (fVa x) (fVb x) (fM x) (fSc x))) := by
  unfold decodeMapA; rw [h]; rfl
theorem decodeMapA_2 (f : VFmt) (x : BitVec 32) (h : fVfn x = 2) : decodeMapA f x = need (fVc x == 0) .unusedField (.ok (.vmulFp f (fVd x) (fVa x) (fVb x) (fM x) (fSc x))) := by
  unfold decodeMapA; rw [h]; rfl
theorem decodeMapA_3 (f : VFmt) (x : BitVec 32) (h : fVfn x = 3) : decodeMapA f x = .ok (.vfma f (fVd x) (fVa x) (fVb x) (fVc x) (fM x) (fSc x)) := by
  unfold decodeMapA; rw [h]; rfl
theorem decodeMapA_4 (f : VFmt) (x : BitVec 32) (h : fVfn x = 4) : decodeMapA f x = .ok (.vfms f (fVd x) (fVa x) (fVb x) (fVc x) (fM x) (fSc x)) := by
  unfold decodeMapA; rw [h]; rfl
theorem decodeMapA_5 (f : VFmt) (x : BitVec 32) (h : fVfn x = 5) : decodeMapA f x = need (fVc x == 0) .unusedField (.ok (.vdiv f (fVd x) (fVa x) (fVb x) (fM x) (fSc x))) := by
  unfold decodeMapA; rw [h]; rfl
theorem decodeMapA_6 (f : VFmt) (x : BitVec 32) (h : fVfn x = 6) : decodeMapA f x = need (fVb x == 0) .unusedField (need (fVc x == 0) .unusedField (.ok (.vsqrt f (fVd x) (fVa x) (fM x) (fSc x)))) := by
  unfold decodeMapA; rw [h]; rfl
theorem decodeMapA_7 (f : VFmt) (x : BitVec 32) (h : fVfn x = 7) : decodeMapA f x = need (fVc x == 0) .unusedField (.ok (.vminFp f (fVd x) (fVa x) (fVb x) (fM x) (fSc x))) := by
  unfold decodeMapA; rw [h]; rfl
theorem decodeMapA_8 (f : VFmt) (x : BitVec 32) (h : fVfn x = 8) : decodeMapA f x = need (fVc x == 0) .unusedField (.ok (.vmaxFp f (fVd x) (fVa x) (fVb x) (fM x) (fSc x))) := by
  unfold decodeMapA; rw [h]; rfl
theorem decodeMapA_9 (f : VFmt) (x : BitVec 32) (h : fVfn x = 9) : decodeMapA f x = need (fVb x == 0) .unusedField (need (fVc x == 0) .unusedField (.ok (.vabsFp f (fVd x) (fVa x) (fM x) (fSc x)))) := by
  unfold decodeMapA; rw [h]; rfl
theorem decodeMapA_10 (f : VFmt) (x : BitVec 32) (h : fVfn x = 10) : decodeMapA f x = need (fVb x == 0) .unusedField (need (fVc x == 0) .unusedField (.ok (.vnegFp f (fVd x) (fVa x) (fM x) (fSc x)))) := by
  unfold decodeMapA; rw [h]; rfl
theorem decodeMapA_11 (f : VFmt) (x : BitVec 32) (h : fVfn x = 11) : decodeMapA f x = need (fVd3 x == 0) .unusedField (need (fVc x == 0) .unusedField (.ok (.vcmpeqFp f (fMd x) (fVa x) (fVb x) (fM x) (fSc x)))) := by
  unfold decodeMapA; rw [h]; rfl
theorem decodeMapA_12 (f : VFmt) (x : BitVec 32) (h : fVfn x = 12) : decodeMapA f x = need (fVd3 x == 0) .unusedField (need (fVc x == 0) .unusedField (.ok (.vcmpltFp f (fMd x) (fVa x) (fVb x) (fM x) (fSc x)))) := by
  unfold decodeMapA; rw [h]; rfl
theorem decodeMapA_13 (f : VFmt) (x : BitVec 32) (h : fVfn x = 13) : decodeMapA f x = need (fVd3 x == 0) .unusedField (need (fVc x == 0) .unusedField (.ok (.vcmple f (fMd x) (fVa x) (fVb x) (fM x) (fSc x)))) := by
  unfold decodeMapA; rw [h]; rfl
theorem decodeMapA_14 (f : VFmt) (x : BitVec 32) (h : fVfn x = 14) : decodeMapA f x = need (fVb x == 0) .unusedField (need (fVc x == 0) .unusedField (.ok (.vredsumFp f (fVd x) (fVa x) (fM x) (fSc x)))) := by
  unfold decodeMapA; rw [h]; rfl
theorem decodeMapA_15 (f : VFmt) (x : BitVec 32) (h : fVfn x = 15) : decodeMapA f x = need (fVb x == 0) .unusedField (need (fVc x == 0) .unusedField (.ok (.vredmin f (fVd x) (fVa x) (fM x) (fSc x)))) := by
  unfold decodeMapA; rw [h]; rfl
theorem decodeMapA_16 (f : VFmt) (x : BitVec 32) (h : fVfn x = 16) : decodeMapA f x = need (fVb x == 0) .unusedField (need (fVc x == 0) .unusedField (.ok (.vredmax f (fVd x) (fVa x) (fM x) (fSc x)))) := by
  unfold decodeMapA; rw [h]; rfl
theorem decodeMapB_0 (x : BitVec 32) (h : fVfn x = 0) : decodeMapB x = need (fVcHi x == 0) .unusedField (.ok (.vaddInt (fISz x) (fVd x) (fVa x) (fVb x) (fM x) (fSc x))) := by
  unfold decodeMapB; rw [h]; rfl
theorem decodeMapB_1 (x : BitVec 32) (h : fVfn x = 1) : decodeMapB x = need (fVcHi x == 0) .unusedField (.ok (.vsubInt (fISz x) (fVd x) (fVa x) (fVb x) (fM x) (fSc x))) := by
  unfold decodeMapB; rw [h]; rfl
theorem decodeMapB_2 (x : BitVec 32) (h : fVfn x = 2) : decodeMapB x = need (fVcHi x == 0) .unusedField (.ok (.vmulInt (fISz x) (fVd x) (fVa x) (fVb x) (fM x) (fSc x))) := by
  unfold decodeMapB; rw [h]; rfl
theorem decodeMapB_3 (x : BitVec 32) (h : fVfn x = 3) : decodeMapB x = need (fVcHi x == 0) .unusedField (.ok (.vminInt (fISz x) (fVd x) (fVa x) (fVb x) (fM x) (fSc x))) := by
  unfold decodeMapB; rw [h]; rfl
theorem decodeMapB_4 (x : BitVec 32) (h : fVfn x = 4) : decodeMapB x = need (fVcHi x == 0) .unusedField (.ok (.vmaxInt (fISz x) (fVd x) (fVa x) (fVb x) (fM x) (fSc x))) := by
  unfold decodeMapB; rw [h]; rfl
theorem decodeMapB_5 (x : BitVec 32) (h : fVfn x = 5) : decodeMapB x = need (fVcHi x == 0) .unusedField (.ok (.vminu (fISz x) (fVd x) (fVa x) (fVb x) (fM x) (fSc x))) := by
  unfold decodeMapB; rw [h]; rfl
theorem decodeMapB_6 (x : BitVec 32) (h : fVfn x = 6) : decodeMapB x = need (fVcHi x == 0) .unusedField (.ok (.vmaxu (fISz x) (fVd x) (fVa x) (fVb x) (fM x) (fSc x))) := by
  unfold decodeMapB; rw [h]; rfl
theorem decodeMapB_7 (x : BitVec 32) (h : fVfn x = 7) : decodeMapB x = need (fVcHi x == 0) .unusedField (.ok (.vand (fISz x) (fVd x) (fVa x) (fVb x) (fM x) (fSc x))) := by
  unfold decodeMapB; rw [h]; rfl
theorem decodeMapB_8 (x : BitVec 32) (h : fVfn x = 8) : decodeMapB x = need (fVcHi x == 0) .unusedField (.ok (.vor (fISz x) (fVd x) (fVa x) (fVb x) (fM x) (fSc x))) := by
  unfold decodeMapB; rw [h]; rfl
theorem decodeMapB_9 (x : BitVec 32) (h : fVfn x = 9) : decodeMapB x = need (fVcHi x == 0) .unusedField (.ok (.vxor (fISz x) (fVd x) (fVa x) (fVb x) (fM x) (fSc x))) := by
  unfold decodeMapB; rw [h]; rfl
theorem decodeMapB_10 (x : BitVec 32) (h : fVfn x = 10) : decodeMapB x = need (fVcHi x == 0) .unusedField (.ok (.vsll (fISz x) (fVd x) (fVa x) (fVb x) (fM x) (fSc x))) := by
  unfold decodeMapB; rw [h]; rfl
theorem decodeMapB_11 (x : BitVec 32) (h : fVfn x = 11) : decodeMapB x = need (fVcHi x == 0) .unusedField (.ok (.vsrl (fISz x) (fVd x) (fVa x) (fVb x) (fM x) (fSc x))) := by
  unfold decodeMapB; rw [h]; rfl
theorem decodeMapB_12 (x : BitVec 32) (h : fVfn x = 12) : decodeMapB x = need (fVcHi x == 0) .unusedField (.ok (.vsra (fISz x) (fVd x) (fVa x) (fVb x) (fM x) (fSc x))) := by
  unfold decodeMapB; rw [h]; rfl
theorem decodeMapB_13 (x : BitVec 32) (h : fVfn x = 13) : decodeMapB x = need (fVd3 x == 0) .unusedField (need (fVcHi x == 0) .unusedField (.ok (.vcmpeqInt (fISz x) (fMd x) (fVa x) (fVb x) (fM x) (fSc x)))) := by
  unfold decodeMapB; rw [h]; rfl
theorem decodeMapB_14 (x : BitVec 32) (h : fVfn x = 14) : decodeMapB x = need (fVd3 x == 0) .unusedField (need (fVcHi x == 0) .unusedField (.ok (.vcmpltInt (fISz x) (fMd x) (fVa x) (fVb x) (fM x) (fSc x)))) := by
  unfold decodeMapB; rw [h]; rfl
theorem decodeMapB_15 (x : BitVec 32) (h : fVfn x = 15) : decodeMapB x = need (fVd3 x == 0) .unusedField (need (fVcHi x == 0) .unusedField (.ok (.vcmpltu (fISz x) (fMd x) (fVa x) (fVb x) (fM x) (fSc x)))) := by
  unfold decodeMapB; rw [h]; rfl
theorem decodeMapB_16 (x : BitVec 32) (h : fVfn x = 16) : decodeMapB x = need (fVb x == 0) .unusedField (need (fVcHi x == 0) .unusedField (.ok (.vredsumInt (fISz x) (fVd x) (fVa x) (fM x) (fSc x)))) := by
  unfold decodeMapB; rw [h]; rfl
theorem decodeMapB_17 (x : BitVec 32) (h : fVfn x = 17) : decodeMapB x = need (fVb x == 0) .unusedField (need (fVcHi x == 0) .unusedField (.ok (.vabsInt (fISz x) (fVd x) (fVa x) (fM x) (fSc x)))) := by
  unfold decodeMapB; rw [h]; rfl
theorem decodeMapB_18 (x : BitVec 32) (h : fVfn x = 18) : decodeMapB x = need (fVb x == 0) .unusedField (need (fVcHi x == 0) .unusedField (.ok (.vnegInt (fISz x) (fVd x) (fVa x) (fM x) (fSc x)))) := by
  unfold decodeMapB; rw [h]; rfl
theorem decodeMapC_0 (x : BitVec 32) (h : fVfn x = 0) : decodeMapC x = need (fVc x == 0) .unusedField (.ok (.vshufD (fVd x) (fVa x) (fVb x) (fM x) (fSc x))) := by
  unfold decodeMapC; rw [h]; rfl
theorem decodeMapC_1 (x : BitVec 32) (h : fVfn x = 1) : decodeMapC x = need (fVc x == 0) .unusedField (.ok (.vshufW (fVd x) (fVa x) (fVb x) (fM x) (fSc x))) := by
  unfold decodeMapC; rw [h]; rfl
theorem decodeMapC_2 (x : BitVec 32) (h : fVfn x = 2) : decodeMapC x = need (fVc x == 0) .unusedField (.ok (.vshufB (fVd x) (fVa x) (fVb x) (fM x) (fSc x))) := by
  unfold decodeMapC; rw [h]; rfl
theorem decodeMapC_3 (x : BitVec 32) (h : fVfn x = 3) : decodeMapC x = need (fVc x == 0) .unusedField (.ok (.vselD (fVd x) (fVa x) (fVb x) (fM x) (fSc x))) := by
  unfold decodeMapC; rw [h]; rfl
theorem decodeMapC_4 (x : BitVec 32) (h : fVfn x = 4) : decodeMapC x = need (fVc x == 0) .unusedField (.ok (.vselW (fVd x) (fVa x) (fVb x) (fM x) (fSc x))) := by
  unfold decodeMapC; rw [h]; rfl
theorem decodeMapC_5 (x : BitVec 32) (h : fVfn x = 5) : decodeMapC x = need (fVa x == 0) .unusedField (need (fVbHi x == 0) .unusedField (.ok (.vbcastD (fVd x) (fWs x) (fM x) (fSc x)))) := by
  unfold decodeMapC; rw [h]; rfl
theorem decodeMapC_6 (x : BitVec 32) (h : fVfn x = 6) : decodeMapC x = need (fVa x == 0) .unusedField (need (fVbHi x == 0) .unusedField (.ok (.vbcastW (fVd x) (fWs x) (fM x) (fSc x)))) := by
  unfold decodeMapC; rw [h]; rfl
theorem decodeMapC_7 (x : BitVec 32) (h : fVfn x = 7) : decodeMapC x = need (fVbHi x == 0) .unusedField (need (fM x == 0) .unusedField (need (kd8 (fVd x)) .reservedValue (.ok (.vextD (fWs x) (fVa x) (fVd x) (fSc x))))) := by
  unfold decodeMapC; rw [h]; rfl
theorem decodeMapC_8 (x : BitVec 32) (h : fVfn x = 8) : decodeMapC x = need (fVbHi x == 0) .unusedField (need (fM x == 0) .unusedField (.ok (.vextW (fWs x) (fVa x) (fVd x) (fSc x)))) := by
  unfold decodeMapC; rw [h]; rfl
theorem decodeMapC_9 (x : BitVec 32) (h : fVfn x = 9) : decodeMapC x = need (fVbHi x == 0) .unusedField (need (fM x == 0) .unusedField (need (kd8 (fVa x)) .reservedValue (.ok (.vinsD (fVd x) (fWs x) (fVa x) (fSc x))))) := by
  unfold decodeMapC; rw [h]; rfl
theorem decodeMapC_10 (x : BitVec 32) (h : fVfn x = 10) : decodeMapC x = need (fVbHi x == 0) .unusedField (need (fM x == 0) .unusedField (.ok (.vinsW (fVd x) (fWs x) (fVa x) (fSc x)))) := by
  unfold decodeMapC; rw [h]; rfl
theorem decodeMapC_11 (x : BitVec 32) (h : fVfn x = 11) : decodeMapC x = need (fVd3 x == 0) .unusedField (need (fVa3 x == 0) .unusedField (need (fVb3 x == 0) .unusedField (need (fVc x == 0) .unusedField (need (fM x == 0) .unusedField (.ok (.vmand (fMd x) (fMa x) (fMb x) (fSc x))))))) := by
  unfold decodeMapC; rw [h]; rfl
theorem decodeMapC_12 (x : BitVec 32) (h : fVfn x = 12) : decodeMapC x = need (fVd3 x == 0) .unusedField (need (fVa3 x == 0) .unusedField (need (fVb3 x == 0) .unusedField (need (fVc x == 0) .unusedField (need (fM x == 0) .unusedField (.ok (.vmor (fMd x) (fMa x) (fMb x) (fSc x))))))) := by
  unfold decodeMapC; rw [h]; rfl
theorem decodeMapC_13 (x : BitVec 32) (h : fVfn x = 13) : decodeMapC x = need (fVd3 x == 0) .unusedField (need (fVa3 x == 0) .unusedField (need (fVb3 x == 0) .unusedField (need (fVc x == 0) .unusedField (need (fM x == 0) .unusedField (.ok (.vmxor (fMd x) (fMa x) (fMb x) (fSc x))))))) := by
  unfold decodeMapC; rw [h]; rfl
theorem decodeMapC_14 (x : BitVec 32) (h : fVfn x = 14) : decodeMapC x = need (fVd3 x == 0) .unusedField (need (fVa3 x == 0) .unusedField (need (fVb x == 0) .unusedField (need (fVc x == 0) .unusedField (need (fM x == 0) .unusedField (.ok (.vmnot (fMd x) (fMa x) (fSc x))))))) := by
  unfold decodeMapC; rw [h]; rfl
theorem decodeMapC_15 (x : BitVec 32) (h : fVfn x = 15) : decodeMapC x = need (fVd3 x == 0) .unusedField (need (fVa x == 0) .unusedField (need (fVbHi x == 0) .unusedField (need (fM x == 0) .unusedField (.ok (.vmput (fMd x) (fWs x) (fSc x)))))) := by
  unfold decodeMapC; rw [h]; rfl
theorem decodeMapC_16 (x : BitVec 32) (h : fVfn x = 16) : decodeMapC x = need (fVd x == 0) .unusedField (need (fVa3 x == 0) .unusedField (need (fVbHi x == 0) .unusedField (need (fM x == 0) .unusedField (.ok (.vmget (fWs x) (fMa x) (fSc x)))))) := by
  unfold decodeMapC; rw [h]; rfl
theorem decodeMapC_17 (x : BitVec 32) (h : fVfn x = 17) : decodeMapC x = need (fVb x == 0) .unusedField (need (fVc x == 0) .unusedField (.ok (.vmov (fVd x) (fVa x) (fM x) (fSc x)))) := by
  unfold decodeMapC; rw [h]; rfl
theorem decodeVecMem_0 (x : BitVec 32) (h : fVfn x = 0) : decodeVecMem x = need (fVa x == 0) .unusedField (need (fVbHi x == 0) .unusedField (need (fM x == 0) .unusedField (.ok (.vld (fVd x) (fWs x) (fSc x))))) := by
  unfold decodeVecMem; rw [h]; rfl
theorem decodeVecMem_1 (x : BitVec 32) (h : fVfn x = 1) : decodeVecMem x = need (fVa x == 0) .unusedField (need (fVbHi x == 0) .unusedField (.ok (.vstD (fVd x) (fWs x) (fM x) (fSc x)))) := by
  unfold decodeVecMem; rw [h]; rfl
theorem decodeVecMem_2 (x : BitVec 32) (h : fVfn x = 2) : decodeVecMem x = need (fVa x == 0) .unusedField (need (fVbHi x == 0) .unusedField (.ok (.vstW (fVd x) (fWs x) (fM x) (fSc x)))) := by
  unfold decodeVecMem; rw [h]; rfl
theorem decodeVecMem_3 (x : BitVec 32) (h : fVfn x = 3) : decodeVecMem x = need (fVa x == 0) .unusedField (need (fVbHi x == 0) .unusedField (.ok (.vstB (fVd x) (fWs x) (fM x) (fSc x)))) := by
  unfold decodeVecMem; rw [h]; rfl
theorem decodeReedbed_0 (x : BitVec 32) (h : fCmd x = 0) : decodeReedbed x = need (fEng x == 0) .unusedField (need (fCb x == 0) .unusedField (need (fCa x == 0) .unusedField (.ok (.mlease (fE x) (fSc x))))) := by
  unfold decodeReedbed; rw [h]; rfl
theorem decodeReedbed_1 (x : BitVec 32) (h : fCmd x = 1) : decodeReedbed x = need (fEng x == 0) .unusedField (need (fCb x == 0) .unusedField (need (fCa x == 0) .unusedField (.ok (.mrel (fE x) (fSc x))))) := by
  unfold decodeReedbed; rw [h]; rfl
theorem decodeReedbed_2 (x : BitVec 32) (h : fCmd x = 2) : decodeReedbed x = need (fEngHi x == 0) .reservedValue (.ok (.mfmt (fE x) (fCa x) (fCb x) (fSet x) (fSc x))) := by
  unfold decodeReedbed; rw [h]; rfl
theorem decodeReedbed_3 (x : BitVec 32) (h : fCmd x = 3) : decodeReedbed x = need (fCb x == 0) .unusedField (need (fEngHi x == 0) .reservedValue (.ok (.mgeo (fE x) (fCa x) (fSet x) (fSc x)))) := by
  unfold decodeReedbed; rw [h]; rfl
theorem decodeReedbed_4 (x : BitVec 32) (h : fCmd x = 4) : decodeReedbed x = need (fEngHi x == 0) .reservedValue (.ok (.mloadw (fE x) (fCa x) (fCb x) (fSet x) (fSc x))) := by
  unfold decodeReedbed; rw [h]; rfl
theorem decodeReedbed_5 (x : BitVec 32) (h : fCmd x = 5) : decodeReedbed x = need (fEng x == 0) .unusedField (need (fCb x == 0) .unusedField (need (fCa x == 0) .unusedField (.ok (.mswap (fE x) (fSc x))))) := by
  unfold decodeReedbed; rw [h]; rfl
theorem decodeReedbed_6 (x : BitVec 32) (h : fCmd x = 6) : decodeReedbed x = need (srcLegal x) .reservedValue (.ok (.mstream (fE x) (fCa x) (fCb x) (fSrc x) (fSc x))) := by
  unfold decodeReedbed; rw [h]; rfl
theorem decodeReedbed_7 (x : BitVec 32) (h : fCmd x = 7) : decodeReedbed x = need (fEng x == 0) .unusedField (need (fCb x == 0) .unusedField (need (fCa x == 0) .unusedField (.ok (.mdrain (fE x) (fSc x))))) := by
  unfold decodeReedbed; rw [h]; rfl
theorem decodeHeron_0 (x : BitVec 32) (h : fCmd x = 0) : decodeHeron x = need (srcLegal x) .reservedValue (.ok (.gather (fE x) (fCa x) (fCb x) (fSrc x) (fSc x))) := by
  unfold decodeHeron; rw [h]; rfl
theorem decodeHeron_1 (x : BitVec 32) (h : fCmd x = 1) : decodeHeron x = need (srcLegal x) .reservedValue (.ok (.scatter (fE x) (fCa x) (fCb x) (fSrc x) (fSc x))) := by
  unfold decodeHeron; rw [h]; rfl
theorem decodeHeron_2 (x : BitVec 32) (h : fCmd x = 2) : decodeHeron x = need (srcLegal x) .reservedValue (.ok (.scatterAdd (fE x) (fCa x) (fCb x) (fSrc x) (fSc x))) := by
  unfold decodeHeron; rw [h]; rfl
theorem decodeHeron_3 (x : BitVec 32) (h : fCmd x = 3) : decodeHeron x = need (fCb x == 0) .unusedField (need (fE x == 0) .unusedField (need (fEngH x == 2) .reservedValue (.ok (.hset (fCa x) (fH x) (fSc x))))) := by
  unfold decodeHeron; rw [h]; rfl
theorem decodeHeron_4 (x : BitVec 32) (h : fCmd x = 4) : decodeHeron x = need (fCb x == 0) .unusedField (need (fE x == 0) .unusedField (need (fEngH x == 2) .reservedValue (.ok (.hget (fCa x) (fH x) (fSc x))))) := by
  unfold decodeHeron; rw [h]; rfl
theorem decodeHeron_5 (x : BitVec 32) (h : fCmd x = 5) : decodeHeron x = need (fEngH x == 2) .reservedValue (.ok (.hld (fE x) (fCa x) (fCb x) (fH x) (fSc x))) := by
  unfold decodeHeron; rw [h]; rfl
theorem decodeHeron_6 (x : BitVec 32) (h : fCmd x = 6) : decodeHeron x = need (fEngH x == 2) .reservedValue (.ok (.hst (fE x) (fCa x) (fCb x) (fH x) (fSc x))) := by
  unfold decodeHeron; rw [h]; rfl
theorem decodeLode_0 (x : BitVec 32) (h : fCmd x = 0) : decodeLode x = need (fEngHi x == 0) .reservedValue (.ok (.cpy (fE x) (fCa x) (fCb x) (fSet x) (fSc x))) := by
  unfold decodeLode; rw [h]; rfl
theorem decodeLode_1 (x : BitVec 32) (h : fCmd x = 1) : decodeLode x = need (fEngHi x == 0) .reservedValue (.ok (.cpy2 (fE x) (fCa x) (fCb x) (fSet x) (fSc x))) := by
  unfold decodeLode; rw [h]; rfl
theorem decodeLode_2 (x : BitVec 32) (h : fCmd x = 2) : decodeLode x = need (fEngHi x == 0) .reservedValue (.ok (.cpy3 (fE x) (fCa x) (fCb x) (fSet x) (fSc x))) := by
  unfold decodeLode; rw [h]; rfl
theorem decodeLode_8 (x : BitVec 32) (h : fCmd x = 8) : decodeLode x = need (fEng x == 0) .unusedField (need (fCb x == 0) .unusedField (need (fCa x == 0) .unusedField (.ok (.fwait (fE x) (fSc x))))) := by
  unfold decodeLode; rw [h]; rfl
theorem decodeLode_9 (x : BitVec 32) (h : fCmd x = 9) : decodeLode x = need (fEng x == 0) .unusedField (need (fCb x == 0) .unusedField (.ok (.ftest (fE x) (fCa x) (fSc x)))) := by
  unfold decodeLode; rw [h]; rfl
theorem decodeLode_10 (x : BitVec 32) (h : fCmd x = 10) : decodeLode x = need (fEng x == 0) .unusedField (need (fCb x == 0) .unusedField (need (fCa x == 0) .unusedField (.ok (.fcancel (fE x) (fSc x))))) := by
  unfold decodeLode; rw [h]; rfl
theorem decodeLode_11 (x : BitVec 32) (h : fCmd x = 11) : decodeLode x = need (fEng x == 0) .unusedField (need (fCb x == 0) .unusedField (.ok (.fpassRead (fE x) (fCa x) (fSc x)))) := by
  unfold decodeLode; rw [h]; rfl
theorem decodeLode_12 (x : BitVec 32) (h : fCmd x = 12) : decodeLode x = need (fEng x == 0) .unusedField (need (fCb x == 0) .unusedField (.ok (.fpassWrite (fE x) (fCa x) (fSc x)))) := by
  unfold decodeLode; rw [h]; rfl
theorem decodePage_0 (x : BitVec 32) (h : fCmd x = 0) : decodePage x = need (fEng x == 0) .unusedField (.ok (.spmap (fE x) (fCa x) (fCb x) (fSc x))) := by
  unfold decodePage; rw [h]; rfl
theorem decodePage_1 (x : BitVec 32) (h : fCmd x = 1) : decodePage x = need (fEng x == 0) .unusedField (.ok (.spfree (fE x) (fCa x) (fCb x) (fSc x))) := by
  unfold decodePage; rw [h]; rfl
theorem decodePage_2 (x : BitVec 32) (h : fCmd x = 2) : decodePage x = need (fEng x == 0) .unusedField (.ok (.sppin (fE x) (fCa x) (fCb x) (fSc x))) := by
  unfold decodePage; rw [h]; rfl
theorem decodePage_3 (x : BitVec 32) (h : fCmd x = 3) : decodePage x = need (fEng x == 0) .unusedField (need (fCb x == 0) .unusedField (.ok (.spmig (fE x) (fCa x) (fSc x)))) := by
  unfold decodePage; rw [h]; rfl
theorem decodePage_4 (x : BitVec 32) (h : fCmd x = 4) : decodePage x = need (fEng x == 0) .unusedField (.ok (.spflush (fE x) (fCa x) (fCb x) (fSc x))) := by
  unfold decodePage; rw [h]; rfl
theorem decodePage_8 (x : BitVec 32) (h : fCmd x = 8) : decodePage x = need (fEng x == 0) .unusedField (need (fEHi x == 0) .reservedValue (.ok (.sbind (fPort x) (fCa x) (fCb x) (fSc x)))) := by
  unfold decodePage; rw [h]; rfl
theorem decodePage_9 (x : BitVec 32) (h : fCmd x = 9) : decodePage x = need (fEng x == 0) .unusedField (need (fCb x == 0) .unusedField (need (fCa x == 0) .unusedField (need (fEHi x == 0) .reservedValue (.ok (.sfree (fPort x) (fSc x)))))) := by
  unfold decodePage; rw [h]; rfl
theorem decodePage_10 (x : BitVec 32) (h : fCmd x = 10) : decodePage x = need (fEng x == 0) .unusedField (need (fCb x == 0) .unusedField (need (fE x == 0) .unusedField (.ok (.qbind (fCa x) (fSc x))))) := by
  unfold decodePage; rw [h]; rfl
theorem decodeFence_0 (x : BitVec 32) (h : fOrder x = 0) : decodeFence x = need (fD x == 0) .unusedField (need (fA x == 0) .unusedField (need (fB x == 0) .unusedField (withScope x fun s => .ok (.fence s (fSc x))))) := by
  unfold decodeFence; rw [h]; rfl
theorem decodeFence_1 (x : BitVec 32) (h : fOrder x = 1) : decodeFence x = need (fD x == 0) .unusedField (need (fA x == 0) .unusedField (need (fB x == 0) .unusedField (withScope x fun s => .ok (.fenceX s (fSc x))))) := by
  unfold decodeFence; rw [h]; rfl
theorem decodeFence_2 (x : BitVec 32) (h : fOrder x = 2) : decodeFence x = need (fD x == 0) .unusedField (need (fB x == 0) .unusedField (withScope x fun s => .ok (.bar s (fA x) (fSc x)))) := by
  unfold decodeFence; rw [h]; rfl
theorem decodeFence_3 (x : BitVec 32) (h : fOrder x = 3) : decodeFence x = need (fD x == 0) .unusedField (need (fB x == 0) .unusedField (withScope x fun s => .ok (.barjoin s (fA x) (fSc x)))) := by
  unfold decodeFence; rw [h]; rfl
theorem decodeFence_4 (x : BitVec 32) (h : fOrder x = 4) : decodeFence x = need (fD x == 0) .unusedField (need (fB x == 0) .unusedField (withScope x fun s => .ok (.barleave s (fA x) (fSc x)))) := by
  unfold decodeFence; rw [h]; rfl
theorem decodeFence_5 (x : BitVec 32) (h : fOrder x = 5) : decodeFence x = need (fD x == 0) .unusedField (withScope x fun s => .ok (.wait s (fA x) (fB x) (fSc x))) := by
  unfold decodeFence; rw [h]; rfl
theorem decodeFence_6 (x : BitVec 32) (h : fOrder x = 6) : decodeFence x = need (fD x == 0) .unusedField (need (fB x == 0) .unusedField (need (publishScope (fScopeBits x)) .reservedValue (withScope x fun s => .ok (.publish s (fA x) (fSc x))))) := by
  unfold decodeFence; rw [h]; rfl
theorem decodeCsr_0 (x : BitVec 32) (h : fCsrOp x = 0) : decodeCsr x = need (fA x == 0) .unusedField (need (csrListed (fCsr x)) .reservedValue (.ok (.csrr (fD x) (fCsr x) (fSc x)))) := by
  unfold decodeCsr; rw [h]; rfl
theorem decodeCsr_1 (x : BitVec 32) (h : fCsrOp x = 1) : decodeCsr x = need (fD x == 0) .unusedField (need (csrListed (fCsr x)) .reservedValue (.ok (.csrw (fCsr x) (fA x) (fSc x)))) := by
  unfold decodeCsr; rw [h]; rfl
theorem decodeCsr_2 (x : BitVec 32) (h : fCsrOp x = 2) : decodeCsr x = need (fD x == 0) .unusedField (need (csrListed (fCsr x)) .reservedValue (.ok (.csrs (fCsr x) (fA x) (fSc x)))) := by
  unfold decodeCsr; rw [h]; rfl
theorem decodeCsr_3 (x : BitVec 32) (h : fCsrOp x = 3) : decodeCsr x = need (fD x == 0) .unusedField (need (csrListed (fCsr x)) .reservedValue (.ok (.csrc (fCsr x) (fA x) (fSc x)))) := by
  unfold decodeCsr; rw [h]; rfl
theorem decodeSystem_0 (x : BitVec 32) (h : fFn x = 0) : decodeSystem x = need (fD x == 0) .unusedField (need (fA x == 0) .unusedField (need (fB x == 0) .unusedField (.ok (.nop (fSc x))))) := by
  unfold decodeSystem; rw [h]; rfl
theorem decodeSystem_1 (x : BitVec 32) (h : fFn x = 1) : decodeSystem x = need (fD x == 0) .unusedField (need (fA x == 0) .unusedField (need (fB x == 0) .unusedField (.ok (.eret (fSc x))))) := by
  unfold decodeSystem; rw [h]; rfl
theorem decodeSystem_2 (x : BitVec 32) (h : fFn x = 2) : decodeSystem x = need (fD x == 0) .unusedField (need (fB x == 0) .unusedField (.ok (.trap (fA x) (fSc x)))) := by
  unfold decodeSystem; rw [h]; rfl
theorem decodeSystem_3 (x : BitVec 32) (h : fFn x = 3) : decodeSystem x = need (fB x == 0) .unusedField (.ok (.wpsw (fD x) (fA x) (fSc x))) := by
  unfold decodeSystem; rw [h]; rfl
theorem decodeSystem_4 (x : BitVec 32) (h : fFn x = 4) : decodeSystem x = need (fD x == 0) .unusedField (need (fA x == 0) .unusedField (need (fB x == 0) .unusedField (.ok (.sleep (fSc x))))) := by
  unfold decodeSystem; rw [h]; rfl
theorem decodeSystem_5 (x : BitVec 32) (h : fFn x = 5) : decodeSystem x = need (fD x == 0) .unusedField (need (fA x == 0) .unusedField (need (fB x == 0) .unusedField (.ok (.brk (fSc x))))) := by
  unfold decodeSystem; rw [h]; rfl
theorem decodeWord_1 (x : BitVec 32) (h : fOp x = 1) : decodeWord x = decodeInt x := by
  unfold decodeWord; rw [h]; rfl
theorem decodeWord_2 (x : BitVec 32) (h : fOp x = 2) : decodeWord x = .ok (.addi (fD x) (fA x) (fImm12 x) (fSc x)) := by
  unfold decodeWord; rw [h]; rfl
theorem decodeWord_3 (x : BitVec 32) (h : fOp x = 3) : decodeWord x = .ok (.andi (fD x) (fA x) (fImm12 x) (fSc x)) := by
  unfold decodeWord; rw [h]; rfl
theorem decodeWord_4 (x : BitVec 32) (h : fOp x = 4) : decodeWord x = .ok (.ori (fD x) (fA x) (fImm12 x) (fSc x)) := by
  unfold decodeWord; rw [h]; rfl
theorem decodeWord_5 (x : BitVec 32) (h : fOp x = 5) : decodeWord x = .ok (.xori (fD x) (fA x) (fImm12 x) (fSc x)) := by
  unfold decodeWord; rw [h]; rfl
theorem decodeWord_6 (x : BitVec 32) (h : fOp x = 6) : decodeWord x = .ok (.slti (fD x) (fA x) (fImm12 x) (fSc x)) := by
  unfold decodeWord; rw [h]; rfl
theorem decodeWord_7 (x : BitVec 32) (h : fOp x = 7) : decodeWord x = .ok (.sltiu (fD x) (fA x) (fImm12 x) (fSc x)) := by
  unfold decodeWord; rw [h]; rfl
theorem decodeWord_8 (x : BitVec 32) (h : fOp x = 8) : decodeWord x = need (fB x == 0) .unusedField (.ok (.slli (fD x) (fA x) (fLo6 x) (fSc x))) := by
  unfold decodeWord; rw [h]; rfl
theorem decodeWord_9 (x : BitVec 32) (h : fOp x = 9) : decodeWord x = need (fB x == 0) .unusedField (.ok (.srli (fD x) (fA x) (fLo6 x) (fSc x))) := by
  unfold decodeWord; rw [h]; rfl
theorem decodeWord_10 (x : BitVec 32) (h : fOp x = 10) : decodeWord x = need (fB x == 0) .unusedField (.ok (.srai (fD x) (fA x) (fLo6 x) (fSc x))) := by
  unfold decodeWord; rw [h]; rfl
theorem decodeWord_11 (x : BitVec 32) (h : fOp x = 11) : decodeWord x = need (fieldFits (fB x) (fLo6 x)) .reservedValue (.ok (.ext (fD x) (fA x) (fB x) (fLo6 x) (fSc x))) := by
  unfold decodeWord; rw [h]; rfl
theorem decodeWord_12 (x : BitVec 32) (h : fOp x = 12) : decodeWord x = need (fieldFits (fB x) (fLo6 x)) .reservedValue (.ok (.exts (fD x) (fA x) (fB x) (fLo6 x) (fSc x))) := by
  unfold decodeWord; rw [h]; rfl
theorem decodeWord_13 (x : BitVec 32) (h : fOp x = 13) : decodeWord x = need (fieldFits (fB x) (fLo6 x)) .reservedValue (.ok (.ins (fD x) (fA x) (fB x) (fLo6 x) (fSc x))) := by
  unfold decodeWord; rw [h]; rfl
theorem decodeWord_14 (x : BitVec 32) (h : fOp x = 14) : decodeWord x = .ok (.lui (fD x) (fImm18 x) (fSc x)) := by
  unfold decodeWord; rw [h]; rfl
theorem decodeWord_15 (x : BitVec 32) (h : fOp x = 15) : decodeWord x = need (fImm18Hi x == 0) .unusedField (.ok (.lsi (fD x) (fImm16 x) (fSc x))) := by
  unfold decodeWord; rw [h]; rfl
theorem decodeWord_16 (x : BitVec 32) (h : fOp x = 16) : decodeWord x = decodeMem .b x := by
  unfold decodeWord; rw [h]; rfl
theorem decodeWord_17 (x : BitVec 32) (h : fOp x = 17) : decodeWord x = decodeMem .h x := by
  unfold decodeWord; rw [h]; rfl
theorem decodeWord_18 (x : BitVec 32) (h : fOp x = 18) : decodeWord x = decodeMem .w x := by
  unfold decodeWord; rw [h]; rfl
theorem decodeWord_19 (x : BitVec 32) (h : fOp x = 19) : decodeWord x = decodeMem .d x := by
  unfold decodeWord; rw [h]; rfl
theorem decodeWord_20 (x : BitVec 32) (h : fOp x = 20) : decodeWord x = decodeMem .q x := by
  unfold decodeWord; rw [h]; rfl
theorem decodeWord_21 (x : BitVec 32) (h : fOp x = 21) : decodeWord x = .ok (.ldDLong (fD x) (fA x) (fImm12 x) (fSc x)) := by
  unfold decodeWord; rw [h]; rfl
theorem decodeWord_22 (x : BitVec 32) (h : fOp x = 22) : decodeWord x = .ok (.stDLong (fD x) (fA x) (fImm12 x) (fSc x)) := by
  unfold decodeWord; rw [h]; rfl
theorem decodeWord_24 (x : BitVec 32) (h : fOp x = 24) : decodeWord x = decodeAtomic .d x := by
  unfold decodeWord; rw [h]; rfl
theorem decodeWord_25 (x : BitVec 32) (h : fOp x = 25) : decodeWord x = decodeAtomic .w x := by
  unfold decodeWord; rw [h]; rfl
theorem decodeWord_26 (x : BitVec 32) (h : fOp x = 26) : decodeWord x = need (fOrder x == 0) .reservedMinor (need (!isPort (fD x)) .badRegister (withScope x fun s => .ok (.casD (fD x) (fA x) (fB x) s (fSc x)))) := by
  unfold decodeWord; rw [h]; rfl
theorem decodeWord_27 (x : BitVec 32) (h : fOp x = 27) : decodeWord x = need (fOrder x == 0) .reservedMinor (need (isPair (fD x)) .badRegister (need (isPair (fB x)) .badRegister (withScope x fun s => .ok (.casQ (fD x) (fA x) (fB x) s (fSc x))))) := by
  unfold decodeWord; rw [h]; rfl
theorem decodeWord_28 (x : BitVec 32) (h : fOp x = 28) : decodeWord x = .ok (.beq (fD x) (fA x) (fImm12 x) (fSc x)) := by
  unfold decodeWord; rw [h]; rfl
theorem decodeWord_29 (x : BitVec 32) (h : fOp x = 29) : decodeWord x = .ok (.bne (fD x) (fA x) (fImm12 x) (fSc x)) := by
  unfold decodeWord; rw [h]; rfl
theorem decodeWord_30 (x : BitVec 32) (h : fOp x = 30) : decodeWord x = .ok (.blt (fD x) (fA x) (fImm12 x) (fSc x)) := by
  unfold decodeWord; rw [h]; rfl
theorem decodeWord_31 (x : BitVec 32) (h : fOp x = 31) : decodeWord x = .ok (.bge (fD x) (fA x) (fImm12 x) (fSc x)) := by
  unfold decodeWord; rw [h]; rfl
theorem decodeWord_32 (x : BitVec 32) (h : fOp x = 32) : decodeWord x = .ok (.j (fOff24 x) (fSc x)) := by
  unfold decodeWord; rw [h]; rfl
theorem decodeWord_33 (x : BitVec 32) (h : fOp x = 33) : decodeWord x = .ok (.jal (fOff24 x) (fSc x)) := by
  unfold decodeWord; rw [h]; rfl
theorem decodeWord_34 (x : BitVec 32) (h : fOp x = 34) : decodeWord x = .ok (.jalr (fD x) (fA x) (fImm12 x) (fSc x)) := by
  unfold decodeWord; rw [h]; rfl
theorem decodeWord_35 (x : BitVec 32) (h : fOp x = 35) : decodeWord x = .ok (.spawn (fD x) (fImm18 x) (fSc x)) := by
  unfold decodeWord; rw [h]; rfl
theorem decodeWord_36 (x : BitVec 32) (h : fOp x = 36) : decodeWord x = need (fD x == 0) .unusedField (.ok (.spawnf (fImm18 x) (fSc x))) := by
  unfold decodeWord; rw [h]; rfl
theorem decodeWord_37 (x : BitVec 32) (h : fOp x = 37) : decodeWord x = decodeTask x := by
  unfold decodeWord; rw [h]; rfl
theorem decodeWord_38 (x : BitVec 32) (h : fOp x = 38) : decodeWord x = decodePool x := by
  unfold decodeWord; rw [h]; rfl
theorem decodeWord_40 (x : BitVec 32) (h : fOp x = 40) : decodeWord x = decodeFp .f64 x := by
  unfold decodeWord; rw [h]; rfl
theorem decodeWord_41 (x : BitVec 32) (h : fOp x = 41) : decodeWord x = decodeFp .f32 x := by
  unfold decodeWord; rw [h]; rfl
theorem decodeWord_42 (x : BitVec 32) (h : fOp x = 42) : decodeWord x = need (fB x == 0) .unusedField (need (fcvtLegal (fFnHi x) (fFnLo x)) .reservedMinor (.ok (.fcvt (fFnHi x) (fFnLo x) (fD x) (fA x) (fSc x)))) := by
  unfold decodeWord; rw [h]; rfl
theorem decodeWord_43 (x : BitVec 32) (h : fOp x = 43) : decodeWord x = decodeWide x := by
  unfold decodeWord; rw [h]; rfl
theorem decodeWord_48 (x : BitVec 32) (h : fOp x = 48) : decodeWord x = decodeMapA .f64 x := by
  unfold decodeWord; rw [h]; rfl
theorem decodeWord_49 (x : BitVec 32) (h : fOp x = 49) : decodeWord x = decodeMapA .f32 x := by
  unfold decodeWord; rw [h]; rfl
theorem decodeWord_50 (x : BitVec 32) (h : fOp x = 50) : decodeWord x = decodeMapA .bf16 x := by
  unfold decodeWord; rw [h]; rfl
theorem decodeWord_51 (x : BitVec 32) (h : fOp x = 51) : decodeWord x = decodeMapA .f16 x := by
  unfold decodeWord; rw [h]; rfl
theorem decodeWord_52 (x : BitVec 32) (h : fOp x = 52) : decodeWord x = decodeMapB x := by
  unfold decodeWord; rw [h]; rfl
theorem decodeWord_53 (x : BitVec 32) (h : fOp x = 53) : decodeWord x = need (fVfn4 x == 0) .unusedField (need (vcvtLegal (fVb x) (fVc x) (fPart x) (fSat x)) .reservedMinor (.ok (.vcvt (fVb x) (fVc x) (fPart x) (fSat x) (fVd x) (fVa x) (fM x) (fSc x)))) := by
  unfold decodeWord; rw [h]; rfl
theorem decodeWord_54 (x : BitVec 32) (h : fOp x = 54) : decodeWord x = decodeMapC x := by
  unfold decodeWord; rw [h]; rfl
theorem decodeWord_55 (x : BitVec 32) (h : fOp x = 55) : decodeWord x = decodeVecMem x := by
  unfold decodeWord; rw [h]; rfl
theorem decodeWord_56 (x : BitVec 32) (h : fOp x = 56) : decodeWord x = decodeReedbed x := by
  unfold decodeWord; rw [h]; rfl
theorem decodeWord_57 (x : BitVec 32) (h : fOp x = 57) : decodeWord x = decodeHeron x := by
  unfold decodeWord; rw [h]; rfl
theorem decodeWord_58 (x : BitVec 32) (h : fOp x = 58) : decodeWord x = decodeLode x := by
  unfold decodeWord; rw [h]; rfl
theorem decodeWord_59 (x : BitVec 32) (h : fOp x = 59) : decodeWord x = decodePage x := by
  unfold decodeWord; rw [h]; rfl
theorem decodeWord_60 (x : BitVec 32) (h : fOp x = 60) : decodeWord x = decodeFence x := by
  unfold decodeWord; rw [h]; rfl
theorem decodeWord_61 (x : BitVec 32) (h : fOp x = 61) : decodeWord x = decodeCsr x := by
  unfold decodeWord; rw [h]; rfl
theorem decodeWord_62 (x : BitVec 32) (h : fOp x = 62) : decodeWord x = decodeSystem x := by
  unfold decodeWord; rw [h]; rfl

end Sys2Proof
end

