-- ==== Sys2Proof/Laws/Exec.lean ====
section
/-!
SUPPORT. The meaning of each instruction, one equation per constructor, so that no proof unfolds the dispatch.
-/
namespace Sys2Proof.Machine

@[simp] theorem exec_add (d a b sc) (s : State) : exec (.add d a b sc) s = execAdd d a b sc s := rfl
@[simp] theorem exec_sub (d a b sc) (s : State) : exec (.sub d a b sc) s = execSub d a b sc s := rfl
@[simp] theorem exec_and (d a b sc) (s : State) : exec (.and d a b sc) s = execAnd d a b sc s := rfl
@[simp] theorem exec_or (d a b sc) (s : State) : exec (.or d a b sc) s = execOr d a b sc s := rfl
@[simp] theorem exec_xor (d a b sc) (s : State) : exec (.xor d a b sc) s = execXor d a b sc s := rfl
@[simp] theorem exec_sll (d a b sc) (s : State) : exec (.sll d a b sc) s = execSll d a b sc s := rfl
@[simp] theorem exec_srl (d a b sc) (s : State) : exec (.srl d a b sc) s = execSrl d a b sc s := rfl
@[simp] theorem exec_sra (d a b sc) (s : State) : exec (.sra d a b sc) s = execSra d a b sc s := rfl
@[simp] theorem exec_rol (d a b sc) (s : State) : exec (.rol d a b sc) s = execRol d a b sc s := rfl
@[simp] theorem exec_ror (d a b sc) (s : State) : exec (.ror d a b sc) s = execRor d a b sc s := rfl
@[simp] theorem exec_slt (d a b sc) (s : State) : exec (.slt d a b sc) s = execSlt d a b sc s := rfl
@[simp] theorem exec_sltu (d a b sc) (s : State) : exec (.sltu d a b sc) s = execSltu d a b sc s := rfl
@[simp] theorem exec_min (d a b sc) (s : State) : exec (.min d a b sc) s = execMin d a b sc s := rfl
@[simp] theorem exec_max (d a b sc) (s : State) : exec (.max d a b sc) s = execMax d a b sc s := rfl
@[simp] theorem exec_minu (d a b sc) (s : State) : exec (.minu d a b sc) s = execMinu d a b sc s := rfl
@[simp] theorem exec_maxu (d a b sc) (s : State) : exec (.maxu d a b sc) s = execMaxu d a b sc s := rfl
@[simp] theorem exec_mul (d a b sc) (s : State) : exec (.mul d a b sc) s = execMul d a b sc s := rfl
@[simp] theorem exec_mulh (d a b sc) (s : State) : exec (.mulh d a b sc) s = execMulh d a b sc s := rfl
@[simp] theorem exec_mulhu (d a b sc) (s : State) : exec (.mulhu d a b sc) s = execMulhu d a b sc s := rfl
@[simp] theorem exec_div (d a b sc) (s : State) : exec (.div d a b sc) s = execDiv d a b sc s := rfl
@[simp] theorem exec_divu (d a b sc) (s : State) : exec (.divu d a b sc) s = execDivu d a b sc s := rfl
@[simp] theorem exec_rem (d a b sc) (s : State) : exec (.rem d a b sc) s = execRem d a b sc s := rfl
@[simp] theorem exec_remu (d a b sc) (s : State) : exec (.remu d a b sc) s = execRemu d a b sc s := rfl
@[simp] theorem exec_clz (d a sc) (s : State) : exec (.clz d a sc) s = execClz d a sc s := rfl
@[simp] theorem exec_ctz (d a sc) (s : State) : exec (.ctz d a sc) s = execCtz d a sc s := rfl
@[simp] theorem exec_cpop (d a sc) (s : State) : exec (.cpop d a sc) s = execCpop d a sc s := rfl
@[simp] theorem exec_sextB (d a sc) (s : State) : exec (.sextB d a sc) s = execSextB d a sc s := rfl
@[simp] theorem exec_sextH (d a sc) (s : State) : exec (.sextH d a sc) s = execSextH d a sc s := rfl
@[simp] theorem exec_sextW (d a sc) (s : State) : exec (.sextW d a sc) s = execSextW d a sc s := rfl
@[simp] theorem exec_zextB (d a sc) (s : State) : exec (.zextB d a sc) s = execZextB d a sc s := rfl
@[simp] theorem exec_zextH (d a sc) (s : State) : exec (.zextH d a sc) s = execZextH d a sc s := rfl
@[simp] theorem exec_zextW (d a sc) (s : State) : exec (.zextW d a sc) s = execZextW d a sc s := rfl
@[simp] theorem exec_addi (d a imm sc) (s : State) : exec (.addi d a imm sc) s = execAddi d a imm sc s := rfl
@[simp] theorem exec_andi (d a imm sc) (s : State) : exec (.andi d a imm sc) s = execAndi d a imm sc s := rfl
@[simp] theorem exec_ori (d a imm sc) (s : State) : exec (.ori d a imm sc) s = execOri d a imm sc s := rfl
@[simp] theorem exec_xori (d a imm sc) (s : State) : exec (.xori d a imm sc) s = execXori d a imm sc s := rfl
@[simp] theorem exec_slti (d a imm sc) (s : State) : exec (.slti d a imm sc) s = execSlti d a imm sc s := rfl
@[simp] theorem exec_sltiu (d a imm sc) (s : State) : exec (.sltiu d a imm sc) s = execSltiu d a imm sc s := rfl
@[simp] theorem exec_slli (d a sh sc) (s : State) : exec (.slli d a sh sc) s = execSlli d a sh sc s := rfl
@[simp] theorem exec_srli (d a sh sc) (s : State) : exec (.srli d a sh sc) s = execSrli d a sh sc s := rfl
@[simp] theorem exec_srai (d a sh sc) (s : State) : exec (.srai d a sh sc) s = execSrai d a sh sc s := rfl
@[simp] theorem exec_ext (d a pos len1 sc) (s : State) : exec (.ext d a pos len1 sc) s = execExt d a pos len1 sc s := rfl
@[simp] theorem exec_exts (d a pos len1 sc) (s : State) : exec (.exts d a pos len1 sc) s = execExts d a pos len1 sc s := rfl
@[simp] theorem exec_ins (d a pos len1 sc) (s : State) : exec (.ins d a pos len1 sc) s = execIns d a pos len1 sc s := rfl
@[simp] theorem exec_lui (d imm sc) (s : State) : exec (.lui d imm sc) s = execLui d imm sc s := rfl
@[simp] theorem exec_lsi (d imm sc) (s : State) : exec (.lsi d imm sc) s = execLsi d imm sc s := rfl
@[simp] theorem exec_ld (sz d a imm6 sc) (s : State) : exec (.ld sz d a imm6 sc) s = execLd sz d a imm6 sc s := rfl
@[simp] theorem exec_ldU (sz d a imm6 sc) (s : State) : exec (.ldU sz d a imm6 sc) s = execLdU sz d a imm6 sc s := rfl
@[simp] theorem exec_ldAcq (sz d a imm6 scope sc) (s : State) : exec (.ldAcq sz d a imm6 scope sc) s = execLdAcq sz d a imm6 scope sc s := rfl
@[simp] theorem exec_ldS (sz d a imm6 sc) (s : State) : exec (.ldS sz d a imm6 sc) s = execLdS sz d a imm6 sc s := rfl
@[simp] theorem exec_ldDLong (d a imm sc) (s : State) : exec (.ldDLong d a imm sc) s = execLdDLong d a imm sc s := rfl
@[simp] theorem exec_st (sz d a imm6 sc) (s : State) : exec (.st sz d a imm6 sc) s = execSt sz d a imm6 sc s := rfl
@[simp] theorem exec_stRel (sz d a imm6 scope sc) (s : State) : exec (.stRel sz d a imm6 scope sc) s = execStRel sz d a imm6 scope sc s := rfl
@[simp] theorem exec_stClr (sz d a imm6 sc) (s : State) : exec (.stClr sz d a imm6 sc) s = execStClr sz d a imm6 sc s := rfl
@[simp] theorem exec_stDLong (d a imm sc) (s : State) : exec (.stDLong d a imm sc) s = execStDLong d a imm sc s := rfl
@[simp] theorem exec_aadd (wd d a b scope sc) (s : State) : exec (.aadd wd d a b scope sc) s = execAadd wd d a b scope sc s := rfl
@[simp] theorem exec_aswap (wd d a b scope sc) (s : State) : exec (.aswap wd d a b scope sc) s = execAswap wd d a b scope sc s := rfl
@[simp] theorem exec_aand (wd d a b scope sc) (s : State) : exec (.aand wd d a b scope sc) s = execAand wd d a b scope sc s := rfl
@[simp] theorem exec_aor (wd d a b scope sc) (s : State) : exec (.aor wd d a b scope sc) s = execAor wd d a b scope sc s := rfl
@[simp] theorem exec_axor (wd d a b scope sc) (s : State) : exec (.axor wd d a b scope sc) s = execAxor wd d a b scope sc s := rfl
@[simp] theorem exec_amax (wd d a b scope sc) (s : State) : exec (.amax wd d a b scope sc) s = execAmax wd d a b scope sc s := rfl
@[simp] theorem exec_amin (wd d a b scope sc) (s : State) : exec (.amin wd d a b scope sc) s = execAmin wd d a b scope sc s := rfl
@[simp] theorem exec_amaxu (wd d a b scope sc) (s : State) : exec (.amaxu wd d a b scope sc) s = execAmaxu wd d a b scope sc s := rfl
@[simp] theorem exec_casD (d a b scope sc) (s : State) : exec (.casD d a b scope sc) s = execCasD d a b scope sc s := rfl
@[simp] theorem exec_casQ (d a b scope sc) (s : State) : exec (.casQ d a b scope sc) s = execCasQ d a b scope sc s := rfl
@[simp] theorem exec_beq (a b off sc) (s : State) : exec (.beq a b off sc) s = execBeq a b off sc s := rfl
@[simp] theorem exec_bne (a b off sc) (s : State) : exec (.bne a b off sc) s = execBne a b off sc s := rfl
@[simp] theorem exec_blt (a b off sc) (s : State) : exec (.blt a b off sc) s = execBlt a b off sc s := rfl
@[simp] theorem exec_bge (a b off sc) (s : State) : exec (.bge a b off sc) s = execBge a b off sc s := rfl
@[simp] theorem exec_j (off sc) (s : State) : exec (.j off sc) s = execJ off sc s := rfl
@[simp] theorem exec_jal (off sc) (s : State) : exec (.jal off sc) s = execJal off sc s := rfl
@[simp] theorem exec_jalr (d a imm sc) (s : State) : exec (.jalr d a imm sc) s = execJalr d a imm sc s := rfl
@[simp] theorem exec_spawn (d imm sc) (s : State) : exec (.spawn d imm sc) s = execSpawn d imm sc s := rfl
@[simp] theorem exec_spawnf (imm sc) (s : State) : exec (.spawnf imm sc) s = execSpawnf imm sc s := rfl
@[simp] theorem exec_tdone (sc) (s : State) : exec (.tdone sc) s = execTdone sc s := rfl
@[simp] theorem exec_tabort (sc) (s : State) : exec (.tabort sc) s = execTabort sc s := rfl
@[simp] theorem exec_tyield (sc) (s : State) : exec (.tyield sc) s = execTyield sc s := rfl
@[simp] theorem exec_spawnr (a b sc) (s : State) : exec (.spawnr a b sc) s = execSpawnr a b sc s := rfl
@[simp] theorem exec_spawnfr (a sc) (s : State) : exec (.spawnfr a sc) s = execSpawnfr a sc s := rfl
@[simp] theorem exec_crdeclD (a b sc) (s : State) : exec (.crdeclD a b sc) s = execCrdeclD a b sc s := rfl
@[simp] theorem exec_crdeclF32 (a b sc) (s : State) : exec (.crdeclF32 a b sc) s = execCrdeclF32 a b sc s := rfl
@[simp] theorem exec_crdeclF64 (a b sc) (s : State) : exec (.crdeclF64 a b sc) s = execCrdeclF64 a b sc s := rfl
@[simp] theorem exec_cradd (a b sc) (s : State) : exec (.cradd a b sc) s = execCradd a b sc s := rfl
@[simp] theorem exec_poolget (d a sc) (s : State) : exec (.poolget d a sc) s = execPoolget d a sc s := rfl
@[simp] theorem exec_poolgetNf (d a sc) (s : State) : exec (.poolgetNf d a sc) s = execPoolgetNf d a sc s := rfl
@[simp] theorem exec_poolput (a b sc) (s : State) : exec (.poolput a b sc) s = execPoolput a b sc s := rfl
@[simp] theorem exec_fadd (f d a b sc) (s : State) : exec (.fadd f d a b sc) s = execFadd f d a b sc s := rfl
@[simp] theorem exec_fsub (f d a b sc) (s : State) : exec (.fsub f d a b sc) s = execFsub f d a b sc s := rfl
@[simp] theorem exec_fmul (f d a b sc) (s : State) : exec (.fmul f d a b sc) s = execFmul f d a b sc s := rfl
@[simp] theorem exec_fdiv (f d a b sc) (s : State) : exec (.fdiv f d a b sc) s = execFdiv f d a b sc s := rfl
@[simp] theorem exec_fsqrt (f d a sc) (s : State) : exec (.fsqrt f d a sc) s = execFsqrt f d a sc s := rfl
@[simp] theorem exec_fmin (f d a b sc) (s : State) : exec (.fmin f d a b sc) s = execFmin f d a b sc s := rfl
@[simp] theorem exec_fmax (f d a b sc) (s : State) : exec (.fmax f d a b sc) s = execFmax f d a b sc s := rfl
@[simp] theorem exec_fmadd (f d a b sc) (s : State) : exec (.fmadd f d a b sc) s = execFmadd f d a b sc s := rfl
@[simp] theorem exec_fmsub (f d a b sc) (s : State) : exec (.fmsub f d a b sc) s = execFmsub f d a b sc s := rfl
@[simp] theorem exec_fnmadd (f d a b sc) (s : State) : exec (.fnmadd f d a b sc) s = execFnmadd f d a b sc s := rfl
@[simp] theorem exec_feq (f d a b sc) (s : State) : exec (.feq f d a b sc) s = execFeq f d a b sc s := rfl
@[simp] theorem exec_flt (f d a b sc) (s : State) : exec (.flt f d a b sc) s = execFlt f d a b sc s := rfl
@[simp] theorem exec_fle (f d a b sc) (s : State) : exec (.fle f d a b sc) s = execFle f d a b sc s := rfl
@[simp] theorem exec_fclass (f d a sc) (s : State) : exec (.fclass f d a sc) s = execFclass f d a sc s := rfl
@[simp] theorem exec_fneg (f d a sc) (s : State) : exec (.fneg f d a sc) s = execFneg f d a sc s := rfl
@[simp] theorem exec_fabs (f d a sc) (s : State) : exec (.fabs f d a sc) s = execFabs f d a sc s := rfl
@[simp] theorem exec_fcvt (dst src d a sc) (s : State) : exec (.fcvt dst src d a sc) s = execFcvt dst src d a sc s := rfl
@[simp] theorem exec_waclr (d sc) (s : State) : exec (.waclr d sc) s = execWaclr d sc s := rfl
@[simp] theorem exec_wadd (d a b sc) (s : State) : exec (.wadd d a b sc) s = execWadd d a b sc s := rfl
@[simp] theorem exec_waddv (d va vb sc) (s : State) : exec (.waddv d va vb sc) s = execWaddv d va vb sc s := rfl
@[simp] theorem exec_wsgn (d a sc) (s : State) : exec (.wsgn d a sc) s = execWsgn d a sc s := rfl
@[simp] theorem exec_wrnd (d a sc) (s : State) : exec (.wrnd d a sc) s = execWrnd d a sc s := rfl
@[simp] theorem exec_vaddFp (f vd va vb m sc) (s : State) : exec (.vaddFp f vd va vb m sc) s = execVaddFp f vd va vb m sc s := rfl
@[simp] theorem exec_vsubFp (f vd va vb m sc) (s : State) : exec (.vsubFp f vd va vb m sc) s = execVsubFp f vd va vb m sc s := rfl
@[simp] theorem exec_vmulFp (f vd va vb m sc) (s : State) : exec (.vmulFp f vd va vb m sc) s = execVmulFp f vd va vb m sc s := rfl
@[simp] theorem exec_vfma (f vd va vb vc m sc) (s : State) : exec (.vfma f vd va vb vc m sc) s = execVfma f vd va vb vc m sc s := rfl
@[simp] theorem exec_vfms (f vd va vb vc m sc) (s : State) : exec (.vfms f vd va vb vc m sc) s = execVfms f vd va vb vc m sc s := rfl
@[simp] theorem exec_vdiv (f vd va vb m sc) (s : State) : exec (.vdiv f vd va vb m sc) s = execVdiv f vd va vb m sc s := rfl
@[simp] theorem exec_vsqrt (f vd va m sc) (s : State) : exec (.vsqrt f vd va m sc) s = execVsqrt f vd va m sc s := rfl
@[simp] theorem exec_vminFp (f vd va vb m sc) (s : State) : exec (.vminFp f vd va vb m sc) s = execVminFp f vd va vb m sc s := rfl
@[simp] theorem exec_vmaxFp (f vd va vb m sc) (s : State) : exec (.vmaxFp f vd va vb m sc) s = execVmaxFp f vd va vb m sc s := rfl
@[simp] theorem exec_vabsFp (f vd va m sc) (s : State) : exec (.vabsFp f vd va m sc) s = execVabsFp f vd va m sc s := rfl
@[simp] theorem exec_vnegFp (f vd va m sc) (s : State) : exec (.vnegFp f vd va m sc) s = execVnegFp f vd va m sc s := rfl
@[simp] theorem exec_vcmpeqFp (f md va vb m sc) (s : State) : exec (.vcmpeqFp f md va vb m sc) s = execVcmpeqFp f md va vb m sc s := rfl
@[simp] theorem exec_vcmpltFp (f md va vb m sc) (s : State) : exec (.vcmpltFp f md va vb m sc) s = execVcmpltFp f md va vb m sc s := rfl
@[simp] theorem exec_vcmple (f md va vb m sc) (s : State) : exec (.vcmple f md va vb m sc) s = execVcmple f md va vb m sc s := rfl
@[simp] theorem exec_vredsumFp (f vd va m sc) (s : State) : exec (.vredsumFp f vd va m sc) s = execVredsumFp f vd va m sc s := rfl
@[simp] theorem exec_vredmin (f vd va m sc) (s : State) : exec (.vredmin f vd va m sc) s = execVredmin f vd va m sc s := rfl
@[simp] theorem exec_vredmax (f vd va m sc) (s : State) : exec (.vredmax f vd va m sc) s = execVredmax f vd va m sc s := rfl
@[simp] theorem exec_vaddInt (sz vd va vb m sc) (s : State) : exec (.vaddInt sz vd va vb m sc) s = execVaddInt sz vd va vb m sc s := rfl
@[simp] theorem exec_vsubInt (sz vd va vb m sc) (s : State) : exec (.vsubInt sz vd va vb m sc) s = execVsubInt sz vd va vb m sc s := rfl
@[simp] theorem exec_vmulInt (sz vd va vb m sc) (s : State) : exec (.vmulInt sz vd va vb m sc) s = execVmulInt sz vd va vb m sc s := rfl
@[simp] theorem exec_vminInt (sz vd va vb m sc) (s : State) : exec (.vminInt sz vd va vb m sc) s = execVminInt sz vd va vb m sc s := rfl
@[simp] theorem exec_vmaxInt (sz vd va vb m sc) (s : State) : exec (.vmaxInt sz vd va vb m sc) s = execVmaxInt sz vd va vb m sc s := rfl
@[simp] theorem exec_vminu (sz vd va vb m sc) (s : State) : exec (.vminu sz vd va vb m sc) s = execVminu sz vd va vb m sc s := rfl
@[simp] theorem exec_vmaxu (sz vd va vb m sc) (s : State) : exec (.vmaxu sz vd va vb m sc) s = execVmaxu sz vd va vb m sc s := rfl
@[simp] theorem exec_vand (sz vd va vb m sc) (s : State) : exec (.vand sz vd va vb m sc) s = execVand sz vd va vb m sc s := rfl
@[simp] theorem exec_vor (sz vd va vb m sc) (s : State) : exec (.vor sz vd va vb m sc) s = execVor sz vd va vb m sc s := rfl
@[simp] theorem exec_vxor (sz vd va vb m sc) (s : State) : exec (.vxor sz vd va vb m sc) s = execVxor sz vd va vb m sc s := rfl
@[simp] theorem exec_vsll (sz vd va vb m sc) (s : State) : exec (.vsll sz vd va vb m sc) s = execVsll sz vd va vb m sc s := rfl
@[simp] theorem exec_vsrl (sz vd va vb m sc) (s : State) : exec (.vsrl sz vd va vb m sc) s = execVsrl sz vd va vb m sc s := rfl
@[simp] theorem exec_vsra (sz vd va vb m sc) (s : State) : exec (.vsra sz vd va vb m sc) s = execVsra sz vd va vb m sc s := rfl
@[simp] theorem exec_vcmpeqInt (sz md va vb m sc) (s : State) : exec (.vcmpeqInt sz md va vb m sc) s = execVcmpeqInt sz md va vb m sc s := rfl
@[simp] theorem exec_vcmpltInt (sz md va vb m sc) (s : State) : exec (.vcmpltInt sz md va vb m sc) s = execVcmpltInt sz md va vb m sc s := rfl
@[simp] theorem exec_vcmpltu (sz md va vb m sc) (s : State) : exec (.vcmpltu sz md va vb m sc) s = execVcmpltu sz md va vb m sc s := rfl
@[simp] theorem exec_vredsumInt (sz vd va m sc) (s : State) : exec (.vredsumInt sz vd va m sc) s = execVredsumInt sz vd va m sc s := rfl
@[simp] theorem exec_vabsInt (sz vd va m sc) (s : State) : exec (.vabsInt sz vd va m sc) s = execVabsInt sz vd va m sc s := rfl
@[simp] theorem exec_vnegInt (sz vd va m sc) (s : State) : exec (.vnegInt sz vd va m sc) s = execVnegInt sz vd va m sc s := rfl
@[simp] theorem exec_vcvt (src dst part sat vd va m sc) (s : State) : exec (.vcvt src dst part sat vd va m sc) s = execVcvt src dst part sat vd va m sc s := rfl
@[simp] theorem exec_vshufD (vd va vb m sc) (s : State) : exec (.vshufD vd va vb m sc) s = execVshufD vd va vb m sc s := rfl
@[simp] theorem exec_vshufW (vd va vb m sc) (s : State) : exec (.vshufW vd va vb m sc) s = execVshufW vd va vb m sc s := rfl
@[simp] theorem exec_vshufB (vd va vb m sc) (s : State) : exec (.vshufB vd va vb m sc) s = execVshufB vd va vb m sc s := rfl
@[simp] theorem exec_vselD (vd va vb m sc) (s : State) : exec (.vselD vd va vb m sc) s = execVselD vd va vb m sc s := rfl
@[simp] theorem exec_vselW (vd va vb m sc) (s : State) : exec (.vselW vd va vb m sc) s = execVselW vd va vb m sc s := rfl
@[simp] theorem exec_vbcastD (vd ws m sc) (s : State) : exec (.vbcastD vd ws m sc) s = execVbcastD vd ws m sc s := rfl
@[simp] theorem exec_vbcastW (vd ws m sc) (s : State) : exec (.vbcastW vd ws m sc) s = execVbcastW vd ws m sc s := rfl
@[simp] theorem exec_vextD (ws va k sc) (s : State) : exec (.vextD ws va k sc) s = execVextD ws va k sc s := rfl
@[simp] theorem exec_vextW (ws va k sc) (s : State) : exec (.vextW ws va k sc) s = execVextW ws va k sc s := rfl
@[simp] theorem exec_vinsD (vd ws k sc) (s : State) : exec (.vinsD vd ws k sc) s = execVinsD vd ws k sc s := rfl
@[simp] theorem exec_vinsW (vd ws k sc) (s : State) : exec (.vinsW vd ws k sc) s = execVinsW vd ws k sc s := rfl
@[simp] theorem exec_vmand (md ma mb sc) (s : State) : exec (.vmand md ma mb sc) s = execVmand md ma mb sc s := rfl
@[simp] theorem exec_vmor (md ma mb sc) (s : State) : exec (.vmor md ma mb sc) s = execVmor md ma mb sc s := rfl
@[simp] theorem exec_vmxor (md ma mb sc) (s : State) : exec (.vmxor md ma mb sc) s = execVmxor md ma mb sc s := rfl
@[simp] theorem exec_vmnot (md ma sc) (s : State) : exec (.vmnot md ma sc) s = execVmnot md ma sc s := rfl
@[simp] theorem exec_vmput (md ws sc) (s : State) : exec (.vmput md ws sc) s = execVmput md ws sc s := rfl
@[simp] theorem exec_vmget (ws ma sc) (s : State) : exec (.vmget ws ma sc) s = execVmget ws ma sc s := rfl
@[simp] theorem exec_vmov (vd va m sc) (s : State) : exec (.vmov vd va m sc) s = execVmov vd va m sc s := rfl
@[simp] theorem exec_vld (vd ws sc) (s : State) : exec (.vld vd ws sc) s = execVld vd ws sc s := rfl
@[simp] theorem exec_vstD (vd ws m sc) (s : State) : exec (.vstD vd ws m sc) s = execVstD vd ws m sc s := rfl
@[simp] theorem exec_vstW (vd ws m sc) (s : State) : exec (.vstW vd ws m sc) s = execVstW vd ws m sc s := rfl
@[simp] theorem exec_vstB (vd ws m sc) (s : State) : exec (.vstB vd ws m sc) s = execVstB vd ws m sc s := rfl
@[simp] theorem exec_mlease (e sc) (s : State) : exec (.mlease e sc) s = execMlease e sc s := rfl
@[simp] theorem exec_mrel (e sc) (s : State) : exec (.mrel e sc) s = execMrel e sc s := rfl
@[simp] theorem exec_mfmt (e a b set sc) (s : State) : exec (.mfmt e a b set sc) s = execMfmt e a b set sc s := rfl
@[simp] theorem exec_mgeo (e a set sc) (s : State) : exec (.mgeo e a set sc) s = execMgeo e a set sc s := rfl
@[simp] theorem exec_mloadw (e a b set sc) (s : State) : exec (.mloadw e a b set sc) s = execMloadw e a b set sc s := rfl
@[simp] theorem exec_mswap (e sc) (s : State) : exec (.mswap e sc) s = execMswap e sc s := rfl
@[simp] theorem exec_mstream (e a b src sc) (s : State) : exec (.mstream e a b src sc) s = execMstream e a b src sc s := rfl
@[simp] theorem exec_mdrain (e sc) (s : State) : exec (.mdrain e sc) s = execMdrain e sc s := rfl
@[simp] theorem exec_gather (e a b src sc) (s : State) : exec (.gather e a b src sc) s = execGather e a b src sc s := rfl
@[simp] theorem exec_scatter (e a b src sc) (s : State) : exec (.scatter e a b src sc) s = execScatter e a b src sc s := rfl
@[simp] theorem exec_scatterAdd (e a b src sc) (s : State) : exec (.scatterAdd e a b src sc) s = execScatterAdd e a b src sc s := rfl
@[simp] theorem exec_hset (a h sc) (s : State) : exec (.hset a h sc) s = execHset a h sc s := rfl
@[simp] theorem exec_hget (a h sc) (s : State) : exec (.hget a h sc) s = execHget a h sc s := rfl
@[simp] theorem exec_hld (e a b h sc) (s : State) : exec (.hld e a b h sc) s = execHld e a b h sc s := rfl
@[simp] theorem exec_hst (e a b h sc) (s : State) : exec (.hst e a b h sc) s = execHst e a b h sc s := rfl
@[simp] theorem exec_cpy (e a b set sc) (s : State) : exec (.cpy e a b set sc) s = execCpy e a b set sc s := rfl
@[simp] theorem exec_cpy2 (e a b set sc) (s : State) : exec (.cpy2 e a b set sc) s = execCpy2 e a b set sc s := rfl
@[simp] theorem exec_cpy3 (e a b set sc) (s : State) : exec (.cpy3 e a b set sc) s = execCpy3 e a b set sc s := rfl
@[simp] theorem exec_fwait (e sc) (s : State) : exec (.fwait e sc) s = execFwait e sc s := rfl
@[simp] theorem exec_ftest (e a sc) (s : State) : exec (.ftest e a sc) s = execFtest e a sc s := rfl
@[simp] theorem exec_fcancel (e sc) (s : State) : exec (.fcancel e sc) s = execFcancel e sc s := rfl
@[simp] theorem exec_fpassRead (e a sc) (s : State) : exec (.fpassRead e a sc) s = execFpassRead e a sc s := rfl
@[simp] theorem exec_fpassWrite (e a sc) (s : State) : exec (.fpassWrite e a sc) s = execFpassWrite e a sc s := rfl
@[simp] theorem exec_spmap (e a b sc) (s : State) : exec (.spmap e a b sc) s = execSpmap e a b sc s := rfl
@[simp] theorem exec_spfree (e a b sc) (s : State) : exec (.spfree e a b sc) s = execSpfree e a b sc s := rfl
@[simp] theorem exec_sppin (e a b sc) (s : State) : exec (.sppin e a b sc) s = execSppin e a b sc s := rfl
@[simp] theorem exec_spmig (e a sc) (s : State) : exec (.spmig e a sc) s = execSpmig e a sc s := rfl
@[simp] theorem exec_spflush (e a b sc) (s : State) : exec (.spflush e a b sc) s = execSpflush e a b sc s := rfl
@[simp] theorem exec_sbind (port a b sc) (s : State) : exec (.sbind port a b sc) s = execSbind port a b sc s := rfl
@[simp] theorem exec_sfree (port sc) (s : State) : exec (.sfree port sc) s = execSfree port sc s := rfl
@[simp] theorem exec_qbind (a sc) (s : State) : exec (.qbind a sc) s = execQbind a sc s := rfl
@[simp] theorem exec_fence (scope sc) (s : State) : exec (.fence scope sc) s = execFence scope sc s := rfl
@[simp] theorem exec_fenceX (scope sc) (s : State) : exec (.fenceX scope sc) s = execFenceX scope sc s := rfl
@[simp] theorem exec_bar (scope a sc) (s : State) : exec (.bar scope a sc) s = execBar scope a sc s := rfl
@[simp] theorem exec_barjoin (scope a sc) (s : State) : exec (.barjoin scope a sc) s = execBarjoin scope a sc s := rfl
@[simp] theorem exec_barleave (scope a sc) (s : State) : exec (.barleave scope a sc) s = execBarleave scope a sc s := rfl
@[simp] theorem exec_wait (scope a b sc) (s : State) : exec (.wait scope a b sc) s = execWait scope a b sc s := rfl
@[simp] theorem exec_publish (scope a sc) (s : State) : exec (.publish scope a sc) s = execPublish scope a sc s := rfl
@[simp] theorem exec_csrr (d csr sc) (s : State) : exec (.csrr d csr sc) s = execCsrr d csr sc s := rfl
@[simp] theorem exec_csrw (csr a sc) (s : State) : exec (.csrw csr a sc) s = execCsrw csr a sc s := rfl
@[simp] theorem exec_csrs (csr a sc) (s : State) : exec (.csrs csr a sc) s = execCsrs csr a sc s := rfl
@[simp] theorem exec_csrc (csr a sc) (s : State) : exec (.csrc csr a sc) s = execCsrc csr a sc s := rfl
@[simp] theorem exec_nop (sc) (s : State) : exec (.nop sc) s = execNop sc s := rfl
@[simp] theorem exec_eret (sc) (s : State) : exec (.eret sc) s = execEret sc s := rfl
@[simp] theorem exec_trap (a sc) (s : State) : exec (.trap a sc) s = execTrap a sc s := rfl
@[simp] theorem exec_wpsw (d a sc) (s : State) : exec (.wpsw d a sc) s = execWpsw d a sc s := rfl
@[simp] theorem exec_sleep (sc) (s : State) : exec (.sleep sc) s = execSleep sc s := rfl
@[simp] theorem exec_brk (sc) (s : State) : exec (.brk sc) s = execBrk sc s := rfl
@[simp] theorem exec_systemTrapEnter (tile) (s : State) : exec (.systemTrapEnter tile) s = execSystemTrapEnter tile s := rfl
@[simp] theorem exec_resultArrive (uid reg) (s : State) : exec (.resultArrive uid reg) s = execResultArrive uid reg s := rfl
@[simp] theorem exec_fwdDepositLand (tile slot val) (s : State) : exec (.fwdDepositLand tile slot val) s = execFwdDepositLand tile slot val s := rfl
@[simp] theorem exec_queueDwordLand (tile dir val lq) (s : State) : exec (.queueDwordLand tile dir val lq) s = execQueueDwordLand tile dir val lq s := rfl
@[simp] theorem exec_streamElementArrive (tile slot port) (s : State) : exec (.streamElementArrive tile slot port) s = execStreamElementArrive tile slot port s := rfl
@[simp] theorem exec_workspaceMoveDone (tile slot) (s : State) : exec (.workspaceMoveDone tile slot) s = execWorkspaceMoveDone tile slot s := rfl
@[simp] theorem exec_taskDispatch (tile) (s : State) : exec (.taskDispatch tile) s = execTaskDispatch tile s := rfl
@[simp] theorem exec_taskRecordArrive (tile rec_) (s : State) : exec (.taskRecordArrive tile rec_) s = execTaskRecordArrive tile rec_ s := rfl
@[simp] theorem exec_inboundRecordAdmit (tile) (s : State) : exec (.inboundRecordAdmit tile) s = execInboundRecordAdmit tile s := rfl
@[simp] theorem exec_spillReplay (tile) (s : State) : exec (.spillReplay tile) s = execSpillReplay tile s := rfl
@[simp] theorem exec_balance (tile) (s : State) : exec (.balance tile) s = execBalance tile s := rfl
@[simp] theorem exec_sluiceSample (s : State) : exec .sluiceSample s = execSluiceSample s := rfl
@[simp] theorem exec_sluiceBroadcast (round tile) (s : State) : exec (.sluiceBroadcast round tile) s = execSluiceBroadcast round tile s := rfl
@[simp] theorem exec_budgetPeriod (s : State) : exec .budgetPeriod s = execBudgetPeriod s := rfl
@[simp] theorem exec_wispRepair (uid) (s : State) : exec (.wispRepair uid) s = execWispRepair uid s := rfl
@[simp] theorem exec_pageInDone (blk page) (s : State) : exec (.pageInDone blk page) s = execPageInDone blk page s := rfl
@[simp] theorem exec_pagePullDone (blk page) (s : State) : exec (.pagePullDone blk page) s = execPagePullDone blk page s := rfl
@[simp] theorem exec_blockMove (blk) (s : State) : exec (.blockMove blk) s = execBlockMove blk s := rfl
@[simp] theorem exec_ticketRegister (tile entry) (s : State) : exec (.ticketRegister tile entry) s = execTicketRegister tile entry s := rfl
@[simp] theorem exec_commandComplete (tile entry) (s : State) : exec (.commandComplete tile entry) s = execCommandComplete tile entry s := rfl
@[simp] theorem exec_promiseDue (tile slot) (s : State) : exec (.promiseDue tile slot) s = execPromiseDue tile slot s := rfl
@[simp] theorem exec_leaseGrant (cluster) (s : State) : exec (.leaseGrant cluster) s = execLeaseGrant cluster s := rfl
@[simp] theorem exec_leaseRearbitrate (cluster) (s : State) : exec (.leaseRearbitrate cluster) s = execLeaseRearbitrate cluster s := rfl
@[simp] theorem exec_sliceExpiry (tile slot) (s : State) : exec (.sliceExpiry tile slot) s = execSliceExpiry tile slot s := rfl
@[simp] theorem exec_preempt (tile slot) (s : State) : exec (.preempt tile slot) s = execPreempt tile slot s := rfl
@[simp] theorem exec_tilePowerGate (tile) (s : State) : exec (.tilePowerGate tile) s = execTilePowerGate tile s := rfl
@[simp] theorem exec_tileWake (tile) (s : State) : exec (.tileWake tile) s = execTileWake tile s := rfl
@[simp] theorem exec_powerInterval (reports) (s : State) : exec (.powerInterval reports) s = execPowerInterval reports s := rfl
@[simp] theorem exec_lqctlMap (q) (s : State) : exec (.lqctlMap q) s = execLqctlMap q s := rfl
@[simp] theorem exec_lqctlUnmap (q) (s : State) : exec (.lqctlUnmap q) s = execLqctlUnmap q s := rfl
@[simp] theorem exec_lqnotify (q tail) (s : State) : exec (.lqnotify q tail) s = execLqnotify q tail s := rfl
@[simp] theorem exec_launchStart (q) (s : State) : exec (.launchStart q) s = execLaunchStart q s := rfl
@[simp] theorem exec_hfgo (s : State) : exec .hfgo s = execHfgo s := rfl
@[simp] theorem exec_hostFenceDone (s : State) : exec .hostFenceDone s = execHostFenceDone s := rfl
@[simp] theorem exec_xinvc (die value) (s : State) : exec (.xinvc die value) s = execXinvc die value s := rfl
@[simp] theorem exec_xinvDone (die) (s : State) : exec (.xinvDone die) s = execXinvDone die s := rfl
@[simp] theorem exec_atreqGo (s : State) : exec .atreqGo s = execAtreqGo s := rfl
@[simp] theorem exec_attestDone (s : State) : exec .attestDone s = execAttestDone s := rfl
@[simp] theorem exec_spcfgApply (tile) (s : State) : exec (.spcfgApply tile) s = execSpcfgApply tile s := rfl
@[simp] theorem exec_registerWrite (off value) (s : State) : exec (.registerWrite off value) s = execRegisterWrite off value s := rfl
@[simp] theorem exec_hostRead (bar off width) (s : State) : exec (.hostRead bar off width) s = execHostRead bar off width s := rfl
@[simp] theorem exec_hostWrite (bar off data) (s : State) : exec (.hostWrite bar off data) s = execHostWrite bar off data s := rfl
@[simp] theorem exec_hostAtomicop (bar op off width value cmp) (s : State) : exec (.hostAtomicop bar op off width value cmp) s = execHostAtomicop bar op off width value cmp s := rfl
@[simp] theorem exec_cxlMemAccess (pa width data) (s : State) : exec (.cxlMemAccess pa width data) s = execCxlMemAccess pa width data s := rfl
@[simp] theorem exec_cxlSnoop (line excl) (s : State) : exec (.cxlSnoop line excl) s = execCxlSnoop line excl s := rfl
@[simp] theorem exec_atomicopCompletion (req status old) (s : State) : exec (.atomicopCompletion req status old) s = execAtomicopCompletion req status old s := rfl
@[simp] theorem exec_reads (die line) (s : State) : exec (.reads die line) s = execReads die line s := rfl
@[simp] theorem exec_readx (die line) (s : State) : exec (.readx die line) s = execReadx die line s := rfl
@[simp] theorem exec_upgrade (die line) (s : State) : exec (.upgrade die line) s = execUpgrade die line s := rfl
@[simp] theorem exec_writeback (die line) (s : State) : exec (.writeback die line) s = execWriteback die line s := rfl
@[simp] theorem exec_fwddata (die line) (s : State) : exec (.fwddata die line) s = execFwddata die line s := rfl
@[simp] theorem exec_fwdnone (die line) (s : State) : exec (.fwdnone die line) s = execFwdnone die line s := rfl
@[simp] theorem exec_invack (die line) (s : State) : exec (.invack die line) s = execInvack die line s := rfl
@[simp] theorem exec_dataS (die line) (s : State) : exec (.dataS die line) s = execDataS die line s := rfl
@[simp] theorem exec_dataE (die line) (s : State) : exec (.dataE die line) s = execDataE die line s := rfl
@[simp] theorem exec_dataM (die line) (s : State) : exec (.dataM die line) s = execDataM die line s := rfl
@[simp] theorem exec_upgack (die line) (s : State) : exec (.upgack die line) s = execUpgack die line s := rfl
@[simp] theorem exec_inv (die line) (s : State) : exec (.inv die line) s = execInv die line s := rfl
@[simp] theorem exec_fwds (die line) (s : State) : exec (.fwds die line) s = execFwds die line s := rfl
@[simp] theorem exec_fwdx (die line) (s : State) : exec (.fwdx die line) s = execFwdx die line s := rfl
@[simp] theorem exec_wback (die line) (s : State) : exec (.wback die line) s = execWback die line s := rfl
@[simp] theorem exec_invRetryTimeout (line) (s : State) : exec (.invRetryTimeout line) s = execInvRetryTimeout line s := rfl
@[simp] theorem exec_causewayTimeout (req) (s : State) : exec (.causewayTimeout req) s = execCausewayTimeout req s := rfl
@[simp] theorem exec_remoteSpawnArrive (node asid rec_) (s : State) : exec (.remoteSpawnArrive node asid rec_) s = execRemoteSpawnArrive node asid rec_ s := rfl
@[simp] theorem exec_remoteSpawnAck (lq) (s : State) : exec (.remoteSpawnAck lq) s = execRemoteSpawnAck lq s := rfl
@[simp] theorem exec_remoteSpawnRefuse (lq node) (s : State) : exec (.remoteSpawnRefuse lq node) s = execRemoteSpawnRefuse lq node s := rfl
@[simp] theorem exec_powerOnReset (s : State) : exec .powerOnReset s = execPowerOnReset s := rfl
@[simp] theorem exec_packageReset (s : State) : exec .packageReset s = execPackageReset s := rfl
@[simp] theorem exec_fullServiceStart (s : State) : exec .fullServiceStart s = execFullServiceStart s := rfl
@[simp] theorem exec_tileRetire (tile) (s : State) : exec (.tileRetire tile) s = execTileRetire tile s := rfl
@[simp] theorem exec_bridgeFailure (bd0 bd1) (s : State) : exec (.bridgeFailure bd0 bd1) s = execBridgeFailure bd0 bd1 s := rfl
@[simp] theorem exec_tcsUncorrectable (tile slot) (s : State) : exec (.tcsUncorrectable tile slot) s = execTcsUncorrectable tile slot s := rfl
@[simp] theorem exec_hbmUncorrectable (line) (s : State) : exec (.hbmUncorrectable line) s = execHbmUncorrectable line s := rfl
@[simp] theorem exec_l2Uncorrectable (die line) (s : State) : exec (.l2Uncorrectable die line) s = execL2Uncorrectable die line s := rfl
@[simp] theorem exec_l1Uncorrectable (tile asid vline) (s : State) : exec (.l1Uncorrectable tile asid vline) s = execL1Uncorrectable tile asid vline s := rfl
@[simp] theorem exec_frameUncorrectable (tile frame) (s : State) : exec (.frameUncorrectable tile frame) s = execFrameUncorrectable tile frame s := rfl
@[simp] theorem exec_remoteAccessArrive (node pa op) (s : State) : exec (.remoteAccessArrive node pa op) s = execRemoteAccessArrive node pa op s := rfl
@[simp] theorem exec_dieLinkFailure (bd0 bd1) (s : State) : exec (.dieLinkFailure bd0 bd1) s = execDieLinkFailure bd0 bd1 s := rfl
@[simp] theorem exec_storeAcknowledge (id) (s : State) : exec (.storeAcknowledge id) s = execStoreAcknowledge id s := rfl
@[simp] theorem exec_publishComplete (tile slot) (s : State) : exec (.publishComplete tile slot) s = execPublishComplete tile slot s := rfl
@[simp] theorem exec_crdeclInForce (lq base) (s : State) : exec (.crdeclInForce lq base) s = execCrdeclInForce lq base s := rfl
@[simp] theorem exec_cxlOperationChange (on) (s : State) : exec (.cxlOperationChange on) s = execCxlOperationChange on s := rfl

end Sys2Proof.Machine
end

