-- ==== Sys2Proof/Laws/Maps.lean ====
section
/-!
SUPPORT. Finite maps: reading after a write, writing twice, and what a write leaves alone.
-/
namespace Sys2Proof.Machine.AMap
variable {α : Type}

@[simp] theorem get?_set_self (m : AMap α) (k : Nat) (a : α) : get? (set m k a) k = some a := by
  induction m with
  | nil => simp [set, get?]
  | cons e m ih =>
    obtain ⟨x, v⟩ := e
    simp only [set]
    split
    · simp [get?]
    · split
      · simp [get?]
      · rename_i h; simp [get?, ih, h]

theorem get?_set_ne (m : AMap α) {j k : Nat} (a : α) (h : j ≠ k) : get? (set m k a) j = get? m j := by
  induction m with
  | nil => simp [set, get?]; omega
  | cons e m ih =>
    obtain ⟨x, v⟩ := e
    simp only [set]
    split
    · simp only [get?]; split <;> rename_i h' <;> first | rfl | (simp at h'; omega)
    · split
      · rename_i h1 h2
        simp only [beq_iff_eq] at h2; subst h2
        simp [get?, h]
      · simp only [get?, ih]

@[simp] theorem set_set (m : AMap α) (k : Nat) (a b : α) : set (set m k a) k b = set m k b := by
  induction m with
  | nil => simp [set]
  | cons e m ih =>
    obtain ⟨x, v⟩ := e
    simp only [set]
    split
    · simp [set]
    · split
      · simp [set]
      · rename_i h1 h2; simp [set, ih, h1, h2]

theorem get?_erase_ne (m : AMap α) {j k : Nat} (h : j ≠ k) : get? (erase m k) j = get? m j := by
  induction m with
  | nil => rfl
  | cons e m ih =>
    obtain ⟨x, v⟩ := e
    simp only [erase]
    split
    · rename_i h2; simp only [beq_iff_eq] at h2; subst h2
      simp [get?, h]
    · simp only [get?, ih]

end Sys2Proof.Machine.AMap
end

