-- ==== Sys2Proof/Laws/Memory.lean ====
section
/-!
SUPPORT. Byte memories: every operation keeps the canonical form, and reading after writing.
-/
namespace Sys2Proof.Machine.Cells

/-- Every address of the list is above x. -/
def Above (x : Nat) : List Host.Cell → Prop
  | [] => True
  | e :: _ => x < e.1

theorem wf_cons (k : Nat) (b : Byte) (m : List Host.Cell) :
    wf ((k, b) :: m) = true ↔ b ≠ 0 ∧ Above k m ∧ wf m = true := by
  cases m <;> simp [wf, Above, and_assoc]

theorem above_write {k x : Nat} (m : List Host.Cell) (b : Byte) (h : Above k m) (hw : wf m = true) (hx : k < x) :
    Above k (write m x b) := by
  cases m with
  | nil => simp only [write]; split <;> simp [Above, hx]
  | cons e m =>
    obtain ⟨y, c⟩ := e
    have hy : k < y := h
    have hm := (wf_cons y c m).1 hw
    simp only [write]
    repeat' split
    all_goals first
      | exact hy
      | exact hx
      | (have := hm.2.1; cases m <;> simp_all [Above]; omega)

theorem wf_write (m : List Host.Cell) (x : Nat) (b : Byte) (h : wf m = true) : wf (write m x b) = true := by
  induction m with
  | nil => simp only [write]; split <;> simp_all [wf]
  | cons e m ih =>
    obtain ⟨y, c⟩ := e
    have hm := (wf_cons y c m).1 h
    simp only [write]
    split
    · split
      · exact h
      · rename_i h1 h2; exact (wf_cons ..).2 ⟨by simpa using h2, h1, h⟩
    · split
      · rename_i h1 h2
        split
        · exact hm.2.2
        · rename_i h3
          simp only [beq_iff_eq] at h2; subst h2
          exact (wf_cons ..).2 ⟨by simpa using h3, hm.2⟩
      · rename_i h1 h2
        simp only [beq_iff_eq] at h2
        exact (wf_cons ..).2 ⟨hm.1, above_write m b hm.2.1 hm.2.2 (by omega), ih hm.2.2⟩

theorem wf_writeN (bs : List Byte) : ∀ (m : List Host.Cell) (x : Nat), wf m = true → wf (writeN m x bs) = true := by
  induction bs with
  | nil => intro m x h; exact h
  | cons b bs ih => intro m x h; exact ih _ _ (wf_write m x b h)

theorem wf_writeCells (cs : List Host.Cell) : ∀ m, wf m = true → wf (writeCells m cs) = true := by
  induction cs with
  | nil => intro m h; exact h
  | cons e cs ih => intro m h; exact ih _ (wf_write m e.1 e.2 h)

theorem above_mono {j k : Nat} {m : List Host.Cell} (h : Above k m) (hj : j < k) : Above j m := by
  cases m with
  | nil => trivial
  | cons e m => exact Nat.lt_trans hj h

theorem above_filter {k : Nat} (p : Host.Cell → Bool) (m : List Host.Cell) (hw : wf m = true) (h : Above k m) :
    Above k (m.filter p) := by
  induction m with
  | nil => trivial
  | cons e m ih =>
    obtain ⟨y, c⟩ := e
    have hm := (wf_cons y c m).1 hw
    simp only [List.filter]
    split
    · exact h
    · exact ih hm.2.2 (above_mono hm.2.1 h)

theorem wf_filter (p : Host.Cell → Bool) (m : List Host.Cell) (h : wf m = true) : wf (m.filter p) = true := by
  induction m with
  | nil => exact h
  | cons e m ih =>
    obtain ⟨y, c⟩ := e
    have hm := (wf_cons y c m).1 h
    simp only [List.filter]
    split
    · exact (wf_cons ..).2 ⟨hm.1, above_filter p m hm.2.2 hm.2.1, ih hm.2.2⟩
    · exact ih hm.2.2

theorem wf_clear (m : List Host.Cell) (lo n : Nat) (h : wf m = true) : wf (clear m lo n) = true := wf_filter _ m h

/-- An address below every listed one reads as zero. -/
theorem read_below {x : Nat} {m : List Host.Cell} (h : Above x m) : read m x = 0 := by
  cases m with
  | nil => rfl
  | cons e m => obtain ⟨y, c⟩ := e; have : x < y := h; simp only [read, beq_iff_eq]; rw [if_neg (by omega), if_pos this]

theorem read_write_self (m : List Host.Cell) (x : Nat) (b : Byte) (h : wf m = true) : read (write m x b) x = b := by
  induction m with
  | nil => simp only [write]; split <;> simp_all [read]
  | cons e m ih =>
    obtain ⟨y, c⟩ := e
    have hm := (wf_cons y c m).1 h
    simp only [write]
    split
    · rename_i h1
      split
      · rename_i h2; simp only [beq_iff_eq] at h2; subst h2; exact read_below (m := (y, c) :: m) h1
      · simp [read]
    · split
      · rename_i h1 h2
        simp only [beq_iff_eq] at h2; subst h2
        split
        · rename_i h3; simp only [beq_iff_eq] at h3; subst h3; exact read_below hm.2.1
        · simp [read]
      · rename_i h1 h2
        simp only [beq_iff_eq] at h2
        simp only [read, beq_iff_eq]
        rw [if_neg (by omega), if_neg h1]
        exact ih hm.2.2

theorem read_write_ne (m : List Host.Cell) {x y : Nat} (b : Byte) (h : wf m = true) (hne : y ≠ x) :
    read (write m x b) y = read m y := by
  induction m with
  | nil => simp only [write]; split <;> simp [read]; intro h'; omega
  | cons e m ih =>
    obtain ⟨z, c⟩ := e
    have hm := (wf_cons z c m).1 h
    simp only [write]
    split
    · rename_i h1
      split
      · rfl
      · simp only [read, beq_iff_eq]
        repeat' split
        all_goals first | rfl | omega
    · split
      · rename_i h1 h2
        simp only [beq_iff_eq] at h2; subst h2
        split
        · simp only [read, beq_iff_eq]
          rw [if_neg (by omega)]
          split
          · exact read_below (above_mono hm.2.1 (by assumption))
          · rfl
        · simp only [read, beq_iff_eq]
          simp only [if_neg hne]
      · simp only [read]; rw [ih hm.2.2]

/-- Writing bytes leaves every other address alone. -/
theorem read_writeN_out (bs : List Byte) : ∀ (m : List Host.Cell) (x y : Nat), wf m = true →
    y < x ∨ x + bs.length ≤ y → read (writeN m x bs) y = read m y := by
  induction bs with
  | nil => intro m x y _ _; rfl
  | cons b bs ih =>
    intro m x y h hy
    simp only [List.length_cons] at hy
    simp only [writeN]
    rw [ih _ _ _ (wf_write m x b h) (by omega), read_write_ne m b h (by omega)]

/-- Writing bytes puts each at its address. -/
theorem read_writeN_in (bs : List Byte) : ∀ (m : List Host.Cell) (x i : Nat), wf m = true → (hi : i < bs.length) →
    read (writeN m x bs) (x + i) = bs[i] := by
  induction bs with
  | nil => intro m x i _ hi; exact absurd hi (by simp)
  | cons b bs ih =>
    intro m x i h hi
    simp only [writeN]
    cases i with
    | zero => rw [read_writeN_out bs _ _ _ (wf_write m x b h) (by omega)]; exact read_write_self m x b h
    | succ i =>
      rw [show x + (i + 1) = x + 1 + i by omega, ih _ _ i (wf_write m x b h) (by simpa using hi)]
      rfl

theorem readN_writeN (bs : List Byte) : ∀ (m : List Host.Cell) (x : Nat), wf m = true →
    readN (writeN m x bs) x bs.length = bs := by
  induction bs with
  | nil => intro m x _; rfl
  | cons b bs ih =>
    intro m x h
    simp only [writeN, List.length_cons, readN]
    rw [read_writeN_out bs _ _ _ (wf_write m x b h) (by omega), read_write_self m x b h, ih _ _ (wf_write m x b h)]

theorem readN_writeN_out (m : List Host.Cell) (x : Nat) (bs : List Byte) (h : wf m = true) : ∀ (n y : Nat),
    y + n ≤ x ∨ x + bs.length ≤ y → readN (writeN m x bs) y n = readN m y n := by
  intro n
  induction n with
  | zero => intro y _; rfl
  | succ n ih =>
    intro y hy
    simp only [readN]
    rw [read_writeN_out bs m x y h (by omega), ih (y + 1) (by omega)]

end Sys2Proof.Machine.Cells
end

