-- ==== Sys2Proof/Laws/State.lean ====
section
/-!
SUPPORT. One lemma per field for each update of State: what the update writes, and that it writes nothing else.
-/
namespace Sys2Proof.Machine.State

@[simp] theorem setCtx_cycle (s : State) (k : Nat) (c : Ctx) : (s.setCtx k c).cycle = s.cycle := rfl
@[simp] theorem setCtx_node (s : State) (k : Nat) (c : Ctx) : (s.setCtx k c).node = s.node := rfl
@[simp] theorem setCtx_retired (s : State) (k : Nat) (c : Ctx) : (s.setCtx k c).retired = s.retired := rfl
@[simp] theorem setCtx_full (s : State) (k : Nat) (c : Ctx) : (s.setCtx k c).full = s.full := rfl
@[simp] theorem setCtx_fwRun (s : State) (k : Nat) (c : Ctx) : (s.setCtx k c).fwRun = s.fwRun := rfl
@[simp] theorem setCtx_atdone (s : State) (k : Nat) (c : Ctx) : (s.setCtx k c).atdone = s.atdone := rfl
@[simp] theorem setCtx_asidrtBase (s : State) (k : Nat) (c : Ctx) : (s.setCtx k c).asidrtBase = s.asidrtBase := rfl
@[simp] theorem setCtx_asidrtEn (s : State) (k : Nat) (c : Ctx) : (s.setCtx k c).asidrtEn = s.asidrtEn := rfl
@[simp] theorem setCtx_cwBase (s : State) (k : Nat) (c : Ctx) : (s.setCtx k c).cwBase = s.cwBase := rfl
@[simp] theorem setCtx_cwEn (s : State) (k : Nat) (c : Ctx) : (s.setCtx k c).cwEn = s.cwEn := rfl
@[simp] theorem setCtx_pctlMode (s : State) (k : Nat) (c : Ctx) : (s.setCtx k c).pctlMode = s.pctlMode := rfl
@[simp] theorem setCtx_pctlBudget (s : State) (k : Nat) (c : Ctx) : (s.setCtx k c).pctlBudget = s.pctlBudget := rfl
@[simp] theorem setCtx_modeNow (s : State) (k : Nat) (c : Ctx) : (s.setCtx k c).modeNow = s.modeNow := rfl
@[simp] theorem setCtx_islandStep (s : State) (k : Nat) (c : Ctx) : (s.setCtx k c).islandStep = s.islandStep := rfl
@[simp] theorem setCtx_atreqAddr (s : State) (k : Nat) (c : Ctx) : (s.setCtx k c).atreqAddr = s.atreqAddr := rfl
@[simp] theorem setCtx_atreqBusy (s : State) (k : Nat) (c : Ctx) : (s.setCtx k c).atreqBusy = s.atreqBusy := rfl
@[simp] theorem setCtx_reportCount (s : State) (k : Nat) (c : Ctx) : (s.setCtx k c).reportCount = s.reportCount := rfl
@[simp] theorem setCtx_seq (s : State) (k : Nat) (c : Ctx) : (s.setCtx k c).seq = s.seq := rfl
@[simp] theorem setCtx_fences (s : State) (k : Nat) (c : Ctx) : (s.setCtx k c).fences = s.fences := rfl
@[simp] theorem setCtx_hostQ (s : State) (k : Nat) (c : Ctx) : (s.setCtx k c).hostQ = s.hostQ := rfl
@[simp] theorem setCtx_cxlOn (s : State) (k : Nat) (c : Ctx) : (s.setCtx k c).cxlOn = s.cxlOn := rfl
@[simp] theorem setCtx_hostHeld (s : State) (k : Nat) (c : Ctx) : (s.setCtx k c).hostHeld = s.hostHeld := rfl
@[simp] theorem setCtx_linksDown (s : State) (k : Nat) (c : Ctx) : (s.setCtx k c).linksDown = s.linksDown := rfl
@[simp] theorem setCtx_walk (s : State) (k : Nat) (c : Ctx) : (s.setCtx k c).walk = s.walk := rfl
@[simp] theorem setCtx_queues (s : State) (k : Nat) (c : Ctx) : (s.setCtx k c).queues = s.queues := rfl
@[simp] theorem setCtx_mem (s : State) (k : Nat) (c : Ctx) : (s.setCtx k c).mem = s.mem := rfl
@[simp] theorem setCtx_poison (s : State) (k : Nat) (c : Ctx) : (s.setCtx k c).poison = s.poison := rfl
@[simp] theorem setCtx_frames (s : State) (k : Nat) (c : Ctx) : (s.setCtx k c).frames = s.frames := rfl
@[simp] theorem setCtx_frameBad (s : State) (k : Nat) (c : Ctx) : (s.setCtx k c).frameBad = s.frameBad := rfl
@[simp] theorem setCtx_l2 (s : State) (k : Nat) (c : Ctx) : (s.setCtx k c).l2 = s.l2 := rfl
@[simp] theorem setCtx_home (s : State) (k : Nat) (c : Ctx) : (s.setCtx k c).home = s.home := rfl
@[simp] theorem setCtx_parts (s : State) (k : Nat) (c : Ctx) : (s.setCtx k c).parts = s.parts := rfl
@[simp] theorem setCtx_priv (s : State) (k : Nat) (c : Ctx) : (s.setCtx k c).priv = s.priv := rfl
@[simp] theorem setCtx_specVec (s : State) (k : Nat) (c : Ctx) : (s.setCtx k c).specVec = s.specVec := rfl
@[simp] theorem setCtx_tlb (s : State) (k : Nat) (c : Ctx) : (s.setCtx k c).tlb = s.tlb := rfl
@[simp] theorem setCtx_tiles (s : State) (k : Nat) (c : Ctx) : (s.setCtx k c).tiles = s.tiles := rfl
@[simp] theorem setCtx_clusters (s : State) (k : Nat) (c : Ctx) : (s.setCtx k c).clusters = s.clusters := rfl
@[simp] theorem setCtx_blocks (s : State) (k : Nat) (c : Ctx) : (s.setCtx k c).blocks = s.blocks := rfl
@[simp] theorem setCtx_launches (s : State) (k : Nat) (c : Ctx) : (s.setCtx k c).launches = s.launches := rfl
@[simp] theorem setCtx_specs (s : State) (k : Nat) (c : Ctx) : (s.setCtx k c).specs = s.specs := rfl
@[simp] theorem setCtx_ctxs (s : State) (k : Nat) (c : Ctx) : (s.setCtx k c).ctxs = s.ctxs.set k c := rfl
@[simp] theorem setCtx_kept (s : State) (k : Nat) (c : Ctx) : (s.setCtx k c).kept = s.kept := rfl
@[simp] theorem setCtx_stores (s : State) (k : Nat) (c : Ctx) : (s.setCtx k c).stores = s.stores := rfl
@[simp] theorem setCtx_remote (s : State) (k : Nat) (c : Ctx) : (s.setCtx k c).remote = s.remote := rfl
@[simp] theorem setCtx_watches (s : State) (k : Nat) (c : Ctx) : (s.setCtx k c).watches = s.watches := rfl
@[simp] theorem setCtx_outbox (s : State) (k : Nat) (c : Ctx) : (s.setCtx k c).outbox = s.outbox := rfl
@[simp] theorem setCtx_rounds (s : State) (k : Nat) (c : Ctx) : (s.setCtx k c).rounds = s.rounds := rfl
@[simp] theorem setCtx_killsUp (s : State) (k : Nat) (c : Ctx) : (s.setCtx k c).killsUp = s.killsUp := rfl
@[simp] theorem setCtx_oldestStart (s : State) (k : Nat) (c : Ctx) : (s.setCtx k c).oldestStart = s.oldestStart := rfl
@[simp] theorem setCtx_agenda (s : State) (k : Nat) (c : Ctx) : (s.setCtx k c).agenda = s.agenda := rfl
@[simp] theorem setCtx_turn (s : State) (k : Nat) (c : Ctx) : (s.setCtx k c).turn = s.turn := rfl
@[simp] theorem setCtx_popped (s : State) (k : Nat) (c : Ctx) : (s.setCtx k c).popped = s.popped := rfl
@[simp] theorem setCtx_left (s : State) (k : Nat) (c : Ctx) : (s.setCtx k c).left = s.left := rfl
@[simp] theorem setCtx_cur (s : State) (k : Nat) (c : Ctx) : (s.setCtx k c).cur = s.cur := rfl
@[simp] theorem setCtx_word (s : State) (k : Nat) (c : Ctx) : (s.setCtx k c).word = s.word := rfl
@[simp] theorem setCtx_probe (s : State) (k : Nat) (c : Ctx) : (s.setCtx k c).probe = s.probe := rfl
@[simp] theorem setCtx_fresh (s : State) (k : Nat) (c : Ctx) : (s.setCtx k c).fresh = s.fresh := rfl
@[simp] theorem setCtx_nextUid (s : State) (k : Nat) (c : Ctx) : (s.setCtx k c).nextUid = s.nextUid := rfl
@[simp] theorem setCtx_nextStore (s : State) (k : Nat) (c : Ctx) : (s.setCtx k c).nextStore = s.nextStore := rfl
@[simp] theorem setCtx_nextReq (s : State) (k : Nat) (c : Ctx) : (s.setCtx k c).nextReq = s.nextReq := rfl

@[simp] theorem setTile_cycle (s : State) (t : Nat) (x : TileS) : (s.setTile t x).cycle = s.cycle := rfl
@[simp] theorem setTile_node (s : State) (t : Nat) (x : TileS) : (s.setTile t x).node = s.node := rfl
@[simp] theorem setTile_retired (s : State) (t : Nat) (x : TileS) : (s.setTile t x).retired = s.retired := rfl
@[simp] theorem setTile_full (s : State) (t : Nat) (x : TileS) : (s.setTile t x).full = s.full := rfl
@[simp] theorem setTile_fwRun (s : State) (t : Nat) (x : TileS) : (s.setTile t x).fwRun = s.fwRun := rfl
@[simp] theorem setTile_atdone (s : State) (t : Nat) (x : TileS) : (s.setTile t x).atdone = s.atdone := rfl
@[simp] theorem setTile_asidrtBase (s : State) (t : Nat) (x : TileS) : (s.setTile t x).asidrtBase = s.asidrtBase := rfl
@[simp] theorem setTile_asidrtEn (s : State) (t : Nat) (x : TileS) : (s.setTile t x).asidrtEn = s.asidrtEn := rfl
@[simp] theorem setTile_cwBase (s : State) (t : Nat) (x : TileS) : (s.setTile t x).cwBase = s.cwBase := rfl
@[simp] theorem setTile_cwEn (s : State) (t : Nat) (x : TileS) : (s.setTile t x).cwEn = s.cwEn := rfl
@[simp] theorem setTile_pctlMode (s : State) (t : Nat) (x : TileS) : (s.setTile t x).pctlMode = s.pctlMode := rfl
@[simp] theorem setTile_pctlBudget (s : State) (t : Nat) (x : TileS) : (s.setTile t x).pctlBudget = s.pctlBudget := rfl
@[simp] theorem setTile_modeNow (s : State) (t : Nat) (x : TileS) : (s.setTile t x).modeNow = s.modeNow := rfl
@[simp] theorem setTile_islandStep (s : State) (t : Nat) (x : TileS) : (s.setTile t x).islandStep = s.islandStep := rfl
@[simp] theorem setTile_atreqAddr (s : State) (t : Nat) (x : TileS) : (s.setTile t x).atreqAddr = s.atreqAddr := rfl
@[simp] theorem setTile_atreqBusy (s : State) (t : Nat) (x : TileS) : (s.setTile t x).atreqBusy = s.atreqBusy := rfl
@[simp] theorem setTile_reportCount (s : State) (t : Nat) (x : TileS) : (s.setTile t x).reportCount = s.reportCount := rfl
@[simp] theorem setTile_seq (s : State) (t : Nat) (x : TileS) : (s.setTile t x).seq = s.seq := rfl
@[simp] theorem setTile_fences (s : State) (t : Nat) (x : TileS) : (s.setTile t x).fences = s.fences := rfl
@[simp] theorem setTile_hostQ (s : State) (t : Nat) (x : TileS) : (s.setTile t x).hostQ = s.hostQ := rfl
@[simp] theorem setTile_cxlOn (s : State) (t : Nat) (x : TileS) : (s.setTile t x).cxlOn = s.cxlOn := rfl
@[simp] theorem setTile_hostHeld (s : State) (t : Nat) (x : TileS) : (s.setTile t x).hostHeld = s.hostHeld := rfl
@[simp] theorem setTile_linksDown (s : State) (t : Nat) (x : TileS) : (s.setTile t x).linksDown = s.linksDown := rfl
@[simp] theorem setTile_walk (s : State) (t : Nat) (x : TileS) : (s.setTile t x).walk = s.walk := rfl
@[simp] theorem setTile_queues (s : State) (t : Nat) (x : TileS) : (s.setTile t x).queues = s.queues := rfl
@[simp] theorem setTile_mem (s : State) (t : Nat) (x : TileS) : (s.setTile t x).mem = s.mem := rfl
@[simp] theorem setTile_poison (s : State) (t : Nat) (x : TileS) : (s.setTile t x).poison = s.poison := rfl
@[simp] theorem setTile_frames (s : State) (t : Nat) (x : TileS) : (s.setTile t x).frames = s.frames := rfl
@[simp] theorem setTile_frameBad (s : State) (t : Nat) (x : TileS) : (s.setTile t x).frameBad = s.frameBad := rfl
@[simp] theorem setTile_l2 (s : State) (t : Nat) (x : TileS) : (s.setTile t x).l2 = s.l2 := rfl
@[simp] theorem setTile_home (s : State) (t : Nat) (x : TileS) : (s.setTile t x).home = s.home := rfl
@[simp] theorem setTile_parts (s : State) (t : Nat) (x : TileS) : (s.setTile t x).parts = s.parts := rfl
@[simp] theorem setTile_priv (s : State) (t : Nat) (x : TileS) : (s.setTile t x).priv = s.priv := rfl
@[simp] theorem setTile_specVec (s : State) (t : Nat) (x : TileS) : (s.setTile t x).specVec = s.specVec := rfl
@[simp] theorem setTile_tlb (s : State) (t : Nat) (x : TileS) : (s.setTile t x).tlb = s.tlb := rfl
@[simp] theorem setTile_tiles (s : State) (t : Nat) (x : TileS) : (s.setTile t x).tiles = s.tiles.set t x := rfl
@[simp] theorem setTile_clusters (s : State) (t : Nat) (x : TileS) : (s.setTile t x).clusters = s.clusters := rfl
@[simp] theorem setTile_blocks (s : State) (t : Nat) (x : TileS) : (s.setTile t x).blocks = s.blocks := rfl
@[simp] theorem setTile_launches (s : State) (t : Nat) (x : TileS) : (s.setTile t x).launches = s.launches := rfl
@[simp] theorem setTile_specs (s : State) (t : Nat) (x : TileS) : (s.setTile t x).specs = s.specs := rfl
@[simp] theorem setTile_ctxs (s : State) (t : Nat) (x : TileS) : (s.setTile t x).ctxs = s.ctxs := rfl
@[simp] theorem setTile_kept (s : State) (t : Nat) (x : TileS) : (s.setTile t x).kept = s.kept := rfl
@[simp] theorem setTile_stores (s : State) (t : Nat) (x : TileS) : (s.setTile t x).stores = s.stores := rfl
@[simp] theorem setTile_remote (s : State) (t : Nat) (x : TileS) : (s.setTile t x).remote = s.remote := rfl
@[simp] theorem setTile_watches (s : State) (t : Nat) (x : TileS) : (s.setTile t x).watches = s.watches := rfl
@[simp] theorem setTile_outbox (s : State) (t : Nat) (x : TileS) : (s.setTile t x).outbox = s.outbox := rfl
@[simp] theorem setTile_rounds (s : State) (t : Nat) (x : TileS) : (s.setTile t x).rounds = s.rounds := rfl
@[simp] theorem setTile_killsUp (s : State) (t : Nat) (x : TileS) : (s.setTile t x).killsUp = s.killsUp := rfl
@[simp] theorem setTile_oldestStart (s : State) (t : Nat) (x : TileS) : (s.setTile t x).oldestStart = s.oldestStart := rfl
@[simp] theorem setTile_agenda (s : State) (t : Nat) (x : TileS) : (s.setTile t x).agenda = s.agenda := rfl
@[simp] theorem setTile_turn (s : State) (t : Nat) (x : TileS) : (s.setTile t x).turn = s.turn := rfl
@[simp] theorem setTile_popped (s : State) (t : Nat) (x : TileS) : (s.setTile t x).popped = s.popped := rfl
@[simp] theorem setTile_left (s : State) (t : Nat) (x : TileS) : (s.setTile t x).left = s.left := rfl
@[simp] theorem setTile_cur (s : State) (t : Nat) (x : TileS) : (s.setTile t x).cur = s.cur := rfl
@[simp] theorem setTile_word (s : State) (t : Nat) (x : TileS) : (s.setTile t x).word = s.word := rfl
@[simp] theorem setTile_probe (s : State) (t : Nat) (x : TileS) : (s.setTile t x).probe = s.probe := rfl
@[simp] theorem setTile_fresh (s : State) (t : Nat) (x : TileS) : (s.setTile t x).fresh = s.fresh := rfl
@[simp] theorem setTile_nextUid (s : State) (t : Nat) (x : TileS) : (s.setTile t x).nextUid = s.nextUid := rfl
@[simp] theorem setTile_nextStore (s : State) (t : Nat) (x : TileS) : (s.setTile t x).nextStore = s.nextStore := rfl
@[simp] theorem setTile_nextReq (s : State) (t : Nat) (x : TileS) : (s.setTile t x).nextReq = s.nextReq := rfl

@[simp] theorem setCluster_cycle (s : State) (c : Nat) (x : ClusterS) : (s.setCluster c x).cycle = s.cycle := rfl
@[simp] theorem setCluster_node (s : State) (c : Nat) (x : ClusterS) : (s.setCluster c x).node = s.node := rfl
@[simp] theorem setCluster_retired (s : State) (c : Nat) (x : ClusterS) : (s.setCluster c x).retired = s.retired := rfl
@[simp] theorem setCluster_full (s : State) (c : Nat) (x : ClusterS) : (s.setCluster c x).full = s.full := rfl
@[simp] theorem setCluster_fwRun (s : State) (c : Nat) (x : ClusterS) : (s.setCluster c x).fwRun = s.fwRun := rfl
@[simp] theorem setCluster_atdone (s : State) (c : Nat) (x : ClusterS) : (s.setCluster c x).atdone = s.atdone := rfl
@[simp] theorem setCluster_asidrtBase (s : State) (c : Nat) (x : ClusterS) : (s.setCluster c x).asidrtBase = s.asidrtBase := rfl
@[simp] theorem setCluster_asidrtEn (s : State) (c : Nat) (x : ClusterS) : (s.setCluster c x).asidrtEn = s.asidrtEn := rfl
@[simp] theorem setCluster_cwBase (s : State) (c : Nat) (x : ClusterS) : (s.setCluster c x).cwBase = s.cwBase := rfl
@[simp] theorem setCluster_cwEn (s : State) (c : Nat) (x : ClusterS) : (s.setCluster c x).cwEn = s.cwEn := rfl
@[simp] theorem setCluster_pctlMode (s : State) (c : Nat) (x : ClusterS) : (s.setCluster c x).pctlMode = s.pctlMode := rfl
@[simp] theorem setCluster_pctlBudget (s : State) (c : Nat) (x : ClusterS) : (s.setCluster c x).pctlBudget = s.pctlBudget := rfl
@[simp] theorem setCluster_modeNow (s : State) (c : Nat) (x : ClusterS) : (s.setCluster c x).modeNow = s.modeNow := rfl
@[simp] theorem setCluster_islandStep (s : State) (c : Nat) (x : ClusterS) : (s.setCluster c x).islandStep = s.islandStep := rfl
@[simp] theorem setCluster_atreqAddr (s : State) (c : Nat) (x : ClusterS) : (s.setCluster c x).atreqAddr = s.atreqAddr := rfl
@[simp] theorem setCluster_atreqBusy (s : State) (c : Nat) (x : ClusterS) : (s.setCluster c x).atreqBusy = s.atreqBusy := rfl
@[simp] theorem setCluster_reportCount (s : State) (c : Nat) (x : ClusterS) : (s.setCluster c x).reportCount = s.reportCount := rfl
@[simp] theorem setCluster_seq (s : State) (c : Nat) (x : ClusterS) : (s.setCluster c x).seq = s.seq := rfl
@[simp] theorem setCluster_fences (s : State) (c : Nat) (x : ClusterS) : (s.setCluster c x).fences = s.fences := rfl
@[simp] theorem setCluster_hostQ (s : State) (c : Nat) (x : ClusterS) : (s.setCluster c x).hostQ = s.hostQ := rfl
@[simp] theorem setCluster_cxlOn (s : State) (c : Nat) (x : ClusterS) : (s.setCluster c x).cxlOn = s.cxlOn := rfl
@[simp] theorem setCluster_hostHeld (s : State) (c : Nat) (x : ClusterS) : (s.setCluster c x).hostHeld = s.hostHeld := rfl
@[simp] theorem setCluster_linksDown (s : State) (c : Nat) (x : ClusterS) : (s.setCluster c x).linksDown = s.linksDown := rfl
@[simp] theorem setCluster_walk (s : State) (c : Nat) (x : ClusterS) : (s.setCluster c x).walk = s.walk := rfl
@[simp] theorem setCluster_queues (s : State) (c : Nat) (x : ClusterS) : (s.setCluster c x).queues = s.queues := rfl
@[simp] theorem setCluster_mem (s : State) (c : Nat) (x : ClusterS) : (s.setCluster c x).mem = s.mem := rfl
@[simp] theorem setCluster_poison (s : State) (c : Nat) (x : ClusterS) : (s.setCluster c x).poison = s.poison := rfl
@[simp] theorem setCluster_frames (s : State) (c : Nat) (x : ClusterS) : (s.setCluster c x).frames = s.frames := rfl
@[simp] theorem setCluster_frameBad (s : State) (c : Nat) (x : ClusterS) : (s.setCluster c x).frameBad = s.frameBad := rfl
@[simp] theorem setCluster_l2 (s : State) (c : Nat) (x : ClusterS) : (s.setCluster c x).l2 = s.l2 := rfl
@[simp] theorem setCluster_home (s : State) (c : Nat) (x : ClusterS) : (s.setCluster c x).home = s.home := rfl
@[simp] theorem setCluster_parts (s : State) (c : Nat) (x : ClusterS) : (s.setCluster c x).parts = s.parts := rfl
@[simp] theorem setCluster_priv (s : State) (c : Nat) (x : ClusterS) : (s.setCluster c x).priv = s.priv := rfl
@[simp] theorem setCluster_specVec (s : State) (c : Nat) (x : ClusterS) : (s.setCluster c x).specVec = s.specVec := rfl
@[simp] theorem setCluster_tlb (s : State) (c : Nat) (x : ClusterS) : (s.setCluster c x).tlb = s.tlb := rfl
@[simp] theorem setCluster_tiles (s : State) (c : Nat) (x : ClusterS) : (s.setCluster c x).tiles = s.tiles := rfl
@[simp] theorem setCluster_clusters (s : State) (c : Nat) (x : ClusterS) : (s.setCluster c x).clusters = s.clusters.set c x := rfl
@[simp] theorem setCluster_blocks (s : State) (c : Nat) (x : ClusterS) : (s.setCluster c x).blocks = s.blocks := rfl
@[simp] theorem setCluster_launches (s : State) (c : Nat) (x : ClusterS) : (s.setCluster c x).launches = s.launches := rfl
@[simp] theorem setCluster_specs (s : State) (c : Nat) (x : ClusterS) : (s.setCluster c x).specs = s.specs := rfl
@[simp] theorem setCluster_ctxs (s : State) (c : Nat) (x : ClusterS) : (s.setCluster c x).ctxs = s.ctxs := rfl
@[simp] theorem setCluster_kept (s : State) (c : Nat) (x : ClusterS) : (s.setCluster c x).kept = s.kept := rfl
@[simp] theorem setCluster_stores (s : State) (c : Nat) (x : ClusterS) : (s.setCluster c x).stores = s.stores := rfl
@[simp] theorem setCluster_remote (s : State) (c : Nat) (x : ClusterS) : (s.setCluster c x).remote = s.remote := rfl
@[simp] theorem setCluster_watches (s : State) (c : Nat) (x : ClusterS) : (s.setCluster c x).watches = s.watches := rfl
@[simp] theorem setCluster_outbox (s : State) (c : Nat) (x : ClusterS) : (s.setCluster c x).outbox = s.outbox := rfl
@[simp] theorem setCluster_rounds (s : State) (c : Nat) (x : ClusterS) : (s.setCluster c x).rounds = s.rounds := rfl
@[simp] theorem setCluster_killsUp (s : State) (c : Nat) (x : ClusterS) : (s.setCluster c x).killsUp = s.killsUp := rfl
@[simp] theorem setCluster_oldestStart (s : State) (c : Nat) (x : ClusterS) : (s.setCluster c x).oldestStart = s.oldestStart := rfl
@[simp] theorem setCluster_agenda (s : State) (c : Nat) (x : ClusterS) : (s.setCluster c x).agenda = s.agenda := rfl
@[simp] theorem setCluster_turn (s : State) (c : Nat) (x : ClusterS) : (s.setCluster c x).turn = s.turn := rfl
@[simp] theorem setCluster_popped (s : State) (c : Nat) (x : ClusterS) : (s.setCluster c x).popped = s.popped := rfl
@[simp] theorem setCluster_left (s : State) (c : Nat) (x : ClusterS) : (s.setCluster c x).left = s.left := rfl
@[simp] theorem setCluster_cur (s : State) (c : Nat) (x : ClusterS) : (s.setCluster c x).cur = s.cur := rfl
@[simp] theorem setCluster_word (s : State) (c : Nat) (x : ClusterS) : (s.setCluster c x).word = s.word := rfl
@[simp] theorem setCluster_probe (s : State) (c : Nat) (x : ClusterS) : (s.setCluster c x).probe = s.probe := rfl
@[simp] theorem setCluster_fresh (s : State) (c : Nat) (x : ClusterS) : (s.setCluster c x).fresh = s.fresh := rfl
@[simp] theorem setCluster_nextUid (s : State) (c : Nat) (x : ClusterS) : (s.setCluster c x).nextUid = s.nextUid := rfl
@[simp] theorem setCluster_nextStore (s : State) (c : Nat) (x : ClusterS) : (s.setCluster c x).nextStore = s.nextStore := rfl
@[simp] theorem setCluster_nextReq (s : State) (c : Nat) (x : ClusterS) : (s.setCluster c x).nextReq = s.nextReq := rfl

@[simp] theorem setHome_cycle (s : State) (l : Nat) (h : HomeLine) : (s.setHome l h).cycle = s.cycle := rfl
@[simp] theorem setHome_node (s : State) (l : Nat) (h : HomeLine) : (s.setHome l h).node = s.node := rfl
@[simp] theorem setHome_retired (s : State) (l : Nat) (h : HomeLine) : (s.setHome l h).retired = s.retired := rfl
@[simp] theorem setHome_full (s : State) (l : Nat) (h : HomeLine) : (s.setHome l h).full = s.full := rfl
@[simp] theorem setHome_fwRun (s : State) (l : Nat) (h : HomeLine) : (s.setHome l h).fwRun = s.fwRun := rfl
@[simp] theorem setHome_atdone (s : State) (l : Nat) (h : HomeLine) : (s.setHome l h).atdone = s.atdone := rfl
@[simp] theorem setHome_asidrtBase (s : State) (l : Nat) (h : HomeLine) : (s.setHome l h).asidrtBase = s.asidrtBase := rfl
@[simp] theorem setHome_asidrtEn (s : State) (l : Nat) (h : HomeLine) : (s.setHome l h).asidrtEn = s.asidrtEn := rfl
@[simp] theorem setHome_cwBase (s : State) (l : Nat) (h : HomeLine) : (s.setHome l h).cwBase = s.cwBase := rfl
@[simp] theorem setHome_cwEn (s : State) (l : Nat) (h : HomeLine) : (s.setHome l h).cwEn = s.cwEn := rfl
@[simp] theorem setHome_pctlMode (s : State) (l : Nat) (h : HomeLine) : (s.setHome l h).pctlMode = s.pctlMode := rfl
@[simp] theorem setHome_pctlBudget (s : State) (l : Nat) (h : HomeLine) : (s.setHome l h).pctlBudget = s.pctlBudget := rfl
@[simp] theorem setHome_modeNow (s : State) (l : Nat) (h : HomeLine) : (s.setHome l h).modeNow = s.modeNow := rfl
@[simp] theorem setHome_islandStep (s : State) (l : Nat) (h : HomeLine) : (s.setHome l h).islandStep = s.islandStep := rfl
@[simp] theorem setHome_atreqAddr (s : State) (l : Nat) (h : HomeLine) : (s.setHome l h).atreqAddr = s.atreqAddr := rfl
@[simp] theorem setHome_atreqBusy (s : State) (l : Nat) (h : HomeLine) : (s.setHome l h).atreqBusy = s.atreqBusy := rfl
@[simp] theorem setHome_reportCount (s : State) (l : Nat) (h : HomeLine) : (s.setHome l h).reportCount = s.reportCount := rfl
@[simp] theorem setHome_seq (s : State) (l : Nat) (h : HomeLine) : (s.setHome l h).seq = s.seq := rfl
@[simp] theorem setHome_fences (s : State) (l : Nat) (h : HomeLine) : (s.setHome l h).fences = s.fences := rfl
@[simp] theorem setHome_hostQ (s : State) (l : Nat) (h : HomeLine) : (s.setHome l h).hostQ = s.hostQ := rfl
@[simp] theorem setHome_cxlOn (s : State) (l : Nat) (h : HomeLine) : (s.setHome l h).cxlOn = s.cxlOn := rfl
@[simp] theorem setHome_hostHeld (s : State) (l : Nat) (h : HomeLine) : (s.setHome l h).hostHeld = s.hostHeld := rfl
@[simp] theorem setHome_linksDown (s : State) (l : Nat) (h : HomeLine) : (s.setHome l h).linksDown = s.linksDown := rfl
@[simp] theorem setHome_walk (s : State) (l : Nat) (h : HomeLine) : (s.setHome l h).walk = s.walk := rfl
@[simp] theorem setHome_queues (s : State) (l : Nat) (h : HomeLine) : (s.setHome l h).queues = s.queues := rfl
@[simp] theorem setHome_mem (s : State) (l : Nat) (h : HomeLine) : (s.setHome l h).mem = s.mem := rfl
@[simp] theorem setHome_poison (s : State) (l : Nat) (h : HomeLine) : (s.setHome l h).poison = s.poison := rfl
@[simp] theorem setHome_frames (s : State) (l : Nat) (h : HomeLine) : (s.setHome l h).frames = s.frames := rfl
@[simp] theorem setHome_frameBad (s : State) (l : Nat) (h : HomeLine) : (s.setHome l h).frameBad = s.frameBad := rfl
@[simp] theorem setHome_l2 (s : State) (l : Nat) (h : HomeLine) : (s.setHome l h).l2 = s.l2 := rfl
@[simp] theorem setHome_home (s : State) (l : Nat) (h : HomeLine) : (s.setHome l h).home = s.home.set l h := rfl
@[simp] theorem setHome_parts (s : State) (l : Nat) (h : HomeLine) : (s.setHome l h).parts = s.parts := rfl
@[simp] theorem setHome_priv (s : State) (l : Nat) (h : HomeLine) : (s.setHome l h).priv = s.priv := rfl
@[simp] theorem setHome_specVec (s : State) (l : Nat) (h : HomeLine) : (s.setHome l h).specVec = s.specVec := rfl
@[simp] theorem setHome_tlb (s : State) (l : Nat) (h : HomeLine) : (s.setHome l h).tlb = s.tlb := rfl
@[simp] theorem setHome_tiles (s : State) (l : Nat) (h : HomeLine) : (s.setHome l h).tiles = s.tiles := rfl
@[simp] theorem setHome_clusters (s : State) (l : Nat) (h : HomeLine) : (s.setHome l h).clusters = s.clusters := rfl
@[simp] theorem setHome_blocks (s : State) (l : Nat) (h : HomeLine) : (s.setHome l h).blocks = s.blocks := rfl
@[simp] theorem setHome_launches (s : State) (l : Nat) (h : HomeLine) : (s.setHome l h).launches = s.launches := rfl
@[simp] theorem setHome_specs (s : State) (l : Nat) (h : HomeLine) : (s.setHome l h).specs = s.specs := rfl
@[simp] theorem setHome_ctxs (s : State) (l : Nat) (h : HomeLine) : (s.setHome l h).ctxs = s.ctxs := rfl
@[simp] theorem setHome_kept (s : State) (l : Nat) (h : HomeLine) : (s.setHome l h).kept = s.kept := rfl
@[simp] theorem setHome_stores (s : State) (l : Nat) (h : HomeLine) : (s.setHome l h).stores = s.stores := rfl
@[simp] theorem setHome_remote (s : State) (l : Nat) (h : HomeLine) : (s.setHome l h).remote = s.remote := rfl
@[simp] theorem setHome_watches (s : State) (l : Nat) (h : HomeLine) : (s.setHome l h).watches = s.watches := rfl
@[simp] theorem setHome_outbox (s : State) (l : Nat) (h : HomeLine) : (s.setHome l h).outbox = s.outbox := rfl
@[simp] theorem setHome_rounds (s : State) (l : Nat) (h : HomeLine) : (s.setHome l h).rounds = s.rounds := rfl
@[simp] theorem setHome_killsUp (s : State) (l : Nat) (h : HomeLine) : (s.setHome l h).killsUp = s.killsUp := rfl
@[simp] theorem setHome_oldestStart (s : State) (l : Nat) (h : HomeLine) : (s.setHome l h).oldestStart = s.oldestStart := rfl
@[simp] theorem setHome_agenda (s : State) (l : Nat) (h : HomeLine) : (s.setHome l h).agenda = s.agenda := rfl
@[simp] theorem setHome_turn (s : State) (l : Nat) (h : HomeLine) : (s.setHome l h).turn = s.turn := rfl
@[simp] theorem setHome_popped (s : State) (l : Nat) (h : HomeLine) : (s.setHome l h).popped = s.popped := rfl
@[simp] theorem setHome_left (s : State) (l : Nat) (h : HomeLine) : (s.setHome l h).left = s.left := rfl
@[simp] theorem setHome_cur (s : State) (l : Nat) (h : HomeLine) : (s.setHome l h).cur = s.cur := rfl
@[simp] theorem setHome_word (s : State) (l : Nat) (h : HomeLine) : (s.setHome l h).word = s.word := rfl
@[simp] theorem setHome_probe (s : State) (l : Nat) (h : HomeLine) : (s.setHome l h).probe = s.probe := rfl
@[simp] theorem setHome_fresh (s : State) (l : Nat) (h : HomeLine) : (s.setHome l h).fresh = s.fresh := rfl
@[simp] theorem setHome_nextUid (s : State) (l : Nat) (h : HomeLine) : (s.setHome l h).nextUid = s.nextUid := rfl
@[simp] theorem setHome_nextStore (s : State) (l : Nat) (h : HomeLine) : (s.setHome l h).nextStore = s.nextStore := rfl
@[simp] theorem setHome_nextReq (s : State) (l : Nat) (h : HomeLine) : (s.setHome l h).nextReq = s.nextReq := rfl

@[simp] theorem after_cycle (s : State) (d : Nat) (e : Event) : (s.after d e).cycle = s.cycle := rfl
@[simp] theorem after_node (s : State) (d : Nat) (e : Event) : (s.after d e).node = s.node := rfl
@[simp] theorem after_retired (s : State) (d : Nat) (e : Event) : (s.after d e).retired = s.retired := rfl
@[simp] theorem after_full (s : State) (d : Nat) (e : Event) : (s.after d e).full = s.full := rfl
@[simp] theorem after_fwRun (s : State) (d : Nat) (e : Event) : (s.after d e).fwRun = s.fwRun := rfl
@[simp] theorem after_atdone (s : State) (d : Nat) (e : Event) : (s.after d e).atdone = s.atdone := rfl
@[simp] theorem after_asidrtBase (s : State) (d : Nat) (e : Event) : (s.after d e).asidrtBase = s.asidrtBase := rfl
@[simp] theorem after_asidrtEn (s : State) (d : Nat) (e : Event) : (s.after d e).asidrtEn = s.asidrtEn := rfl
@[simp] theorem after_cwBase (s : State) (d : Nat) (e : Event) : (s.after d e).cwBase = s.cwBase := rfl
@[simp] theorem after_cwEn (s : State) (d : Nat) (e : Event) : (s.after d e).cwEn = s.cwEn := rfl
@[simp] theorem after_pctlMode (s : State) (d : Nat) (e : Event) : (s.after d e).pctlMode = s.pctlMode := rfl
@[simp] theorem after_pctlBudget (s : State) (d : Nat) (e : Event) : (s.after d e).pctlBudget = s.pctlBudget := rfl
@[simp] theorem after_modeNow (s : State) (d : Nat) (e : Event) : (s.after d e).modeNow = s.modeNow := rfl
@[simp] theorem after_islandStep (s : State) (d : Nat) (e : Event) : (s.after d e).islandStep = s.islandStep := rfl
@[simp] theorem after_atreqAddr (s : State) (d : Nat) (e : Event) : (s.after d e).atreqAddr = s.atreqAddr := rfl
@[simp] theorem after_atreqBusy (s : State) (d : Nat) (e : Event) : (s.after d e).atreqBusy = s.atreqBusy := rfl
@[simp] theorem after_reportCount (s : State) (d : Nat) (e : Event) : (s.after d e).reportCount = s.reportCount := rfl
@[simp] theorem after_seq (s : State) (d : Nat) (e : Event) : (s.after d e).seq = s.seq := rfl
@[simp] theorem after_fences (s : State) (d : Nat) (e : Event) : (s.after d e).fences = s.fences := rfl
@[simp] theorem after_hostQ (s : State) (d : Nat) (e : Event) : (s.after d e).hostQ = s.hostQ := rfl
@[simp] theorem after_cxlOn (s : State) (d : Nat) (e : Event) : (s.after d e).cxlOn = s.cxlOn := rfl
@[simp] theorem after_hostHeld (s : State) (d : Nat) (e : Event) : (s.after d e).hostHeld = s.hostHeld := rfl
@[simp] theorem after_linksDown (s : State) (d : Nat) (e : Event) : (s.after d e).linksDown = s.linksDown := rfl
@[simp] theorem after_walk (s : State) (d : Nat) (e : Event) : (s.after d e).walk = s.walk := rfl
@[simp] theorem after_queues (s : State) (d : Nat) (e : Event) : (s.after d e).queues = s.queues := rfl
@[simp] theorem after_mem (s : State) (d : Nat) (e : Event) : (s.after d e).mem = s.mem := rfl
@[simp] theorem after_poison (s : State) (d : Nat) (e : Event) : (s.after d e).poison = s.poison := rfl
@[simp] theorem after_frames (s : State) (d : Nat) (e : Event) : (s.after d e).frames = s.frames := rfl
@[simp] theorem after_frameBad (s : State) (d : Nat) (e : Event) : (s.after d e).frameBad = s.frameBad := rfl
@[simp] theorem after_l2 (s : State) (d : Nat) (e : Event) : (s.after d e).l2 = s.l2 := rfl
@[simp] theorem after_home (s : State) (d : Nat) (e : Event) : (s.after d e).home = s.home := rfl
@[simp] theorem after_parts (s : State) (d : Nat) (e : Event) : (s.after d e).parts = s.parts := rfl
@[simp] theorem after_priv (s : State) (d : Nat) (e : Event) : (s.after d e).priv = s.priv := rfl
@[simp] theorem after_specVec (s : State) (d : Nat) (e : Event) : (s.after d e).specVec = s.specVec := rfl
@[simp] theorem after_tlb (s : State) (d : Nat) (e : Event) : (s.after d e).tlb = s.tlb := rfl
@[simp] theorem after_tiles (s : State) (d : Nat) (e : Event) : (s.after d e).tiles = s.tiles := rfl
@[simp] theorem after_clusters (s : State) (d : Nat) (e : Event) : (s.after d e).clusters = s.clusters := rfl
@[simp] theorem after_blocks (s : State) (d : Nat) (e : Event) : (s.after d e).blocks = s.blocks := rfl
@[simp] theorem after_launches (s : State) (d : Nat) (e : Event) : (s.after d e).launches = s.launches := rfl
@[simp] theorem after_specs (s : State) (d : Nat) (e : Event) : (s.after d e).specs = s.specs := rfl
@[simp] theorem after_ctxs (s : State) (d : Nat) (e : Event) : (s.after d e).ctxs = s.ctxs := rfl
@[simp] theorem after_kept (s : State) (d : Nat) (e : Event) : (s.after d e).kept = s.kept := rfl
@[simp] theorem after_stores (s : State) (d : Nat) (e : Event) : (s.after d e).stores = s.stores := rfl
@[simp] theorem after_remote (s : State) (d : Nat) (e : Event) : (s.after d e).remote = s.remote := rfl
@[simp] theorem after_watches (s : State) (d : Nat) (e : Event) : (s.after d e).watches = s.watches := rfl
@[simp] theorem after_outbox (s : State) (d : Nat) (e : Event) : (s.after d e).outbox = s.outbox := rfl
@[simp] theorem after_rounds (s : State) (d : Nat) (e : Event) : (s.after d e).rounds = s.rounds := rfl
@[simp] theorem after_killsUp (s : State) (d : Nat) (e : Event) : (s.after d e).killsUp = s.killsUp := rfl
@[simp] theorem after_oldestStart (s : State) (d : Nat) (e : Event) : (s.after d e).oldestStart = s.oldestStart := rfl
@[simp] theorem after_agenda (s : State) (d : Nat) (e : Event) : (s.after d e).agenda = insertDue (s.cycle + d) e s.agenda := rfl
@[simp] theorem after_turn (s : State) (d : Nat) (e : Event) : (s.after d e).turn = s.turn := rfl
@[simp] theorem after_popped (s : State) (d : Nat) (e : Event) : (s.after d e).popped = s.popped := rfl
@[simp] theorem after_left (s : State) (d : Nat) (e : Event) : (s.after d e).left = s.left := rfl
@[simp] theorem after_cur (s : State) (d : Nat) (e : Event) : (s.after d e).cur = s.cur := rfl
@[simp] theorem after_word (s : State) (d : Nat) (e : Event) : (s.after d e).word = s.word := rfl
@[simp] theorem after_probe (s : State) (d : Nat) (e : Event) : (s.after d e).probe = s.probe := rfl
@[simp] theorem after_fresh (s : State) (d : Nat) (e : Event) : (s.after d e).fresh = s.fresh := rfl
@[simp] theorem after_nextUid (s : State) (d : Nat) (e : Event) : (s.after d e).nextUid = s.nextUid := rfl
@[simp] theorem after_nextStore (s : State) (d : Nat) (e : Event) : (s.after d e).nextStore = s.nextStore := rfl
@[simp] theorem after_nextReq (s : State) (d : Nat) (e : Event) : (s.after d e).nextReq = s.nextReq := rfl

@[simp] theorem later_cycle (s : State) (e : Event) : (s.later e).cycle = s.cycle := rfl
@[simp] theorem later_node (s : State) (e : Event) : (s.later e).node = s.node := rfl
@[simp] theorem later_retired (s : State) (e : Event) : (s.later e).retired = s.retired := rfl
@[simp] theorem later_full (s : State) (e : Event) : (s.later e).full = s.full := rfl
@[simp] theorem later_fwRun (s : State) (e : Event) : (s.later e).fwRun = s.fwRun := rfl
@[simp] theorem later_atdone (s : State) (e : Event) : (s.later e).atdone = s.atdone := rfl
@[simp] theorem later_asidrtBase (s : State) (e : Event) : (s.later e).asidrtBase = s.asidrtBase := rfl
@[simp] theorem later_asidrtEn (s : State) (e : Event) : (s.later e).asidrtEn = s.asidrtEn := rfl
@[simp] theorem later_cwBase (s : State) (e : Event) : (s.later e).cwBase = s.cwBase := rfl
@[simp] theorem later_cwEn (s : State) (e : Event) : (s.later e).cwEn = s.cwEn := rfl
@[simp] theorem later_pctlMode (s : State) (e : Event) : (s.later e).pctlMode = s.pctlMode := rfl
@[simp] theorem later_pctlBudget (s : State) (e : Event) : (s.later e).pctlBudget = s.pctlBudget := rfl
@[simp] theorem later_modeNow (s : State) (e : Event) : (s.later e).modeNow = s.modeNow := rfl
@[simp] theorem later_islandStep (s : State) (e : Event) : (s.later e).islandStep = s.islandStep := rfl
@[simp] theorem later_atreqAddr (s : State) (e : Event) : (s.later e).atreqAddr = s.atreqAddr := rfl
@[simp] theorem later_atreqBusy (s : State) (e : Event) : (s.later e).atreqBusy = s.atreqBusy := rfl
@[simp] theorem later_reportCount (s : State) (e : Event) : (s.later e).reportCount = s.reportCount := rfl
@[simp] theorem later_seq (s : State) (e : Event) : (s.later e).seq = s.seq := rfl
@[simp] theorem later_fences (s : State) (e : Event) : (s.later e).fences = s.fences := rfl
@[simp] theorem later_hostQ (s : State) (e : Event) : (s.later e).hostQ = s.hostQ := rfl
@[simp] theorem later_cxlOn (s : State) (e : Event) : (s.later e).cxlOn = s.cxlOn := rfl
@[simp] theorem later_hostHeld (s : State) (e : Event) : (s.later e).hostHeld = s.hostHeld := rfl
@[simp] theorem later_linksDown (s : State) (e : Event) : (s.later e).linksDown = s.linksDown := rfl
@[simp] theorem later_walk (s : State) (e : Event) : (s.later e).walk = s.walk := rfl
@[simp] theorem later_queues (s : State) (e : Event) : (s.later e).queues = s.queues := rfl
@[simp] theorem later_mem (s : State) (e : Event) : (s.later e).mem = s.mem := rfl
@[simp] theorem later_poison (s : State) (e : Event) : (s.later e).poison = s.poison := rfl
@[simp] theorem later_frames (s : State) (e : Event) : (s.later e).frames = s.frames := rfl
@[simp] theorem later_frameBad (s : State) (e : Event) : (s.later e).frameBad = s.frameBad := rfl
@[simp] theorem later_l2 (s : State) (e : Event) : (s.later e).l2 = s.l2 := rfl
@[simp] theorem later_home (s : State) (e : Event) : (s.later e).home = s.home := rfl
@[simp] theorem later_parts (s : State) (e : Event) : (s.later e).parts = s.parts := rfl
@[simp] theorem later_priv (s : State) (e : Event) : (s.later e).priv = s.priv := rfl
@[simp] theorem later_specVec (s : State) (e : Event) : (s.later e).specVec = s.specVec := rfl
@[simp] theorem later_tlb (s : State) (e : Event) : (s.later e).tlb = s.tlb := rfl
@[simp] theorem later_tiles (s : State) (e : Event) : (s.later e).tiles = s.tiles := rfl
@[simp] theorem later_clusters (s : State) (e : Event) : (s.later e).clusters = s.clusters := rfl
@[simp] theorem later_blocks (s : State) (e : Event) : (s.later e).blocks = s.blocks := rfl
@[simp] theorem later_launches (s : State) (e : Event) : (s.later e).launches = s.launches := rfl
@[simp] theorem later_specs (s : State) (e : Event) : (s.later e).specs = s.specs := rfl
@[simp] theorem later_ctxs (s : State) (e : Event) : (s.later e).ctxs = s.ctxs := rfl
@[simp] theorem later_kept (s : State) (e : Event) : (s.later e).kept = s.kept := rfl
@[simp] theorem later_stores (s : State) (e : Event) : (s.later e).stores = s.stores := rfl
@[simp] theorem later_remote (s : State) (e : Event) : (s.later e).remote = s.remote := rfl
@[simp] theorem later_watches (s : State) (e : Event) : (s.later e).watches = s.watches := rfl
@[simp] theorem later_outbox (s : State) (e : Event) : (s.later e).outbox = s.outbox := rfl
@[simp] theorem later_rounds (s : State) (e : Event) : (s.later e).rounds = s.rounds := rfl
@[simp] theorem later_killsUp (s : State) (e : Event) : (s.later e).killsUp = s.killsUp := rfl
@[simp] theorem later_oldestStart (s : State) (e : Event) : (s.later e).oldestStart = s.oldestStart := rfl
@[simp] theorem later_agenda (s : State) (e : Event) : (s.later e).agenda = insertDue (s.cycle + 1 + Config.latency s.fresh) e s.agenda := rfl
@[simp] theorem later_turn (s : State) (e : Event) : (s.later e).turn = s.turn := rfl
@[simp] theorem later_popped (s : State) (e : Event) : (s.later e).popped = s.popped := rfl
@[simp] theorem later_left (s : State) (e : Event) : (s.later e).left = s.left := rfl
@[simp] theorem later_cur (s : State) (e : Event) : (s.later e).cur = s.cur := rfl
@[simp] theorem later_word (s : State) (e : Event) : (s.later e).word = s.word := rfl
@[simp] theorem later_probe (s : State) (e : Event) : (s.later e).probe = s.probe := rfl
@[simp] theorem later_fresh (s : State) (e : Event) : (s.later e).fresh = s.fresh + 1 := rfl
@[simp] theorem later_nextUid (s : State) (e : Event) : (s.later e).nextUid = s.nextUid := rfl
@[simp] theorem later_nextStore (s : State) (e : Event) : (s.later e).nextStore = s.nextStore := rfl
@[simp] theorem later_nextReq (s : State) (e : Event) : (s.later e).nextReq = s.nextReq := rfl

@[simp] theorem laterBy_cycle (s : State) (n : Nat) (e : Event) : (s.laterBy n e).cycle = s.cycle := rfl
@[simp] theorem laterBy_node (s : State) (n : Nat) (e : Event) : (s.laterBy n e).node = s.node := rfl
@[simp] theorem laterBy_retired (s : State) (n : Nat) (e : Event) : (s.laterBy n e).retired = s.retired := rfl
@[simp] theorem laterBy_full (s : State) (n : Nat) (e : Event) : (s.laterBy n e).full = s.full := rfl
@[simp] theorem laterBy_fwRun (s : State) (n : Nat) (e : Event) : (s.laterBy n e).fwRun = s.fwRun := rfl
@[simp] theorem laterBy_atdone (s : State) (n : Nat) (e : Event) : (s.laterBy n e).atdone = s.atdone := rfl
@[simp] theorem laterBy_asidrtBase (s : State) (n : Nat) (e : Event) : (s.laterBy n e).asidrtBase = s.asidrtBase := rfl
@[simp] theorem laterBy_asidrtEn (s : State) (n : Nat) (e : Event) : (s.laterBy n e).asidrtEn = s.asidrtEn := rfl
@[simp] theorem laterBy_cwBase (s : State) (n : Nat) (e : Event) : (s.laterBy n e).cwBase = s.cwBase := rfl
@[simp] theorem laterBy_cwEn (s : State) (n : Nat) (e : Event) : (s.laterBy n e).cwEn = s.cwEn := rfl
@[simp] theorem laterBy_pctlMode (s : State) (n : Nat) (e : Event) : (s.laterBy n e).pctlMode = s.pctlMode := rfl
@[simp] theorem laterBy_pctlBudget (s : State) (n : Nat) (e : Event) : (s.laterBy n e).pctlBudget = s.pctlBudget := rfl
@[simp] theorem laterBy_modeNow (s : State) (n : Nat) (e : Event) : (s.laterBy n e).modeNow = s.modeNow := rfl
@[simp] theorem laterBy_islandStep (s : State) (n : Nat) (e : Event) : (s.laterBy n e).islandStep = s.islandStep := rfl
@[simp] theorem laterBy_atreqAddr (s : State) (n : Nat) (e : Event) : (s.laterBy n e).atreqAddr = s.atreqAddr := rfl
@[simp] theorem laterBy_atreqBusy (s : State) (n : Nat) (e : Event) : (s.laterBy n e).atreqBusy = s.atreqBusy := rfl
@[simp] theorem laterBy_reportCount (s : State) (n : Nat) (e : Event) : (s.laterBy n e).reportCount = s.reportCount := rfl
@[simp] theorem laterBy_seq (s : State) (n : Nat) (e : Event) : (s.laterBy n e).seq = s.seq := rfl
@[simp] theorem laterBy_fences (s : State) (n : Nat) (e : Event) : (s.laterBy n e).fences = s.fences := rfl
@[simp] theorem laterBy_hostQ (s : State) (n : Nat) (e : Event) : (s.laterBy n e).hostQ = s.hostQ := rfl
@[simp] theorem laterBy_cxlOn (s : State) (n : Nat) (e : Event) : (s.laterBy n e).cxlOn = s.cxlOn := rfl
@[simp] theorem laterBy_hostHeld (s : State) (n : Nat) (e : Event) : (s.laterBy n e).hostHeld = s.hostHeld := rfl
@[simp] theorem laterBy_linksDown (s : State) (n : Nat) (e : Event) : (s.laterBy n e).linksDown = s.linksDown := rfl
@[simp] theorem laterBy_walk (s : State) (n : Nat) (e : Event) : (s.laterBy n e).walk = s.walk := rfl
@[simp] theorem laterBy_queues (s : State) (n : Nat) (e : Event) : (s.laterBy n e).queues = s.queues := rfl
@[simp] theorem laterBy_mem (s : State) (n : Nat) (e : Event) : (s.laterBy n e).mem = s.mem := rfl
@[simp] theorem laterBy_poison (s : State) (n : Nat) (e : Event) : (s.laterBy n e).poison = s.poison := rfl
@[simp] theorem laterBy_frames (s : State) (n : Nat) (e : Event) : (s.laterBy n e).frames = s.frames := rfl
@[simp] theorem laterBy_frameBad (s : State) (n : Nat) (e : Event) : (s.laterBy n e).frameBad = s.frameBad := rfl
@[simp] theorem laterBy_l2 (s : State) (n : Nat) (e : Event) : (s.laterBy n e).l2 = s.l2 := rfl
@[simp] theorem laterBy_home (s : State) (n : Nat) (e : Event) : (s.laterBy n e).home = s.home := rfl
@[simp] theorem laterBy_parts (s : State) (n : Nat) (e : Event) : (s.laterBy n e).parts = s.parts := rfl
@[simp] theorem laterBy_priv (s : State) (n : Nat) (e : Event) : (s.laterBy n e).priv = s.priv := rfl
@[simp] theorem laterBy_specVec (s : State) (n : Nat) (e : Event) : (s.laterBy n e).specVec = s.specVec := rfl
@[simp] theorem laterBy_tlb (s : State) (n : Nat) (e : Event) : (s.laterBy n e).tlb = s.tlb := rfl
@[simp] theorem laterBy_tiles (s : State) (n : Nat) (e : Event) : (s.laterBy n e).tiles = s.tiles := rfl
@[simp] theorem laterBy_clusters (s : State) (n : Nat) (e : Event) : (s.laterBy n e).clusters = s.clusters := rfl
@[simp] theorem laterBy_blocks (s : State) (n : Nat) (e : Event) : (s.laterBy n e).blocks = s.blocks := rfl
@[simp] theorem laterBy_launches (s : State) (n : Nat) (e : Event) : (s.laterBy n e).launches = s.launches := rfl
@[simp] theorem laterBy_specs (s : State) (n : Nat) (e : Event) : (s.laterBy n e).specs = s.specs := rfl
@[simp] theorem laterBy_ctxs (s : State) (n : Nat) (e : Event) : (s.laterBy n e).ctxs = s.ctxs := rfl
@[simp] theorem laterBy_kept (s : State) (n : Nat) (e : Event) : (s.laterBy n e).kept = s.kept := rfl
@[simp] theorem laterBy_stores (s : State) (n : Nat) (e : Event) : (s.laterBy n e).stores = s.stores := rfl
@[simp] theorem laterBy_remote (s : State) (n : Nat) (e : Event) : (s.laterBy n e).remote = s.remote := rfl
@[simp] theorem laterBy_watches (s : State) (n : Nat) (e : Event) : (s.laterBy n e).watches = s.watches := rfl
@[simp] theorem laterBy_outbox (s : State) (n : Nat) (e : Event) : (s.laterBy n e).outbox = s.outbox := rfl
@[simp] theorem laterBy_rounds (s : State) (n : Nat) (e : Event) : (s.laterBy n e).rounds = s.rounds := rfl
@[simp] theorem laterBy_killsUp (s : State) (n : Nat) (e : Event) : (s.laterBy n e).killsUp = s.killsUp := rfl
@[simp] theorem laterBy_oldestStart (s : State) (n : Nat) (e : Event) : (s.laterBy n e).oldestStart = s.oldestStart := rfl
@[simp] theorem laterBy_agenda (s : State) (n : Nat) (e : Event) : (s.laterBy n e).agenda = insertDue (s.cycle + n + Config.latency s.fresh) e s.agenda := rfl
@[simp] theorem laterBy_turn (s : State) (n : Nat) (e : Event) : (s.laterBy n e).turn = s.turn := rfl
@[simp] theorem laterBy_popped (s : State) (n : Nat) (e : Event) : (s.laterBy n e).popped = s.popped := rfl
@[simp] theorem laterBy_left (s : State) (n : Nat) (e : Event) : (s.laterBy n e).left = s.left := rfl
@[simp] theorem laterBy_cur (s : State) (n : Nat) (e : Event) : (s.laterBy n e).cur = s.cur := rfl
@[simp] theorem laterBy_word (s : State) (n : Nat) (e : Event) : (s.laterBy n e).word = s.word := rfl
@[simp] theorem laterBy_probe (s : State) (n : Nat) (e : Event) : (s.laterBy n e).probe = s.probe := rfl
@[simp] theorem laterBy_fresh (s : State) (n : Nat) (e : Event) : (s.laterBy n e).fresh = s.fresh + 1 := rfl
@[simp] theorem laterBy_nextUid (s : State) (n : Nat) (e : Event) : (s.laterBy n e).nextUid = s.nextUid := rfl
@[simp] theorem laterBy_nextStore (s : State) (n : Nat) (e : Event) : (s.laterBy n e).nextStore = s.nextStore := rfl
@[simp] theorem laterBy_nextReq (s : State) (n : Nat) (e : Event) : (s.laterBy n e).nextReq = s.nextReq := rfl

@[simp] theorem tick_cycle (s : State) : (s.tick).cycle = s.cycle := rfl
@[simp] theorem tick_node (s : State) : (s.tick).node = s.node := rfl
@[simp] theorem tick_retired (s : State) : (s.tick).retired = s.retired := rfl
@[simp] theorem tick_full (s : State) : (s.tick).full = s.full := rfl
@[simp] theorem tick_fwRun (s : State) : (s.tick).fwRun = s.fwRun := rfl
@[simp] theorem tick_atdone (s : State) : (s.tick).atdone = s.atdone := rfl
@[simp] theorem tick_asidrtBase (s : State) : (s.tick).asidrtBase = s.asidrtBase := rfl
@[simp] theorem tick_asidrtEn (s : State) : (s.tick).asidrtEn = s.asidrtEn := rfl
@[simp] theorem tick_cwBase (s : State) : (s.tick).cwBase = s.cwBase := rfl
@[simp] theorem tick_cwEn (s : State) : (s.tick).cwEn = s.cwEn := rfl
@[simp] theorem tick_pctlMode (s : State) : (s.tick).pctlMode = s.pctlMode := rfl
@[simp] theorem tick_pctlBudget (s : State) : (s.tick).pctlBudget = s.pctlBudget := rfl
@[simp] theorem tick_modeNow (s : State) : (s.tick).modeNow = s.modeNow := rfl
@[simp] theorem tick_islandStep (s : State) : (s.tick).islandStep = s.islandStep := rfl
@[simp] theorem tick_atreqAddr (s : State) : (s.tick).atreqAddr = s.atreqAddr := rfl
@[simp] theorem tick_atreqBusy (s : State) : (s.tick).atreqBusy = s.atreqBusy := rfl
@[simp] theorem tick_reportCount (s : State) : (s.tick).reportCount = s.reportCount := rfl
@[simp] theorem tick_seq (s : State) : (s.tick).seq = s.seq := rfl
@[simp] theorem tick_fences (s : State) : (s.tick).fences = s.fences := rfl
@[simp] theorem tick_hostQ (s : State) : (s.tick).hostQ = s.hostQ := rfl
@[simp] theorem tick_cxlOn (s : State) : (s.tick).cxlOn = s.cxlOn := rfl
@[simp] theorem tick_hostHeld (s : State) : (s.tick).hostHeld = s.hostHeld := rfl
@[simp] theorem tick_linksDown (s : State) : (s.tick).linksDown = s.linksDown := rfl
@[simp] theorem tick_walk (s : State) : (s.tick).walk = s.walk := rfl
@[simp] theorem tick_queues (s : State) : (s.tick).queues = s.queues := rfl
@[simp] theorem tick_mem (s : State) : (s.tick).mem = s.mem := rfl
@[simp] theorem tick_poison (s : State) : (s.tick).poison = s.poison := rfl
@[simp] theorem tick_frames (s : State) : (s.tick).frames = s.frames := rfl
@[simp] theorem tick_frameBad (s : State) : (s.tick).frameBad = s.frameBad := rfl
@[simp] theorem tick_l2 (s : State) : (s.tick).l2 = s.l2 := rfl
@[simp] theorem tick_home (s : State) : (s.tick).home = s.home := rfl
@[simp] theorem tick_parts (s : State) : (s.tick).parts = s.parts := rfl
@[simp] theorem tick_priv (s : State) : (s.tick).priv = s.priv := rfl
@[simp] theorem tick_specVec (s : State) : (s.tick).specVec = s.specVec := rfl
@[simp] theorem tick_tlb (s : State) : (s.tick).tlb = s.tlb := rfl
@[simp] theorem tick_tiles (s : State) : (s.tick).tiles = s.tiles := rfl
@[simp] theorem tick_clusters (s : State) : (s.tick).clusters = s.clusters := rfl
@[simp] theorem tick_blocks (s : State) : (s.tick).blocks = s.blocks := rfl
@[simp] theorem tick_launches (s : State) : (s.tick).launches = s.launches := rfl
@[simp] theorem tick_specs (s : State) : (s.tick).specs = s.specs := rfl
@[simp] theorem tick_ctxs (s : State) : (s.tick).ctxs = s.ctxs := rfl
@[simp] theorem tick_kept (s : State) : (s.tick).kept = s.kept := rfl
@[simp] theorem tick_stores (s : State) : (s.tick).stores = s.stores := rfl
@[simp] theorem tick_remote (s : State) : (s.tick).remote = s.remote := rfl
@[simp] theorem tick_watches (s : State) : (s.tick).watches = s.watches := rfl
@[simp] theorem tick_outbox (s : State) : (s.tick).outbox = s.outbox := rfl
@[simp] theorem tick_rounds (s : State) : (s.tick).rounds = s.rounds := rfl
@[simp] theorem tick_killsUp (s : State) : (s.tick).killsUp = s.killsUp := rfl
@[simp] theorem tick_oldestStart (s : State) : (s.tick).oldestStart = s.oldestStart := rfl
@[simp] theorem tick_agenda (s : State) : (s.tick).agenda = s.agenda := rfl
@[simp] theorem tick_turn (s : State) : (s.tick).turn = s.turn := rfl
@[simp] theorem tick_popped (s : State) : (s.tick).popped = s.popped := rfl
@[simp] theorem tick_left (s : State) : (s.tick).left = s.left := rfl
@[simp] theorem tick_cur (s : State) : (s.tick).cur = s.cur := rfl
@[simp] theorem tick_word (s : State) : (s.tick).word = s.word := rfl
@[simp] theorem tick_probe (s : State) : (s.tick).probe = s.probe := rfl
@[simp] theorem tick_fresh (s : State) : (s.tick).fresh = s.fresh + 1 := rfl
@[simp] theorem tick_nextUid (s : State) : (s.tick).nextUid = s.nextUid := rfl
@[simp] theorem tick_nextStore (s : State) : (s.tick).nextStore = s.nextStore := rfl
@[simp] theorem tick_nextReq (s : State) : (s.tick).nextReq = s.nextReq := rfl

/-! ## Contexts and tiles -/

@[simp] theorem ctx_setCtx_self (s : State) (k : Nat) (c : Ctx) : (s.setCtx k c).ctx k = c := by
  simp [ctx]
theorem ctx_setCtx_ne (s : State) {j k : Nat} (c : Ctx) (h : j ≠ k) : (s.setCtx k c).ctx j = s.ctx j := by
  simp [ctx, AMap.get?_set_ne _ _ h]
@[simp] theorem ctx_setTile (s : State) (t : Nat) (x : TileS) (k : Nat) : (s.setTile t x).ctx k = s.ctx k := rfl
@[simp] theorem tile_setTile_self (s : State) (t : Nat) (x : TileS) : (s.setTile t x).tile t = x := by
  simp [tile]
theorem tile_setTile_ne (s : State) {j t : Nat} (x : TileS) (h : j ≠ t) : (s.setTile t x).tile j = s.tile j := by
  simp [tile, AMap.get?_set_ne _ _ h]
@[simp] theorem tile_setCtx (s : State) (k : Nat) (c : Ctx) (t : Nat) : (s.setCtx k c).tile t = s.tile t := rfl

@[simp] theorem setCtx_setCtx (s : State) (k : Nat) (a b : Ctx) : (s.setCtx k a).setCtx k b = s.setCtx k b := by
  simp [setCtx]
@[simp] theorem setTile_setTile (s : State) (t : Nat) (a b : TileS) : (s.setTile t a).setTile t b = s.setTile t b := by
  simp [setTile]
/-- Contexts are written before tiles. -/
@[simp] theorem setTile_setCtx (s : State) (t : Nat) (x : TileS) (k : Nat) (c : Ctx) :
    (s.setTile t x).setCtx k c = (s.setCtx k c).setTile t x := rfl

@[simp] theorem cx_setCtx_cur (s : State) (c : Ctx) : (s.setCtx s.cur c).cx = c := by simp [cx]
@[simp] theorem cx_setTile (s : State) (t : Nat) (x : TileS) : (s.setTile t x).cx = s.cx := rfl
@[simp] theorem here_setCtx (s : State) (k : Nat) (c : Ctx) : (s.setCtx k c).here = s.here := rfl
@[simp] theorem here_setTile (s : State) (t : Nat) (x : TileS) : (s.setTile t x).here = s.here := rfl
@[simp] theorem slot_setCtx (s : State) (k : Nat) (c : Ctx) : (s.setCtx k c).slot = s.slot := rfl
@[simp] theorem slot_setTile (s : State) (t : Nat) (x : TileS) : (s.setTile t x).slot = s.slot := rfl
@[simp] theorem inSystem_setCtx (s : State) (k : Nat) (c : Ctx) : (s.setCtx k c).inSystem = s.inSystem := rfl
@[simp] theorem inSystem_setTile (s : State) (t : Nat) (x : TileS) : (s.setTile t x).inSystem = s.inSystem := rfl

@[simp] theorem span_setCtx (s : State) (k : Nat) (c : Ctx) (t n : Nat) : (s.setCtx k c).span t n = s.span t n := rfl
@[simp] theorem span_setTile (s : State) (u : Nat) (x : TileS) (t n : Nat) : (s.setTile u x).span t n = s.span t n := rfl

/-! ## Issue -/

/-- Going on at a pc writes the running context's pc, status and next issue, and the tile's last slot. -/
theorem goTo_eq (s : State) (pc : BitVec 24) (sc : Stall) :
    s.goTo pc sc = (s.setCtx s.cur { s.cx with pc := pc, status := .ready, next := s.cycle + s.span s.here (stallCycles sc) }).setTile s.here
      { s.tile s.here with last := s.slot } := rfl

theorem retire_eq (s : State) (sc : Stall) : s.retire sc = s.goTo (nextPc s.cx.pc) sc := rfl

end Sys2Proof.Machine.State
end

