-- ==== Sys2Proof/Laws/Operands.lean ====
section
/-!
SUPPORT. The issue test: an instruction whose operands are ready goes on at once in the same state.
-/
namespace Sys2Proof.Machine.State

theorem headReady_ready (s : State) (port : Nat) (e : AheadElt) (k : State → State) (h : s.elementReady e = true) :
    s.headReady port e k = k s := by
  simp only [elementReady, Bool.and_eq_true, decide_eq_true_eq, Bool.not_eq_true', Option.isNone_iff_eq_none] at h
  simp [headReady, h.1.1.1.1, h.1.1.1.2, h.1.1.2, h.2, Nat.not_lt.2]

theorem elementReady_stale {s : State} {e : AheadElt} (h : s.elementReady e = true) : e.stale = false := by
  simp only [elementReady, Bool.and_eq_true, Bool.not_eq_true'] at h
  exact h.1.2

theorem portsIn_ready (s : State) (k : State → State) (rs : List Reg) (h : rs.all s.readReady = true) :
    s.portsIn k rs = k s := by
  induction rs with
  | nil => rfl
  | cons n rest ih =>
    simp only [List.all_cons, Bool.and_eq_true] at h
    simp only [portsIn]
    by_cases hs : s.inSystem
    · simp [hs]
    · have h1 := h.1
      simp only [readReady, hs] at h1
      simp only [hs, ih h.2]
      by_cases hp : streamPort n
      · have h52 : n ≠ 52#6 := by rintro rfl; simp [streamPort] at hp
        have h53 : n ≠ 53#6 := by rintro rfl; simp [streamPort] at hp
        simp only [hp] at h1 ⊢
        by_cases hb : sbd s.cx (n.toNat - 48) = 1
        · simp only [hb] at h1 ⊢
          by_cases hc : strCount s.cx.stream[(n.toNat - 48) % 4] = 0
          · simp [hc, h52, h53]
          · simp [hc] at h1 ⊢
            cases ha : aheadOf s.cx (n.toNat - 48) with
            | none => simp [ha] at h1
            | some e =>
              simp only [ha] at h1 ⊢
              simp only [elementReady_stale h1, Bool.false_eq_true, if_false]
              exact (s.headReady_ready _ e _ h1).trans (ih h.2)
        · simp [hb, h52, h53]
      · simp only [hp] at h1 ⊢
        by_cases h52 : n = 52#6
        · simp [h52] at h1 ⊢; simp [h1]
        · by_cases h53 : n = 53#6
          · simp [h53] at h1 ⊢
            split at h1 <;> rename_i hq <;> simp [hq] at h1 ⊢
            simp [h1.2]
          · simp [h52, h53]

theorem portsOut_ready (s : State) (k : State → State) (rs : List Reg) (h : rs.all s.writeReady = true) :
    s.portsOut k rs = k s := by
  induction rs with
  | nil => rfl
  | cons n rest ih =>
    simp only [List.all_cons, Bool.and_eq_true] at h
    simp only [portsOut]
    by_cases hs : s.inSystem
    · simp [hs]
    · have h1 := h.1
      simp only [writeReady, hs] at h1
      simp only [hs, ih h.2]
      by_cases hp : streamPort n
      · have h52 : n ≠ 52#6 := by rintro rfl; simp [streamPort] at hp
        have h54 : n ≠ 54#6 := by rintro rfl; simp [streamPort] at hp
        simp [hp] at h1
        simp [h1, h52, h54]
      · simp only [hp] at h1 ⊢
        by_cases h52 : n = 52#6
        · simp [h52] at h1 ⊢; simp [h1]
        · by_cases h53 : n = 53#6
          · simp [h53]
          · by_cases h54 : n = 54#6
            · simp [h54] at h1 ⊢
              cases hq : s.pushTarget with
              | none => simp [hq] at h1
              | some nb => simp [hq] at h1 ⊢; simp [h1, Nat.not_le.2 h1.2.1]
            · simp [h52, h54]

theorem portIllegal_issues (s : State) (reads writes : List Reg)
    (ho : (s.ordered && (reads ++ writes).any s.usesPort) = false)
    (hr : reads.all s.readReady = true) (hw : writes.all s.writeReady = true) : s.portIllegal reads writes = false := by
  by_cases hs : s.inSystem
  · simp [portIllegal, hs]
  · have ho' : (s.ordered && (reads ++ writes).any fun n => n == 52 || n == 53 || n == 54 ||
        (streamPort n && sbd s.cx (n.toNat - 48) != 0)) = false := ho
    simp only [portIllegal, ho', hs, Bool.not_false, Bool.true_and, Bool.false_or]
    simp only [Bool.or_eq_false_iff, List.any_eq_false, List.all_eq_true] at hr hw ⊢
    refine ⟨fun n hn => ?_, fun n hn => ?_⟩
    · have := hr n hn
      simp only [readReady, hs, Bool.false_or] at this
      by_cases hp : streamPort n
      · have h53 : n ≠ 53#6 := by rintro rfl; simp [streamPort] at hp
        simp only [hp, if_true] at this
        split at this <;> simp_all
      · by_cases h52 : n = 52#6
        · subst h52; simp [streamPort]
        · by_cases h53 : n = 53#6
          · subst h53; simp [streamPort] at this ⊢; simp [this]
          · simp [hp, h53]
    · have := hw n hn
      simp only [writeReady, hs, Bool.false_or] at this
      by_cases hp : streamPort n
      · have h53 : n ≠ 53#6 := by rintro rfl; simp [streamPort] at hp
        have h54 : n ≠ 54#6 := by rintro rfl; simp [streamPort] at hp
        simp [hp] at this
        simp [this, h53, h54]
      · by_cases h52 : n = 52#6
        · subst h52; simp [streamPort]
        · by_cases h53 : n = 53#6
          · subst h53; simp [streamPort] at this ⊢; simp [this]
          · by_cases h54 : n = 54#6
            · subst h54; simp [streamPort] at this ⊢; simp [this]
            · simp [hp, h53, h54]

/-- An instruction whose operands are ready goes on at once, in the same state. -/
theorem gate_issues (s : State) (reads writes : List RegRef) (k : State → State) (h : s.issues reads writes = true) :
    s.gate reads writes k = k s := by
  simp only [issues, Bool.and_eq_true, Bool.not_eq_true', List.all_eq_true] at h
  obtain ⟨⟨⟨he, ho⟩, hr⟩, hw⟩ := h
  have hp := portIllegal_issues s _ _ ho (List.all_eq_true.2 hr) (List.all_eq_true.2 hw)
  have hf : (reads ++ writes).find? s.fixedEmpty = none := by
    rw [List.find?_eq_none]; intro r hr; simp [(he r hr).1]
  have hv : (reads ++ writes).any s.variableEmpty = false := by
    rw [List.any_eq_false]; intro r hr; simp [(he r hr).2]
  simp only [gate, hp, hf, hv]
  simp only [Bool.false_eq_true, if_false]
  rw [portsIn_ready s _ _ (List.all_eq_true.2 hr), portsOut_ready s _ _ (List.all_eq_true.2 hw)]

/-- A scalar operation that issues completes with its result. -/
theorem scalarOp_issues (s : State) (reads : List Reg) (d : Reg) (lat : Latency) (sc : Stall) (f : State → Word)
    (h : s.issues (reads.map .w) [.w d] = true) : s.scalarOp reads d lat sc f = s.scalarDone reads d (f s) lat sc := by
  simp only [scalarOp, gate_issues s _ _ _ h, scalarDone]

theorem op2_issues (s : State) (d a b : Reg) (lat : Latency) (sc : Stall) (f : Word → Word → Word)
    (h : s.issues [.w a, .w b] [.w d] = true) : s.op2 d a b lat sc f = s.scalarDone [a, b] d (f (s.rd a) (s.rd b)) lat sc :=
  scalarOp_issues s [a, b] d lat sc _ h

theorem op1_issues (s : State) (d a : Reg) (lat : Latency) (sc : Stall) (f : Word → Word)
    (h : s.issues [.w a] [.w d] = true) : s.op1 d a lat sc f = s.scalarDone [a] d (f (s.rd a)) lat sc :=
  scalarOp_issues s [a] d lat sc _ h

end Sys2Proof.Machine.State
end

