-- ==== Sys2Proof/Laws/PerInstr.lean ====
section
/-!
SUPPORT. One lemma per constructor of Instr: decoding the word of a well-formed instruction gives the instruction back
(R89..R114). Events have no word.
-/
set_option linter.unusedSimpArgs false
set_option Elab.async false
namespace Sys2Proof.Laws.Encoding

/-- Decoding the word of a well-formed instruction gives the instruction. -/
def Statement (i : Instr) : Prop := ∀ w, i.wellFormed = true → encode i = some w → decodeWord w = .ok i

theorem add (d a b sc) : Statement (.add d a b sc) := by
  intro w h e; cases e; rw [decodeWord_1 _ (fOp_packR ..)]; (rw [decodeInt_0 _ (fFn_packR ..)]; simp [fA_packR, fB_packR, fD_packR, fSc_packR, need])
theorem sub (d a b sc) : Statement (.sub d a b sc) := by
  intro w h e; cases e; rw [decodeWord_1 _ (fOp_packR ..)]; (rw [decodeInt_1 _ (fFn_packR ..)]; simp [fA_packR, fB_packR, fD_packR, fSc_packR, need])
theorem and (d a b sc) : Statement (.and d a b sc) := by
  intro w h e; cases e; rw [decodeWord_1 _ (fOp_packR ..)]; (rw [decodeInt_2 _ (fFn_packR ..)]; simp [fA_packR, fB_packR, fD_packR, fSc_packR, need])
theorem or (d a b sc) : Statement (.or d a b sc) := by
  intro w h e; cases e; rw [decodeWord_1 _ (fOp_packR ..)]; (rw [decodeInt_3 _ (fFn_packR ..)]; simp [fA_packR, fB_packR, fD_packR, fSc_packR, need])
theorem xor (d a b sc) : Statement (.xor d a b sc) := by
  intro w h e; cases e; rw [decodeWord_1 _ (fOp_packR ..)]; (rw [decodeInt_4 _ (fFn_packR ..)]; simp [fA_packR, fB_packR, fD_packR, fSc_packR, need])
theorem sll (d a b sc) : Statement (.sll d a b sc) := by
  intro w h e; cases e; rw [decodeWord_1 _ (fOp_packR ..)]; (rw [decodeInt_5 _ (fFn_packR ..)]; simp [fA_packR, fB_packR, fD_packR, fSc_packR, need])
theorem srl (d a b sc) : Statement (.srl d a b sc) := by
  intro w h e; cases e; rw [decodeWord_1 _ (fOp_packR ..)]; (rw [decodeInt_6 _ (fFn_packR ..)]; simp [fA_packR, fB_packR, fD_packR, fSc_packR, need])
theorem sra (d a b sc) : Statement (.sra d a b sc) := by
  intro w h e; cases e; rw [decodeWord_1 _ (fOp_packR ..)]; (rw [decodeInt_7 _ (fFn_packR ..)]; simp [fA_packR, fB_packR, fD_packR, fSc_packR, need])
theorem rol (d a b sc) : Statement (.rol d a b sc) := by
  intro w h e; cases e; rw [decodeWord_1 _ (fOp_packR ..)]; (rw [decodeInt_8 _ (fFn_packR ..)]; simp [fA_packR, fB_packR, fD_packR, fSc_packR, need])
theorem ror (d a b sc) : Statement (.ror d a b sc) := by
  intro w h e; cases e; rw [decodeWord_1 _ (fOp_packR ..)]; (rw [decodeInt_9 _ (fFn_packR ..)]; simp [fA_packR, fB_packR, fD_packR, fSc_packR, need])
theorem slt (d a b sc) : Statement (.slt d a b sc) := by
  intro w h e; cases e; rw [decodeWord_1 _ (fOp_packR ..)]; (rw [decodeInt_10 _ (fFn_packR ..)]; simp [fA_packR, fB_packR, fD_packR, fSc_packR, need])
theorem sltu (d a b sc) : Statement (.sltu d a b sc) := by
  intro w h e; cases e; rw [decodeWord_1 _ (fOp_packR ..)]; (rw [decodeInt_11 _ (fFn_packR ..)]; simp [fA_packR, fB_packR, fD_packR, fSc_packR, need])
theorem min (d a b sc) : Statement (.min d a b sc) := by
  intro w h e; cases e; rw [decodeWord_1 _ (fOp_packR ..)]; (rw [decodeInt_12 _ (fFn_packR ..)]; simp [fA_packR, fB_packR, fD_packR, fSc_packR, need])
theorem max (d a b sc) : Statement (.max d a b sc) := by
  intro w h e; cases e; rw [decodeWord_1 _ (fOp_packR ..)]; (rw [decodeInt_13 _ (fFn_packR ..)]; simp [fA_packR, fB_packR, fD_packR, fSc_packR, need])
theorem minu (d a b sc) : Statement (.minu d a b sc) := by
  intro w h e; cases e; rw [decodeWord_1 _ (fOp_packR ..)]; (rw [decodeInt_14 _ (fFn_packR ..)]; simp [fA_packR, fB_packR, fD_packR, fSc_packR, need])
theorem maxu (d a b sc) : Statement (.maxu d a b sc) := by
  intro w h e; cases e; rw [decodeWord_1 _ (fOp_packR ..)]; (rw [decodeInt_15 _ (fFn_packR ..)]; simp [fA_packR, fB_packR, fD_packR, fSc_packR, need])
theorem mul (d a b sc) : Statement (.mul d a b sc) := by
  intro w h e; cases e; rw [decodeWord_1 _ (fOp_packR ..)]; (rw [decodeInt_16 _ (fFn_packR ..)]; simp [fA_packR, fB_packR, fD_packR, fSc_packR, need])
theorem mulh (d a b sc) : Statement (.mulh d a b sc) := by
  intro w h e; cases e; rw [decodeWord_1 _ (fOp_packR ..)]; (rw [decodeInt_17 _ (fFn_packR ..)]; simp [fA_packR, fB_packR, fD_packR, fSc_packR, need])
theorem mulhu (d a b sc) : Statement (.mulhu d a b sc) := by
  intro w h e; cases e; rw [decodeWord_1 _ (fOp_packR ..)]; (rw [decodeInt_18 _ (fFn_packR ..)]; simp [fA_packR, fB_packR, fD_packR, fSc_packR, need])
theorem div (d a b sc) : Statement (.div d a b sc) := by
  intro w h e; cases e; rw [decodeWord_1 _ (fOp_packR ..)]; (rw [decodeInt_19 _ (fFn_packR ..)]; simp [fA_packR, fB_packR, fD_packR, fSc_packR, need])
theorem divu (d a b sc) : Statement (.divu d a b sc) := by
  intro w h e; cases e; rw [decodeWord_1 _ (fOp_packR ..)]; (rw [decodeInt_20 _ (fFn_packR ..)]; simp [fA_packR, fB_packR, fD_packR, fSc_packR, need])
theorem rem (d a b sc) : Statement (.rem d a b sc) := by
  intro w h e; cases e; rw [decodeWord_1 _ (fOp_packR ..)]; (rw [decodeInt_21 _ (fFn_packR ..)]; simp [fA_packR, fB_packR, fD_packR, fSc_packR, need])
theorem remu (d a b sc) : Statement (.remu d a b sc) := by
  intro w h e; cases e; rw [decodeWord_1 _ (fOp_packR ..)]; (rw [decodeInt_22 _ (fFn_packR ..)]; simp [fA_packR, fB_packR, fD_packR, fSc_packR, need])
theorem clz (d a sc) : Statement (.clz d a sc) := by
  intro w h e; cases e; rw [decodeWord_1 _ (fOp_packR ..)]; (rw [decodeInt_23 _ (fFn_packR ..)]; simp [fA_packR, fB_packR, fD_packR, fSc_packR, need])
theorem ctz (d a sc) : Statement (.ctz d a sc) := by
  intro w h e; cases e; rw [decodeWord_1 _ (fOp_packR ..)]; (rw [decodeInt_24 _ (fFn_packR ..)]; simp [fA_packR, fB_packR, fD_packR, fSc_packR, need])
theorem cpop (d a sc) : Statement (.cpop d a sc) := by
  intro w h e; cases e; rw [decodeWord_1 _ (fOp_packR ..)]; (rw [decodeInt_25 _ (fFn_packR ..)]; simp [fA_packR, fB_packR, fD_packR, fSc_packR, need])
theorem sextB (d a sc) : Statement (.sextB d a sc) := by
  intro w h e; cases e; rw [decodeWord_1 _ (fOp_packR ..)]; (rw [decodeInt_26 _ (fFn_packR ..)]; simp [fA_packR, fB_packR, fD_packR, fSc_packR, need])
theorem sextH (d a sc) : Statement (.sextH d a sc) := by
  intro w h e; cases e; rw [decodeWord_1 _ (fOp_packR ..)]; (rw [decodeInt_27 _ (fFn_packR ..)]; simp [fA_packR, fB_packR, fD_packR, fSc_packR, need])
theorem sextW (d a sc) : Statement (.sextW d a sc) := by
  intro w h e; cases e; rw [decodeWord_1 _ (fOp_packR ..)]; (rw [decodeInt_28 _ (fFn_packR ..)]; simp [fA_packR, fB_packR, fD_packR, fSc_packR, need])
theorem zextB (d a sc) : Statement (.zextB d a sc) := by
  intro w h e; cases e; rw [decodeWord_1 _ (fOp_packR ..)]; (rw [decodeInt_29 _ (fFn_packR ..)]; simp [fA_packR, fB_packR, fD_packR, fSc_packR, need])
theorem zextH (d a sc) : Statement (.zextH d a sc) := by
  intro w h e; cases e; rw [decodeWord_1 _ (fOp_packR ..)]; (rw [decodeInt_30 _ (fFn_packR ..)]; simp [fA_packR, fB_packR, fD_packR, fSc_packR, need])
theorem zextW (d a sc) : Statement (.zextW d a sc) := by
  intro w h e; cases e; rw [decodeWord_1 _ (fOp_packR ..)]; (rw [decodeInt_31 _ (fFn_packR ..)]; simp [fA_packR, fB_packR, fD_packR, fSc_packR, need])
theorem addi (d a imm sc) : Statement (.addi d a imm sc) := by
  intro w h e; cases e; rw [decodeWord_2 _ (fOp_packI ..)]; (simp [fA_packI, fD_packI, fImm12_packI, fSc_packI, need])
theorem andi (d a imm sc) : Statement (.andi d a imm sc) := by
  intro w h e; cases e; rw [decodeWord_3 _ (fOp_packI ..)]; (simp [fA_packI, fD_packI, fImm12_packI, fSc_packI, need])
theorem ori (d a imm sc) : Statement (.ori d a imm sc) := by
  intro w h e; cases e; rw [decodeWord_4 _ (fOp_packI ..)]; (simp [fA_packI, fD_packI, fImm12_packI, fSc_packI, need])
theorem xori (d a imm sc) : Statement (.xori d a imm sc) := by
  intro w h e; cases e; rw [decodeWord_5 _ (fOp_packI ..)]; (simp [fA_packI, fD_packI, fImm12_packI, fSc_packI, need])
theorem slti (d a imm sc) : Statement (.slti d a imm sc) := by
  intro w h e; cases e; rw [decodeWord_6 _ (fOp_packI ..)]; (simp [fA_packI, fD_packI, fImm12_packI, fSc_packI, need])
theorem sltiu (d a imm sc) : Statement (.sltiu d a imm sc) := by
  intro w h e; cases e; rw [decodeWord_7 _ (fOp_packI ..)]; (simp [fA_packI, fD_packI, fImm12_packI, fSc_packI, need])
theorem slli (d a sh sc) : Statement (.slli d a sh sc) := by
  intro w h e; cases e; rw [decodeWord_8 _ (fOp_packR ..)]; (simp [fA_packR, fB_packR, fD_packR, fLo6_packR, fSc_packR, need])
theorem srli (d a sh sc) : Statement (.srli d a sh sc) := by
  intro w h e; cases e; rw [decodeWord_9 _ (fOp_packR ..)]; (simp [fA_packR, fB_packR, fD_packR, fLo6_packR, fSc_packR, need])
theorem srai (d a sh sc) : Statement (.srai d a sh sc) := by
  intro w h e; cases e; rw [decodeWord_10 _ (fOp_packR ..)]; (simp [fA_packR, fB_packR, fD_packR, fLo6_packR, fSc_packR, need])
theorem ext (d a pos len1 sc) : Statement (.ext d a pos len1 sc) := by
  intro w h e; replace h : (Sys2Proof.fieldFits pos len1) = true := h; cases e; rw [decodeWord_11 _ (fOp_packR ..)]; (simp [fA_packR, fB_packR, fD_packR, fLo6_packR, fSc_packR, need, h]; try exact h)
theorem exts (d a pos len1 sc) : Statement (.exts d a pos len1 sc) := by
  intro w h e; replace h : (Sys2Proof.fieldFits pos len1) = true := h; cases e; rw [decodeWord_12 _ (fOp_packR ..)]; (simp [fA_packR, fB_packR, fD_packR, fLo6_packR, fSc_packR, need, h]; try exact h)
theorem ins (d a pos len1 sc) : Statement (.ins d a pos len1 sc) := by
  intro w h e; replace h : (Sys2Proof.fieldFits pos len1) = true := h; cases e; rw [decodeWord_13 _ (fOp_packR ..)]; (simp [fA_packR, fB_packR, fD_packR, fLo6_packR, fSc_packR, need, h]; try exact h)
theorem lui (d imm sc) : Statement (.lui d imm sc) := by
  intro w h e; cases e; rw [decodeWord_14 _ (fOp_packL ..)]; (simp [fD_packL, fImm18_packL, fSc_packL, need])
theorem lsi (d imm sc) : Statement (.lsi d imm sc) := by
  intro w h e; cases e; rw [decodeWord_15 _ (fOp_packL ..)]; (simp [fD_packL, fImm16_packL, fImm18Hi_packL, fSc_packL, need])
theorem ld (sz d a imm6 sc) : Statement (.ld sz d a imm6 sc) := by
  intro w h e; replace h : (sz.pairOk d) = true := h; cases sz
  · cases e; change decodeWord (packM 16 d a imm6 0 0 sc) = _; rw [decodeWord_16 _ (fOp_packM ..)]; (rw [decodeMem_0 _ _ (fOrder_packM ..)]; simp [fA_packM, fB_packM, fD_packM, fSc_packM, fScopeBits_packM, need, h, pairOk]; try exact h)
  · cases e; change decodeWord (packM 17 d a imm6 0 0 sc) = _; rw [decodeWord_17 _ (fOp_packM ..)]; (rw [decodeMem_0 _ _ (fOrder_packM ..)]; simp [fA_packM, fB_packM, fD_packM, fSc_packM, fScopeBits_packM, need, h, pairOk]; try exact h)
  · cases e; change decodeWord (packM 18 d a imm6 0 0 sc) = _; rw [decodeWord_18 _ (fOp_packM ..)]; (rw [decodeMem_0 _ _ (fOrder_packM ..)]; simp [fA_packM, fB_packM, fD_packM, fSc_packM, fScopeBits_packM, need, h, pairOk]; try exact h)
  · cases e; change decodeWord (packM 19 d a imm6 0 0 sc) = _; rw [decodeWord_19 _ (fOp_packM ..)]; (rw [decodeMem_0 _ _ (fOrder_packM ..)]; simp [fA_packM, fB_packM, fD_packM, fSc_packM, fScopeBits_packM, need, h, pairOk]; try exact h)
  · cases e; change decodeWord (packM 20 d a imm6 0 0 sc) = _; rw [decodeWord_20 _ (fOp_packM ..)]; (rw [decodeMem_0 _ _ (fOrder_packM ..)]; simp [fA_packM, fB_packM, fD_packM, fSc_packM, fScopeBits_packM, need, h, pairOk]; try exact h)
theorem ldU (sz d a imm6 sc) : Statement (.ldU sz d a imm6 sc) := by
  intro w h e; replace h : (sz.narrow) = true := h; cases sz
  · cases e; change decodeWord (packM 16 d a imm6 0 1 sc) = _; rw [decodeWord_16 _ (fOp_packM ..)]; (rw [decodeMem_1 _ _ (fOrder_packM ..)]; simp [fA_packM, fB_packM, fD_packM, fSc_packM, fScopeBits_packM, need, h]; try exact h)
  · cases e; change decodeWord (packM 17 d a imm6 0 1 sc) = _; rw [decodeWord_17 _ (fOp_packM ..)]; (rw [decodeMem_1 _ _ (fOrder_packM ..)]; simp [fA_packM, fB_packM, fD_packM, fSc_packM, fScopeBits_packM, need, h]; try exact h)
  · cases e; change decodeWord (packM 18 d a imm6 0 1 sc) = _; rw [decodeWord_18 _ (fOp_packM ..)]; (rw [decodeMem_1 _ _ (fOrder_packM ..)]; simp [fA_packM, fB_packM, fD_packM, fSc_packM, fScopeBits_packM, need, h]; try exact h)
  · cases e; change decodeWord (packM 19 d a imm6 0 1 sc) = _; rw [decodeWord_19 _ (fOp_packM ..)]; (rw [decodeMem_1 _ _ (fOrder_packM ..)]; simp [fA_packM, fB_packM, fD_packM, fSc_packM, fScopeBits_packM, need, h]; try exact h)
  · cases e; change decodeWord (packM 20 d a imm6 0 1 sc) = _; rw [decodeWord_20 _ (fOp_packM ..)]; (rw [decodeMem_1 _ _ (fOrder_packM ..)]; simp [fA_packM, fB_packM, fD_packM, fSc_packM, fScopeBits_packM, need, h]; try exact h)
theorem ldAcq (sz d a imm6 scope sc) : Statement (.ldAcq sz d a imm6 scope sc) := by
  intro w h e; replace h : (sz.pairOk d) = true := h; cases sz
  · cases e; change decodeWord (packM 16 d a imm6 scope.bits 2 sc) = _; rw [decodeWord_16 _ (fOp_packM ..)]; cases scope <;> (rw [decodeMem_2 _ _ (fOrder_packM ..)]; simp [fA_packM, fB_packM, fD_packM, fSc_packM, fScopeBits_packM, need, withScope, Scope.bits, Scope.ofBits, h, pairOk]; try exact h)
  · cases e; change decodeWord (packM 17 d a imm6 scope.bits 2 sc) = _; rw [decodeWord_17 _ (fOp_packM ..)]; cases scope <;> (rw [decodeMem_2 _ _ (fOrder_packM ..)]; simp [fA_packM, fB_packM, fD_packM, fSc_packM, fScopeBits_packM, need, withScope, Scope.bits, Scope.ofBits, h, pairOk]; try exact h)
  · cases e; change decodeWord (packM 18 d a imm6 scope.bits 2 sc) = _; rw [decodeWord_18 _ (fOp_packM ..)]; cases scope <;> (rw [decodeMem_2 _ _ (fOrder_packM ..)]; simp [fA_packM, fB_packM, fD_packM, fSc_packM, fScopeBits_packM, need, withScope, Scope.bits, Scope.ofBits, h, pairOk]; try exact h)
  · cases e; change decodeWord (packM 19 d a imm6 scope.bits 2 sc) = _; rw [decodeWord_19 _ (fOp_packM ..)]; cases scope <;> (rw [decodeMem_2 _ _ (fOrder_packM ..)]; simp [fA_packM, fB_packM, fD_packM, fSc_packM, fScopeBits_packM, need, withScope, Scope.bits, Scope.ofBits, h, pairOk]; try exact h)
  · cases e; change decodeWord (packM 20 d a imm6 scope.bits 2 sc) = _; rw [decodeWord_20 _ (fOp_packM ..)]; cases scope <;> (rw [decodeMem_2 _ _ (fOrder_packM ..)]; simp [fA_packM, fB_packM, fD_packM, fSc_packM, fScopeBits_packM, need, withScope, Scope.bits, Scope.ofBits, h, pairOk]; try exact h)
theorem ldS (sz d a imm6 sc) : Statement (.ldS sz d a imm6 sc) := by
  intro w h e; replace h : (sz.symbolic) = true := h; cases sz
  · cases e; change decodeWord (packM 16 d a imm6 0 3 sc) = _; rw [decodeWord_16 _ (fOp_packM ..)]; (rw [decodeMem_3 _ _ (fOrder_packM ..)]; simp [fA_packM, fB_packM, fD_packM, fSc_packM, fScopeBits_packM, need, h]; try exact h)
  · cases e; change decodeWord (packM 17 d a imm6 0 3 sc) = _; rw [decodeWord_17 _ (fOp_packM ..)]; (rw [decodeMem_3 _ _ (fOrder_packM ..)]; simp [fA_packM, fB_packM, fD_packM, fSc_packM, fScopeBits_packM, need, h]; try exact h)
  · cases e; change decodeWord (packM 18 d a imm6 0 3 sc) = _; rw [decodeWord_18 _ (fOp_packM ..)]; (rw [decodeMem_3 _ _ (fOrder_packM ..)]; simp [fA_packM, fB_packM, fD_packM, fSc_packM, fScopeBits_packM, need, h]; try exact h)
  · cases e; change decodeWord (packM 19 d a imm6 0 3 sc) = _; rw [decodeWord_19 _ (fOp_packM ..)]; (rw [decodeMem_3 _ _ (fOrder_packM ..)]; simp [fA_packM, fB_packM, fD_packM, fSc_packM, fScopeBits_packM, need, h]; try exact h)
  · cases e; change decodeWord (packM 20 d a imm6 0 3 sc) = _; rw [decodeWord_20 _ (fOp_packM ..)]; (rw [decodeMem_3 _ _ (fOrder_packM ..)]; simp [fA_packM, fB_packM, fD_packM, fSc_packM, fScopeBits_packM, need, h]; try exact h)
theorem ldDLong (d a imm sc) : Statement (.ldDLong d a imm sc) := by
  intro w h e; cases e; rw [decodeWord_21 _ (fOp_packI ..)]; (simp [fA_packI, fD_packI, fImm12_packI, fSc_packI, need])
theorem st (sz d a imm6 sc) : Statement (.st sz d a imm6 sc) := by
  intro w h e; replace h : (sz.pairOk d) = true := h; cases sz
  · cases e; change decodeWord (packM 16 d a imm6 0 4 sc) = _; rw [decodeWord_16 _ (fOp_packM ..)]; (rw [decodeMem_4 _ _ (fOrder_packM ..)]; simp [fA_packM, fB_packM, fD_packM, fSc_packM, fScopeBits_packM, need, h, pairOk]; try exact h)
  · cases e; change decodeWord (packM 17 d a imm6 0 4 sc) = _; rw [decodeWord_17 _ (fOp_packM ..)]; (rw [decodeMem_4 _ _ (fOrder_packM ..)]; simp [fA_packM, fB_packM, fD_packM, fSc_packM, fScopeBits_packM, need, h, pairOk]; try exact h)
  · cases e; change decodeWord (packM 18 d a imm6 0 4 sc) = _; rw [decodeWord_18 _ (fOp_packM ..)]; (rw [decodeMem_4 _ _ (fOrder_packM ..)]; simp [fA_packM, fB_packM, fD_packM, fSc_packM, fScopeBits_packM, need, h, pairOk]; try exact h)
  · cases e; change decodeWord (packM 19 d a imm6 0 4 sc) = _; rw [decodeWord_19 _ (fOp_packM ..)]; (rw [decodeMem_4 _ _ (fOrder_packM ..)]; simp [fA_packM, fB_packM, fD_packM, fSc_packM, fScopeBits_packM, need, h, pairOk]; try exact h)
  · cases e; change decodeWord (packM 20 d a imm6 0 4 sc) = _; rw [decodeWord_20 _ (fOp_packM ..)]; (rw [decodeMem_4 _ _ (fOrder_packM ..)]; simp [fA_packM, fB_packM, fD_packM, fSc_packM, fScopeBits_packM, need, h, pairOk]; try exact h)
theorem stRel (sz d a imm6 scope sc) : Statement (.stRel sz d a imm6 scope sc) := by
  intro w h e; replace h : (sz.pairOk d) = true := h; cases sz
  · cases e; change decodeWord (packM 16 d a imm6 scope.bits 5 sc) = _; rw [decodeWord_16 _ (fOp_packM ..)]; cases scope <;> (rw [decodeMem_5 _ _ (fOrder_packM ..)]; simp [fA_packM, fB_packM, fD_packM, fSc_packM, fScopeBits_packM, need, withScope, Scope.bits, Scope.ofBits, h, pairOk]; try exact h)
  · cases e; change decodeWord (packM 17 d a imm6 scope.bits 5 sc) = _; rw [decodeWord_17 _ (fOp_packM ..)]; cases scope <;> (rw [decodeMem_5 _ _ (fOrder_packM ..)]; simp [fA_packM, fB_packM, fD_packM, fSc_packM, fScopeBits_packM, need, withScope, Scope.bits, Scope.ofBits, h, pairOk]; try exact h)
  · cases e; change decodeWord (packM 18 d a imm6 scope.bits 5 sc) = _; rw [decodeWord_18 _ (fOp_packM ..)]; cases scope <;> (rw [decodeMem_5 _ _ (fOrder_packM ..)]; simp [fA_packM, fB_packM, fD_packM, fSc_packM, fScopeBits_packM, need, withScope, Scope.bits, Scope.ofBits, h, pairOk]; try exact h)
  · cases e; change decodeWord (packM 19 d a imm6 scope.bits 5 sc) = _; rw [decodeWord_19 _ (fOp_packM ..)]; cases scope <;> (rw [decodeMem_5 _ _ (fOrder_packM ..)]; simp [fA_packM, fB_packM, fD_packM, fSc_packM, fScopeBits_packM, need, withScope, Scope.bits, Scope.ofBits, h, pairOk]; try exact h)
  · cases e; change decodeWord (packM 20 d a imm6 scope.bits 5 sc) = _; rw [decodeWord_20 _ (fOp_packM ..)]; cases scope <;> (rw [decodeMem_5 _ _ (fOrder_packM ..)]; simp [fA_packM, fB_packM, fD_packM, fSc_packM, fScopeBits_packM, need, withScope, Scope.bits, Scope.ofBits, h, pairOk]; try exact h)
theorem stClr (sz d a imm6 sc) : Statement (.stClr sz d a imm6 sc) := by
  intro w h e; replace h : (sz.pairOk d) = true := h; cases sz
  · cases e; change decodeWord (packM 16 d a imm6 0 6 sc) = _; rw [decodeWord_16 _ (fOp_packM ..)]; (rw [decodeMem_6 _ _ (fOrder_packM ..)]; simp [fA_packM, fB_packM, fD_packM, fSc_packM, fScopeBits_packM, need, h, pairOk]; try exact h)
  · cases e; change decodeWord (packM 17 d a imm6 0 6 sc) = _; rw [decodeWord_17 _ (fOp_packM ..)]; (rw [decodeMem_6 _ _ (fOrder_packM ..)]; simp [fA_packM, fB_packM, fD_packM, fSc_packM, fScopeBits_packM, need, h, pairOk]; try exact h)
  · cases e; change decodeWord (packM 18 d a imm6 0 6 sc) = _; rw [decodeWord_18 _ (fOp_packM ..)]; (rw [decodeMem_6 _ _ (fOrder_packM ..)]; simp [fA_packM, fB_packM, fD_packM, fSc_packM, fScopeBits_packM, need, h, pairOk]; try exact h)
  · cases e; change decodeWord (packM 19 d a imm6 0 6 sc) = _; rw [decodeWord_19 _ (fOp_packM ..)]; (rw [decodeMem_6 _ _ (fOrder_packM ..)]; simp [fA_packM, fB_packM, fD_packM, fSc_packM, fScopeBits_packM, need, h, pairOk]; try exact h)
  · cases e; change decodeWord (packM 20 d a imm6 0 6 sc) = _; rw [decodeWord_20 _ (fOp_packM ..)]; (rw [decodeMem_6 _ _ (fOrder_packM ..)]; simp [fA_packM, fB_packM, fD_packM, fSc_packM, fScopeBits_packM, need, h, pairOk]; try exact h)
theorem stDLong (d a imm sc) : Statement (.stDLong d a imm sc) := by
  intro w h e; cases e; rw [decodeWord_22 _ (fOp_packI ..)]; (simp [fA_packI, fD_packI, fImm12_packI, fSc_packI, need])
theorem aadd (wd d a b scope sc) : Statement (.aadd wd d a b scope sc) := by
  intro w h e; cases wd
  · cases e; change decodeWord (packM 24 d a b scope.bits 0 sc) = _; rw [decodeWord_24 _ (fOp_packM ..)]; cases scope <;> (rw [decodeAtomic_0 _ _ (fOrder_packM ..)]; simp [fA_packM, fB_packM, fD_packM, fSc_packM, fScopeBits_packM, need, withScope, Scope.bits, Scope.ofBits])
  · cases e; change decodeWord (packM 25 d a b scope.bits 0 sc) = _; rw [decodeWord_25 _ (fOp_packM ..)]; cases scope <;> (rw [decodeAtomic_0 _ _ (fOrder_packM ..)]; simp [fA_packM, fB_packM, fD_packM, fSc_packM, fScopeBits_packM, need, withScope, Scope.bits, Scope.ofBits])
theorem aswap (wd d a b scope sc) : Statement (.aswap wd d a b scope sc) := by
  intro w h e; cases wd
  · cases e; change decodeWord (packM 24 d a b scope.bits 1 sc) = _; rw [decodeWord_24 _ (fOp_packM ..)]; cases scope <;> (rw [decodeAtomic_1 _ _ (fOrder_packM ..)]; simp [fA_packM, fB_packM, fD_packM, fSc_packM, fScopeBits_packM, need, withScope, Scope.bits, Scope.ofBits])
  · cases e; change decodeWord (packM 25 d a b scope.bits 1 sc) = _; rw [decodeWord_25 _ (fOp_packM ..)]; cases scope <;> (rw [decodeAtomic_1 _ _ (fOrder_packM ..)]; simp [fA_packM, fB_packM, fD_packM, fSc_packM, fScopeBits_packM, need, withScope, Scope.bits, Scope.ofBits])
theorem aand (wd d a b scope sc) : Statement (.aand wd d a b scope sc) := by
  intro w h e; cases wd
  · cases e; change decodeWord (packM 24 d a b scope.bits 2 sc) = _; rw [decodeWord_24 _ (fOp_packM ..)]; cases scope <;> (rw [decodeAtomic_2 _ _ (fOrder_packM ..)]; simp [fA_packM, fB_packM, fD_packM, fSc_packM, fScopeBits_packM, need, withScope, Scope.bits, Scope.ofBits])
  · cases e; change decodeWord (packM 25 d a b scope.bits 2 sc) = _; rw [decodeWord_25 _ (fOp_packM ..)]; cases scope <;> (rw [decodeAtomic_2 _ _ (fOrder_packM ..)]; simp [fA_packM, fB_packM, fD_packM, fSc_packM, fScopeBits_packM, need, withScope, Scope.bits, Scope.ofBits])
theorem aor (wd d a b scope sc) : Statement (.aor wd d a b scope sc) := by
  intro w h e; cases wd
  · cases e; change decodeWord (packM 24 d a b scope.bits 3 sc) = _; rw [decodeWord_24 _ (fOp_packM ..)]; cases scope <;> (rw [decodeAtomic_3 _ _ (fOrder_packM ..)]; simp [fA_packM, fB_packM, fD_packM, fSc_packM, fScopeBits_packM, need, withScope, Scope.bits, Scope.ofBits])
  · cases e; change decodeWord (packM 25 d a b scope.bits 3 sc) = _; rw [decodeWord_25 _ (fOp_packM ..)]; cases scope <;> (rw [decodeAtomic_3 _ _ (fOrder_packM ..)]; simp [fA_packM, fB_packM, fD_packM, fSc_packM, fScopeBits_packM, need, withScope, Scope.bits, Scope.ofBits])
theorem axor (wd d a b scope sc) : Statement (.axor wd d a b scope sc) := by
  intro w h e; cases wd
  · cases e; change decodeWord (packM 24 d a b scope.bits 4 sc) = _; rw [decodeWord_24 _ (fOp_packM ..)]; cases scope <;> (rw [decodeAtomic_4 _ _ (fOrder_packM ..)]; simp [fA_packM, fB_packM, fD_packM, fSc_packM, fScopeBits_packM, need, withScope, Scope.bits, Scope.ofBits])
  · cases e; change decodeWord (packM 25 d a b scope.bits 4 sc) = _; rw [decodeWord_25 _ (fOp_packM ..)]; cases scope <;> (rw [decodeAtomic_4 _ _ (fOrder_packM ..)]; simp [fA_packM, fB_packM, fD_packM, fSc_packM, fScopeBits_packM, need, withScope, Scope.bits, Scope.ofBits])
theorem amax (wd d a b scope sc) : Statement (.amax wd d a b scope sc) := by
  intro w h e; cases wd
  · cases e; change decodeWord (packM 24 d a b scope.bits 5 sc) = _; rw [decodeWord_24 _ (fOp_packM ..)]; cases scope <;> (rw [decodeAtomic_5 _ _ (fOrder_packM ..)]; simp [fA_packM, fB_packM, fD_packM, fSc_packM, fScopeBits_packM, need, withScope, Scope.bits, Scope.ofBits])
  · cases e; change decodeWord (packM 25 d a b scope.bits 5 sc) = _; rw [decodeWord_25 _ (fOp_packM ..)]; cases scope <;> (rw [decodeAtomic_5 _ _ (fOrder_packM ..)]; simp [fA_packM, fB_packM, fD_packM, fSc_packM, fScopeBits_packM, need, withScope, Scope.bits, Scope.ofBits])
theorem amin (wd d a b scope sc) : Statement (.amin wd d a b scope sc) := by
  intro w h e; cases wd
  · cases e; change decodeWord (packM 24 d a b scope.bits 6 sc) = _; rw [decodeWord_24 _ (fOp_packM ..)]; cases scope <;> (rw [decodeAtomic_6 _ _ (fOrder_packM ..)]; simp [fA_packM, fB_packM, fD_packM, fSc_packM, fScopeBits_packM, need, withScope, Scope.bits, Scope.ofBits])
  · cases e; change decodeWord (packM 25 d a b scope.bits 6 sc) = _; rw [decodeWord_25 _ (fOp_packM ..)]; cases scope <;> (rw [decodeAtomic_6 _ _ (fOrder_packM ..)]; simp [fA_packM, fB_packM, fD_packM, fSc_packM, fScopeBits_packM, need, withScope, Scope.bits, Scope.ofBits])
theorem amaxu (wd d a b scope sc) : Statement (.amaxu wd d a b scope sc) := by
  intro w h e; cases wd
  · cases e; change decodeWord (packM 24 d a b scope.bits 7 sc) = _; rw [decodeWord_24 _ (fOp_packM ..)]; cases scope <;> (rw [decodeAtomic_7 _ _ (fOrder_packM ..)]; simp [fA_packM, fB_packM, fD_packM, fSc_packM, fScopeBits_packM, need, withScope, Scope.bits, Scope.ofBits])
  · cases e; change decodeWord (packM 25 d a b scope.bits 7 sc) = _; rw [decodeWord_25 _ (fOp_packM ..)]; cases scope <;> (rw [decodeAtomic_7 _ _ (fOrder_packM ..)]; simp [fA_packM, fB_packM, fD_packM, fSc_packM, fScopeBits_packM, need, withScope, Scope.bits, Scope.ofBits])
theorem casD (d a b scope sc) : Statement (.casD d a b scope sc) := by
  intro w h e; replace h : (!Reg.isPort d) = true := h; (try simp only [Bool.and_eq_true, Bool.not_eq_true'] at h); cases e; rw [decodeWord_26 _ (fOp_packM ..)]; cases scope <;> (simp [fA_packM, fB_packM, fD_packM, fOrder_packM, fSc_packM, fScopeBits_packM, need, withScope, Scope.bits, Scope.ofBits, h, isPort, isPair]; try exact h)
theorem casQ (d a b scope sc) : Statement (.casQ d a b scope sc) := by
  intro w h e; replace h : (Reg.isPair d && Reg.isPair b) = true := h; (try simp only [Bool.and_eq_true, Bool.not_eq_true'] at h); cases e; rw [decodeWord_27 _ (fOp_packM ..)]; cases scope <;> (simp [fA_packM, fB_packM, fD_packM, fOrder_packM, fSc_packM, fScopeBits_packM, need, withScope, Scope.bits, Scope.ofBits, h, isPort, isPair]; try exact h)
theorem beq (a b off sc) : Statement (.beq a b off sc) := by
  intro w h e; cases e; rw [decodeWord_28 _ (fOp_packI ..)]; (simp [fA_packI, fD_packI, fImm12_packI, fSc_packI, need])
theorem bne (a b off sc) : Statement (.bne a b off sc) := by
  intro w h e; cases e; rw [decodeWord_29 _ (fOp_packI ..)]; (simp [fA_packI, fD_packI, fImm12_packI, fSc_packI, need])
theorem blt (a b off sc) : Statement (.blt a b off sc) := by
  intro w h e; cases e; rw [decodeWord_30 _ (fOp_packI ..)]; (simp [fA_packI, fD_packI, fImm12_packI, fSc_packI, need])
theorem bge (a b off sc) : Statement (.bge a b off sc) := by
  intro w h e; cases e; rw [decodeWord_31 _ (fOp_packI ..)]; (simp [fA_packI, fD_packI, fImm12_packI, fSc_packI, need])
theorem j (off sc) : Statement (.j off sc) := by
  intro w h e; cases e; rw [decodeWord_32 _ (fOp_packJ ..)]; (simp [fOff24_packJ, fSc_packJ, need])
theorem jal (off sc) : Statement (.jal off sc) := by
  intro w h e; cases e; rw [decodeWord_33 _ (fOp_packJ ..)]; (simp [fOff24_packJ, fSc_packJ, need])
theorem jalr (d a imm sc) : Statement (.jalr d a imm sc) := by
  intro w h e; cases e; rw [decodeWord_34 _ (fOp_packI ..)]; (simp [fA_packI, fD_packI, fImm12_packI, fSc_packI, need])
theorem spawn (d imm sc) : Statement (.spawn d imm sc) := by
  intro w h e; cases e; rw [decodeWord_35 _ (fOp_packL ..)]; (simp [fD_packL, fImm18_packL, fSc_packL, need])
theorem spawnf (imm sc) : Statement (.spawnf imm sc) := by
  intro w h e; cases e; rw [decodeWord_36 _ (fOp_packL ..)]; (simp [fD_packL, fImm18_packL, fSc_packL, need])
theorem tdone (sc) : Statement (.tdone sc) := by
  intro w h e; cases e; rw [decodeWord_37 _ (fOp_packR ..)]; (rw [decodeTask_0 _ (fFn_packR ..)]; simp [fA_packR, fB_packR, fD_packR, fSc_packR, need])
theorem tabort (sc) : Statement (.tabort sc) := by
  intro w h e; cases e; rw [decodeWord_37 _ (fOp_packR ..)]; (rw [decodeTask_1 _ (fFn_packR ..)]; simp [fA_packR, fB_packR, fD_packR, fSc_packR, need])
theorem tyield (sc) : Statement (.tyield sc) := by
  intro w h e; cases e; rw [decodeWord_37 _ (fOp_packR ..)]; (rw [decodeTask_2 _ (fFn_packR ..)]; simp [fA_packR, fB_packR, fD_packR, fSc_packR, need])
theorem spawnr (a b sc) : Statement (.spawnr a b sc) := by
  intro w h e; cases e; rw [decodeWord_37 _ (fOp_packR ..)]; (rw [decodeTask_3 _ (fFn_packR ..)]; simp [fA_packR, fB_packR, fD_packR, fSc_packR, need])
theorem spawnfr (a sc) : Statement (.spawnfr a sc) := by
  intro w h e; cases e; rw [decodeWord_37 _ (fOp_packR ..)]; (rw [decodeTask_4 _ (fFn_packR ..)]; simp [fA_packR, fB_packR, fD_packR, fSc_packR, need])
theorem crdeclD (a b sc) : Statement (.crdeclD a b sc) := by
  intro w h e; cases e; rw [decodeWord_38 _ (fOp_packR ..)]; (rw [decodePool_0 _ (fFn_packR ..)]; simp [fA_packR, fB_packR, fD_packR, fSc_packR, need])
theorem crdeclF32 (a b sc) : Statement (.crdeclF32 a b sc) := by
  intro w h e; cases e; rw [decodeWord_38 _ (fOp_packR ..)]; (rw [decodePool_1 _ (fFn_packR ..)]; simp [fA_packR, fB_packR, fD_packR, fSc_packR, need])
theorem crdeclF64 (a b sc) : Statement (.crdeclF64 a b sc) := by
  intro w h e; cases e; rw [decodeWord_38 _ (fOp_packR ..)]; (rw [decodePool_2 _ (fFn_packR ..)]; simp [fA_packR, fB_packR, fD_packR, fSc_packR, need])
theorem cradd (a b sc) : Statement (.cradd a b sc) := by
  intro w h e; cases e; rw [decodeWord_38 _ (fOp_packR ..)]; (rw [decodePool_3 _ (fFn_packR ..)]; simp [fA_packR, fB_packR, fD_packR, fSc_packR, need])
theorem poolget (d a sc) : Statement (.poolget d a sc) := by
  intro w h e; cases e; rw [decodeWord_38 _ (fOp_packR ..)]; (rw [decodePool_4 _ (fFn_packR ..)]; simp [fA_packR, fB_packR, fD_packR, fSc_packR, need])
theorem poolgetNf (d a sc) : Statement (.poolgetNf d a sc) := by
  intro w h e; cases e; rw [decodeWord_38 _ (fOp_packR ..)]; (rw [decodePool_5 _ (fFn_packR ..)]; simp [fA_packR, fB_packR, fD_packR, fSc_packR, need])
theorem poolput (a b sc) : Statement (.poolput a b sc) := by
  intro w h e; cases e; rw [decodeWord_38 _ (fOp_packR ..)]; (rw [decodePool_6 _ (fFn_packR ..)]; simp [fA_packR, fB_packR, fD_packR, fSc_packR, need])
theorem fadd (f d a b sc) : Statement (.fadd f d a b sc) := by
  intro w h e; cases f
  · cases e; change decodeWord (packR 40 d a b 0 sc) = _; rw [decodeWord_40 _ (fOp_packR ..)]; (rw [decodeFp_0 _ _ (fFn_packR ..)]; simp [fA_packR, fB_packR, fD_packR, fSc_packR, need])
  · cases e; change decodeWord (packR 41 d a b 0 sc) = _; rw [decodeWord_41 _ (fOp_packR ..)]; (rw [decodeFp_0 _ _ (fFn_packR ..)]; simp [fA_packR, fB_packR, fD_packR, fSc_packR, need])
theorem fsub (f d a b sc) : Statement (.fsub f d a b sc) := by
  intro w h e; cases f
  · cases e; change decodeWord (packR 40 d a b 1 sc) = _; rw [decodeWord_40 _ (fOp_packR ..)]; (rw [decodeFp_1 _ _ (fFn_packR ..)]; simp [fA_packR, fB_packR, fD_packR, fSc_packR, need])
  · cases e; change decodeWord (packR 41 d a b 1 sc) = _; rw [decodeWord_41 _ (fOp_packR ..)]; (rw [decodeFp_1 _ _ (fFn_packR ..)]; simp [fA_packR, fB_packR, fD_packR, fSc_packR, need])
theorem fmul (f d a b sc) : Statement (.fmul f d a b sc) := by
  intro w h e; cases f
  · cases e; change decodeWord (packR 40 d a b 2 sc) = _; rw [decodeWord_40 _ (fOp_packR ..)]; (rw [decodeFp_2 _ _ (fFn_packR ..)]; simp [fA_packR, fB_packR, fD_packR, fSc_packR, need])
  · cases e; change decodeWord (packR 41 d a b 2 sc) = _; rw [decodeWord_41 _ (fOp_packR ..)]; (rw [decodeFp_2 _ _ (fFn_packR ..)]; simp [fA_packR, fB_packR, fD_packR, fSc_packR, need])
theorem fdiv (f d a b sc) : Statement (.fdiv f d a b sc) := by
  intro w h e; cases f
  · cases e; change decodeWord (packR 40 d a b 3 sc) = _; rw [decodeWord_40 _ (fOp_packR ..)]; (rw [decodeFp_3 _ _ (fFn_packR ..)]; simp [fA_packR, fB_packR, fD_packR, fSc_packR, need])
  · cases e; change decodeWord (packR 41 d a b 3 sc) = _; rw [decodeWord_41 _ (fOp_packR ..)]; (rw [decodeFp_3 _ _ (fFn_packR ..)]; simp [fA_packR, fB_packR, fD_packR, fSc_packR, need])
theorem fsqrt (f d a sc) : Statement (.fsqrt f d a sc) := by
  intro w h e; cases f
  · cases e; change decodeWord (packR 40 d a 0 4 sc) = _; rw [decodeWord_40 _ (fOp_packR ..)]; (rw [decodeFp_4 _ _ (fFn_packR ..)]; simp [fA_packR, fB_packR, fD_packR, fSc_packR, need])
  · cases e; change decodeWord (packR 41 d a 0 4 sc) = _; rw [decodeWord_41 _ (fOp_packR ..)]; (rw [decodeFp_4 _ _ (fFn_packR ..)]; simp [fA_packR, fB_packR, fD_packR, fSc_packR, need])
theorem fmin (f d a b sc) : Statement (.fmin f d a b sc) := by
  intro w h e; cases f
  · cases e; change decodeWord (packR 40 d a b 5 sc) = _; rw [decodeWord_40 _ (fOp_packR ..)]; (rw [decodeFp_5 _ _ (fFn_packR ..)]; simp [fA_packR, fB_packR, fD_packR, fSc_packR, need])
  · cases e; change decodeWord (packR 41 d a b 5 sc) = _; rw [decodeWord_41 _ (fOp_packR ..)]; (rw [decodeFp_5 _ _ (fFn_packR ..)]; simp [fA_packR, fB_packR, fD_packR, fSc_packR, need])
theorem fmax (f d a b sc) : Statement (.fmax f d a b sc) := by
  intro w h e; cases f
  · cases e; change decodeWord (packR 40 d a b 6 sc) = _; rw [decodeWord_40 _ (fOp_packR ..)]; (rw [decodeFp_6 _ _ (fFn_packR ..)]; simp [fA_packR, fB_packR, fD_packR, fSc_packR, need])
  · cases e; change decodeWord (packR 41 d a b 6 sc) = _; rw [decodeWord_41 _ (fOp_packR ..)]; (rw [decodeFp_6 _ _ (fFn_packR ..)]; simp [fA_packR, fB_packR, fD_packR, fSc_packR, need])
theorem fmadd (f d a b sc) : Statement (.fmadd f d a b sc) := by
  intro w h e; cases f
  · cases e; change decodeWord (packR 40 d a b 7 sc) = _; rw [decodeWord_40 _ (fOp_packR ..)]; (rw [decodeFp_7 _ _ (fFn_packR ..)]; simp [fA_packR, fB_packR, fD_packR, fSc_packR, need])
  · cases e; change decodeWord (packR 41 d a b 7 sc) = _; rw [decodeWord_41 _ (fOp_packR ..)]; (rw [decodeFp_7 _ _ (fFn_packR ..)]; simp [fA_packR, fB_packR, fD_packR, fSc_packR, need])
theorem fmsub (f d a b sc) : Statement (.fmsub f d a b sc) := by
  intro w h e; cases f
  · cases e; change decodeWord (packR 40 d a b 8 sc) = _; rw [decodeWord_40 _ (fOp_packR ..)]; (rw [decodeFp_8 _ _ (fFn_packR ..)]; simp [fA_packR, fB_packR, fD_packR, fSc_packR, need])
  · cases e; change decodeWord (packR 41 d a b 8 sc) = _; rw [decodeWord_41 _ (fOp_packR ..)]; (rw [decodeFp_8 _ _ (fFn_packR ..)]; simp [fA_packR, fB_packR, fD_packR, fSc_packR, need])
theorem fnmadd (f d a b sc) : Statement (.fnmadd f d a b sc) := by
  intro w h e; cases f
  · cases e; change decodeWord (packR 40 d a b 9 sc) = _; rw [decodeWord_40 _ (fOp_packR ..)]; (rw [decodeFp_9 _ _ (fFn_packR ..)]; simp [fA_packR, fB_packR, fD_packR, fSc_packR, need])
  · cases e; change decodeWord (packR 41 d a b 9 sc) = _; rw [decodeWord_41 _ (fOp_packR ..)]; (rw [decodeFp_9 _ _ (fFn_packR ..)]; simp [fA_packR, fB_packR, fD_packR, fSc_packR, need])
theorem feq (f d a b sc) : Statement (.feq f d a b sc) := by
  intro w h e; cases f
  · cases e; change decodeWord (packR 40 d a b 10 sc) = _; rw [decodeWord_40 _ (fOp_packR ..)]; (rw [decodeFp_10 _ _ (fFn_packR ..)]; simp [fA_packR, fB_packR, fD_packR, fSc_packR, need])
  · cases e; change decodeWord (packR 41 d a b 10 sc) = _; rw [decodeWord_41 _ (fOp_packR ..)]; (rw [decodeFp_10 _ _ (fFn_packR ..)]; simp [fA_packR, fB_packR, fD_packR, fSc_packR, need])
theorem flt (f d a b sc) : Statement (.flt f d a b sc) := by
  intro w h e; cases f
  · cases e; change decodeWord (packR 40 d a b 11 sc) = _; rw [decodeWord_40 _ (fOp_packR ..)]; (rw [decodeFp_11 _ _ (fFn_packR ..)]; simp [fA_packR, fB_packR, fD_packR, fSc_packR, need])
  · cases e; change decodeWord (packR 41 d a b 11 sc) = _; rw [decodeWord_41 _ (fOp_packR ..)]; (rw [decodeFp_11 _ _ (fFn_packR ..)]; simp [fA_packR, fB_packR, fD_packR, fSc_packR, need])
theorem fle (f d a b sc) : Statement (.fle f d a b sc) := by
  intro w h e; cases f
  · cases e; change decodeWord (packR 40 d a b 12 sc) = _; rw [decodeWord_40 _ (fOp_packR ..)]; (rw [decodeFp_12 _ _ (fFn_packR ..)]; simp [fA_packR, fB_packR, fD_packR, fSc_packR, need])
  · cases e; change decodeWord (packR 41 d a b 12 sc) = _; rw [decodeWord_41 _ (fOp_packR ..)]; (rw [decodeFp_12 _ _ (fFn_packR ..)]; simp [fA_packR, fB_packR, fD_packR, fSc_packR, need])
theorem fclass (f d a sc) : Statement (.fclass f d a sc) := by
  intro w h e; cases f
  · cases e; change decodeWord (packR 40 d a 0 13 sc) = _; rw [decodeWord_40 _ (fOp_packR ..)]; (rw [decodeFp_13 _ _ (fFn_packR ..)]; simp [fA_packR, fB_packR, fD_packR, fSc_packR, need])
  · cases e; change decodeWord (packR 41 d a 0 13 sc) = _; rw [decodeWord_41 _ (fOp_packR ..)]; (rw [decodeFp_13 _ _ (fFn_packR ..)]; simp [fA_packR, fB_packR, fD_packR, fSc_packR, need])
theorem fneg (f d a sc) : Statement (.fneg f d a sc) := by
  intro w h e; cases f
  · cases e; change decodeWord (packR 40 d a 0 14 sc) = _; rw [decodeWord_40 _ (fOp_packR ..)]; (rw [decodeFp_14 _ _ (fFn_packR ..)]; simp [fA_packR, fB_packR, fD_packR, fSc_packR, need])
  · cases e; change decodeWord (packR 41 d a 0 14 sc) = _; rw [decodeWord_41 _ (fOp_packR ..)]; (rw [decodeFp_14 _ _ (fFn_packR ..)]; simp [fA_packR, fB_packR, fD_packR, fSc_packR, need])
theorem fabs (f d a sc) : Statement (.fabs f d a sc) := by
  intro w h e; cases f
  · cases e; change decodeWord (packR 40 d a 0 15 sc) = _; rw [decodeWord_40 _ (fOp_packR ..)]; (rw [decodeFp_15 _ _ (fFn_packR ..)]; simp [fA_packR, fB_packR, fD_packR, fSc_packR, need])
  · cases e; change decodeWord (packR 41 d a 0 15 sc) = _; rw [decodeWord_41 _ (fOp_packR ..)]; (rw [decodeFp_15 _ _ (fFn_packR ..)]; simp [fA_packR, fB_packR, fD_packR, fSc_packR, need])
theorem fcvt (dst src d a sc) : Statement (.fcvt dst src d a sc) := by
  intro w h e; replace h : (Sys2Proof.fcvtLegal dst src) = true := h; cases e; rw [decodeWord_42 _ (fOp_packR ..)]; (simp [fA_packR, fB_packR, fD_packR, fFnHi_packR, fFnLo_packR, fSc_packR, need, h]; try exact h)
theorem waclr (d sc) : Statement (.waclr d sc) := by
  intro w h e; cases e; rw [decodeWord_43 _ (fOp_packR ..)]; (rw [decodeWide_0 _ (fFn_packR ..)]; simp [fA_packR, fB_packR, fD_packR, fSc_packR, need])
theorem wadd (d a b sc) : Statement (.wadd d a b sc) := by
  intro w h e; cases e; rw [decodeWord_43 _ (fOp_packR ..)]; (rw [decodeWide_1 _ (fFn_packR ..)]; simp [fA_packR, fB_packR, fD_packR, fSc_packR, need])
theorem waddv (d va vb sc) : Statement (.waddv d va vb sc) := by
  intro w h e; cases e; rw [decodeWord_43 _ (fOp_packR ..)]; (rw [decodeWide_2 _ (fFn_packR ..)]; simp [fA_packR, fB_packR, fD_packR, fSc_packR, need])
theorem wsgn (d a sc) : Statement (.wsgn d a sc) := by
  intro w h e; cases e; rw [decodeWord_43 _ (fOp_packR ..)]; (rw [decodeWide_3 _ (fFn_packR ..)]; simp [fA_packR, fB_packR, fD_packR, fSc_packR, need])
theorem wrnd (d a sc) : Statement (.wrnd d a sc) := by
  intro w h e; cases e; rw [decodeWord_43 _ (fOp_packR ..)]; (rw [decodeWide_4 _ (fFn_packR ..)]; simp [fA_packR, fB_packR, fD_packR, fSc_packR, need])
theorem vaddFp (f vd va vb m sc) : Statement (.vaddFp f vd va vb m sc) := by
  intro w h e; cases f
  · cases e; change decodeWord (packV 48 vd va vb 0 m 0 sc) = _; rw [decodeWord_48 _ (fOp_packV ..)]; (rw [decodeMapA_0 _ _ (fVfn_packV ..)]; simp [fM_packV, fSc_packV, fVa_packV, fVb_packV, fVc_packV, fVd_packV, need])
  · cases e; change decodeWord (packV 49 vd va vb 0 m 0 sc) = _; rw [decodeWord_49 _ (fOp_packV ..)]; (rw [decodeMapA_0 _ _ (fVfn_packV ..)]; simp [fM_packV, fSc_packV, fVa_packV, fVb_packV, fVc_packV, fVd_packV, need])
  · cases e; change decodeWord (packV 50 vd va vb 0 m 0 sc) = _; rw [decodeWord_50 _ (fOp_packV ..)]; (rw [decodeMapA_0 _ _ (fVfn_packV ..)]; simp [fM_packV, fSc_packV, fVa_packV, fVb_packV, fVc_packV, fVd_packV, need])
  · cases e; change decodeWord (packV 51 vd va vb 0 m 0 sc) = _; rw [decodeWord_51 _ (fOp_packV ..)]; (rw [decodeMapA_0 _ _ (fVfn_packV ..)]; simp [fM_packV, fSc_packV, fVa_packV, fVb_packV, fVc_packV, fVd_packV, need])
theorem vsubFp (f vd va vb m sc) : Statement (.vsubFp f vd va vb m sc) := by
  intro w h e; cases f
  · cases e; change decodeWord (packV 48 vd va vb 0 m 1 sc) = _; rw [decodeWord_48 _ (fOp_packV ..)]; (rw [decodeMapA_1 _ _ (fVfn_packV ..)]; simp [fM_packV, fSc_packV, fVa_packV, fVb_packV, fVc_packV, fVd_packV, need])
  · cases e; change decodeWord (packV 49 vd va vb 0 m 1 sc) = _; rw [decodeWord_49 _ (fOp_packV ..)]; (rw [decodeMapA_1 _ _ (fVfn_packV ..)]; simp [fM_packV, fSc_packV, fVa_packV, fVb_packV, fVc_packV, fVd_packV, need])
  · cases e; change decodeWord (packV 50 vd va vb 0 m 1 sc) = _; rw [decodeWord_50 _ (fOp_packV ..)]; (rw [decodeMapA_1 _ _ (fVfn_packV ..)]; simp [fM_packV, fSc_packV, fVa_packV, fVb_packV, fVc_packV, fVd_packV, need])
  · cases e; change decodeWord (packV 51 vd va vb 0 m 1 sc) = _; rw [decodeWord_51 _ (fOp_packV ..)]; (rw [decodeMapA_1 _ _ (fVfn_packV ..)]; simp [fM_packV, fSc_packV, fVa_packV, fVb_packV, fVc_packV, fVd_packV, need])
theorem vmulFp (f vd va vb m sc) : Statement (.vmulFp f vd va vb m sc) := by
  intro w h e; cases f
  · cases e; change decodeWord (packV 48 vd va vb 0 m 2 sc) = _; rw [decodeWord_48 _ (fOp_packV ..)]; (rw [decodeMapA_2 _ _ (fVfn_packV ..)]; simp [fM_packV, fSc_packV, fVa_packV, fVb_packV, fVc_packV, fVd_packV, need])
  · cases e; change decodeWord (packV 49 vd va vb 0 m 2 sc) = _; rw [decodeWord_49 _ (fOp_packV ..)]; (rw [decodeMapA_2 _ _ (fVfn_packV ..)]; simp [fM_packV, fSc_packV, fVa_packV, fVb_packV, fVc_packV, fVd_packV, need])
  · cases e; change decodeWord (packV 50 vd va vb 0 m 2 sc) = _; rw [decodeWord_50 _ (fOp_packV ..)]; (rw [decodeMapA_2 _ _ (fVfn_packV ..)]; simp [fM_packV, fSc_packV, fVa_packV, fVb_packV, fVc_packV, fVd_packV, need])
  · cases e; change decodeWord (packV 51 vd va vb 0 m 2 sc) = _; rw [decodeWord_51 _ (fOp_packV ..)]; (rw [decodeMapA_2 _ _ (fVfn_packV ..)]; simp [fM_packV, fSc_packV, fVa_packV, fVb_packV, fVc_packV, fVd_packV, need])
theorem vfma (f vd va vb vc m sc) : Statement (.vfma f vd va vb vc m sc) := by
  intro w h e; cases f
  · cases e; change decodeWord (packV 48 vd va vb vc m 3 sc) = _; rw [decodeWord_48 _ (fOp_packV ..)]; (rw [decodeMapA_3 _ _ (fVfn_packV ..)]; simp [fM_packV, fSc_packV, fVa_packV, fVb_packV, fVc_packV, fVd_packV, need])
  · cases e; change decodeWord (packV 49 vd va vb vc m 3 sc) = _; rw [decodeWord_49 _ (fOp_packV ..)]; (rw [decodeMapA_3 _ _ (fVfn_packV ..)]; simp [fM_packV, fSc_packV, fVa_packV, fVb_packV, fVc_packV, fVd_packV, need])
  · cases e; change decodeWord (packV 50 vd va vb vc m 3 sc) = _; rw [decodeWord_50 _ (fOp_packV ..)]; (rw [decodeMapA_3 _ _ (fVfn_packV ..)]; simp [fM_packV, fSc_packV, fVa_packV, fVb_packV, fVc_packV, fVd_packV, need])
  · cases e; change decodeWord (packV 51 vd va vb vc m 3 sc) = _; rw [decodeWord_51 _ (fOp_packV ..)]; (rw [decodeMapA_3 _ _ (fVfn_packV ..)]; simp [fM_packV, fSc_packV, fVa_packV, fVb_packV, fVc_packV, fVd_packV, need])
theorem vfms (f vd va vb vc m sc) : Statement (.vfms f vd va vb vc m sc) := by
  intro w h e; cases f
  · cases e; change decodeWord (packV 48 vd va vb vc m 4 sc) = _; rw [decodeWord_48 _ (fOp_packV ..)]; (rw [decodeMapA_4 _ _ (fVfn_packV ..)]; simp [fM_packV, fSc_packV, fVa_packV, fVb_packV, fVc_packV, fVd_packV, need])
  · cases e; change decodeWord (packV 49 vd va vb vc m 4 sc) = _; rw [decodeWord_49 _ (fOp_packV ..)]; (rw [decodeMapA_4 _ _ (fVfn_packV ..)]; simp [fM_packV, fSc_packV, fVa_packV, fVb_packV, fVc_packV, fVd_packV, need])
  · cases e; change decodeWord (packV 50 vd va vb vc m 4 sc) = _; rw [decodeWord_50 _ (fOp_packV ..)]; (rw [decodeMapA_4 _ _ (fVfn_packV ..)]; simp [fM_packV, fSc_packV, fVa_packV, fVb_packV, fVc_packV, fVd_packV, need])
  · cases e; change decodeWord (packV 51 vd va vb vc m 4 sc) = _; rw [decodeWord_51 _ (fOp_packV ..)]; (rw [decodeMapA_4 _ _ (fVfn_packV ..)]; simp [fM_packV, fSc_packV, fVa_packV, fVb_packV, fVc_packV, fVd_packV, need])
theorem vdiv (f vd va vb m sc) : Statement (.vdiv f vd va vb m sc) := by
  intro w h e; cases f
  · cases e; change decodeWord (packV 48 vd va vb 0 m 5 sc) = _; rw [decodeWord_48 _ (fOp_packV ..)]; (rw [decodeMapA_5 _ _ (fVfn_packV ..)]; simp [fM_packV, fSc_packV, fVa_packV, fVb_packV, fVc_packV, fVd_packV, need])
  · cases e; change decodeWord (packV 49 vd va vb 0 m 5 sc) = _; rw [decodeWord_49 _ (fOp_packV ..)]; (rw [decodeMapA_5 _ _ (fVfn_packV ..)]; simp [fM_packV, fSc_packV, fVa_packV, fVb_packV, fVc_packV, fVd_packV, need])
  · cases e; change decodeWord (packV 50 vd va vb 0 m 5 sc) = _; rw [decodeWord_50 _ (fOp_packV ..)]; (rw [decodeMapA_5 _ _ (fVfn_packV ..)]; simp [fM_packV, fSc_packV, fVa_packV, fVb_packV, fVc_packV, fVd_packV, need])
  · cases e; change decodeWord (packV 51 vd va vb 0 m 5 sc) = _; rw [decodeWord_51 _ (fOp_packV ..)]; (rw [decodeMapA_5 _ _ (fVfn_packV ..)]; simp [fM_packV, fSc_packV, fVa_packV, fVb_packV, fVc_packV, fVd_packV, need])
theorem vsqrt (f vd va m sc) : Statement (.vsqrt f vd va m sc) := by
  intro w h e; cases f
  · cases e; change decodeWord (packV 48 vd va 0 0 m 6 sc) = _; rw [decodeWord_48 _ (fOp_packV ..)]; (rw [decodeMapA_6 _ _ (fVfn_packV ..)]; simp [fM_packV, fSc_packV, fVa_packV, fVb_packV, fVc_packV, fVd_packV, need])
  · cases e; change decodeWord (packV 49 vd va 0 0 m 6 sc) = _; rw [decodeWord_49 _ (fOp_packV ..)]; (rw [decodeMapA_6 _ _ (fVfn_packV ..)]; simp [fM_packV, fSc_packV, fVa_packV, fVb_packV, fVc_packV, fVd_packV, need])
  · cases e; change decodeWord (packV 50 vd va 0 0 m 6 sc) = _; rw [decodeWord_50 _ (fOp_packV ..)]; (rw [decodeMapA_6 _ _ (fVfn_packV ..)]; simp [fM_packV, fSc_packV, fVa_packV, fVb_packV, fVc_packV, fVd_packV, need])
  · cases e; change decodeWord (packV 51 vd va 0 0 m 6 sc) = _; rw [decodeWord_51 _ (fOp_packV ..)]; (rw [decodeMapA_6 _ _ (fVfn_packV ..)]; simp [fM_packV, fSc_packV, fVa_packV, fVb_packV, fVc_packV, fVd_packV, need])
theorem vminFp (f vd va vb m sc) : Statement (.vminFp f vd va vb m sc) := by
  intro w h e; cases f
  · cases e; change decodeWord (packV 48 vd va vb 0 m 7 sc) = _; rw [decodeWord_48 _ (fOp_packV ..)]; (rw [decodeMapA_7 _ _ (fVfn_packV ..)]; simp [fM_packV, fSc_packV, fVa_packV, fVb_packV, fVc_packV, fVd_packV, need])
  · cases e; change decodeWord (packV 49 vd va vb 0 m 7 sc) = _; rw [decodeWord_49 _ (fOp_packV ..)]; (rw [decodeMapA_7 _ _ (fVfn_packV ..)]; simp [fM_packV, fSc_packV, fVa_packV, fVb_packV, fVc_packV, fVd_packV, need])
  · cases e; change decodeWord (packV 50 vd va vb 0 m 7 sc) = _; rw [decodeWord_50 _ (fOp_packV ..)]; (rw [decodeMapA_7 _ _ (fVfn_packV ..)]; simp [fM_packV, fSc_packV, fVa_packV, fVb_packV, fVc_packV, fVd_packV, need])
  · cases e; change decodeWord (packV 51 vd va vb 0 m 7 sc) = _; rw [decodeWord_51 _ (fOp_packV ..)]; (rw [decodeMapA_7 _ _ (fVfn_packV ..)]; simp [fM_packV, fSc_packV, fVa_packV, fVb_packV, fVc_packV, fVd_packV, need])
theorem vmaxFp (f vd va vb m sc) : Statement (.vmaxFp f vd va vb m sc) := by
  intro w h e; cases f
  · cases e; change decodeWord (packV 48 vd va vb 0 m 8 sc) = _; rw [decodeWord_48 _ (fOp_packV ..)]; (rw [decodeMapA_8 _ _ (fVfn_packV ..)]; simp [fM_packV, fSc_packV, fVa_packV, fVb_packV, fVc_packV, fVd_packV, need])
  · cases e; change decodeWord (packV 49 vd va vb 0 m 8 sc) = _; rw [decodeWord_49 _ (fOp_packV ..)]; (rw [decodeMapA_8 _ _ (fVfn_packV ..)]; simp [fM_packV, fSc_packV, fVa_packV, fVb_packV, fVc_packV, fVd_packV, need])
  · cases e; change decodeWord (packV 50 vd va vb 0 m 8 sc) = _; rw [decodeWord_50 _ (fOp_packV ..)]; (rw [decodeMapA_8 _ _ (fVfn_packV ..)]; simp [fM_packV, fSc_packV, fVa_packV, fVb_packV, fVc_packV, fVd_packV, need])
  · cases e; change decodeWord (packV 51 vd va vb 0 m 8 sc) = _; rw [decodeWord_51 _ (fOp_packV ..)]; (rw [decodeMapA_8 _ _ (fVfn_packV ..)]; simp [fM_packV, fSc_packV, fVa_packV, fVb_packV, fVc_packV, fVd_packV, need])
theorem vabsFp (f vd va m sc) : Statement (.vabsFp f vd va m sc) := by
  intro w h e; cases f
  · cases e; change decodeWord (packV 48 vd va 0 0 m 9 sc) = _; rw [decodeWord_48 _ (fOp_packV ..)]; (rw [decodeMapA_9 _ _ (fVfn_packV ..)]; simp [fM_packV, fSc_packV, fVa_packV, fVb_packV, fVc_packV, fVd_packV, need])
  · cases e; change decodeWord (packV 49 vd va 0 0 m 9 sc) = _; rw [decodeWord_49 _ (fOp_packV ..)]; (rw [decodeMapA_9 _ _ (fVfn_packV ..)]; simp [fM_packV, fSc_packV, fVa_packV, fVb_packV, fVc_packV, fVd_packV, need])
  · cases e; change decodeWord (packV 50 vd va 0 0 m 9 sc) = _; rw [decodeWord_50 _ (fOp_packV ..)]; (rw [decodeMapA_9 _ _ (fVfn_packV ..)]; simp [fM_packV, fSc_packV, fVa_packV, fVb_packV, fVc_packV, fVd_packV, need])
  · cases e; change decodeWord (packV 51 vd va 0 0 m 9 sc) = _; rw [decodeWord_51 _ (fOp_packV ..)]; (rw [decodeMapA_9 _ _ (fVfn_packV ..)]; simp [fM_packV, fSc_packV, fVa_packV, fVb_packV, fVc_packV, fVd_packV, need])
theorem vnegFp (f vd va m sc) : Statement (.vnegFp f vd va m sc) := by
  intro w h e; cases f
  · cases e; change decodeWord (packV 48 vd va 0 0 m 10 sc) = _; rw [decodeWord_48 _ (fOp_packV ..)]; (rw [decodeMapA_10 _ _ (fVfn_packV ..)]; simp [fM_packV, fSc_packV, fVa_packV, fVb_packV, fVc_packV, fVd_packV, need])
  · cases e; change decodeWord (packV 49 vd va 0 0 m 10 sc) = _; rw [decodeWord_49 _ (fOp_packV ..)]; (rw [decodeMapA_10 _ _ (fVfn_packV ..)]; simp [fM_packV, fSc_packV, fVa_packV, fVb_packV, fVc_packV, fVd_packV, need])
  · cases e; change decodeWord (packV 50 vd va 0 0 m 10 sc) = _; rw [decodeWord_50 _ (fOp_packV ..)]; (rw [decodeMapA_10 _ _ (fVfn_packV ..)]; simp [fM_packV, fSc_packV, fVa_packV, fVb_packV, fVc_packV, fVd_packV, need])
  · cases e; change decodeWord (packV 51 vd va 0 0 m 10 sc) = _; rw [decodeWord_51 _ (fOp_packV ..)]; (rw [decodeMapA_10 _ _ (fVfn_packV ..)]; simp [fM_packV, fSc_packV, fVa_packV, fVb_packV, fVc_packV, fVd_packV, need])
theorem vcmpeqFp (f md va vb m sc) : Statement (.vcmpeqFp f md va vb m sc) := by
  intro w h e; cases f
  · cases e; change decodeWord (packV 48 (md.setWidth 4) va vb 0 m 11 sc) = _; rw [decodeWord_48 _ (fOp_packV ..)]; (rw [decodeMapA_11 _ _ (fVfn_packV ..)]; simp [fM_packV, fMd_packV, fSc_packV, fVa_packV, fVb_packV, fVc_packV, fVd3_packV, need])
  · cases e; change decodeWord (packV 49 (md.setWidth 4) va vb 0 m 11 sc) = _; rw [decodeWord_49 _ (fOp_packV ..)]; (rw [decodeMapA_11 _ _ (fVfn_packV ..)]; simp [fM_packV, fMd_packV, fSc_packV, fVa_packV, fVb_packV, fVc_packV, fVd3_packV, need])
  · cases e; change decodeWord (packV 50 (md.setWidth 4) va vb 0 m 11 sc) = _; rw [decodeWord_50 _ (fOp_packV ..)]; (rw [decodeMapA_11 _ _ (fVfn_packV ..)]; simp [fM_packV, fMd_packV, fSc_packV, fVa_packV, fVb_packV, fVc_packV, fVd3_packV, need])
  · cases e; change decodeWord (packV 51 (md.setWidth 4) va vb 0 m 11 sc) = _; rw [decodeWord_51 _ (fOp_packV ..)]; (rw [decodeMapA_11 _ _ (fVfn_packV ..)]; simp [fM_packV, fMd_packV, fSc_packV, fVa_packV, fVb_packV, fVc_packV, fVd3_packV, need])
theorem vcmpltFp (f md va vb m sc) : Statement (.vcmpltFp f md va vb m sc) := by
  intro w h e; cases f
  · cases e; change decodeWord (packV 48 (md.setWidth 4) va vb 0 m 12 sc) = _; rw [decodeWord_48 _ (fOp_packV ..)]; (rw [decodeMapA_12 _ _ (fVfn_packV ..)]; simp [fM_packV, fMd_packV, fSc_packV, fVa_packV, fVb_packV, fVc_packV, fVd3_packV, need])
  · cases e; change decodeWord (packV 49 (md.setWidth 4) va vb 0 m 12 sc) = _; rw [decodeWord_49 _ (fOp_packV ..)]; (rw [decodeMapA_12 _ _ (fVfn_packV ..)]; simp [fM_packV, fMd_packV, fSc_packV, fVa_packV, fVb_packV, fVc_packV, fVd3_packV, need])
  · cases e; change decodeWord (packV 50 (md.setWidth 4) va vb 0 m 12 sc) = _; rw [decodeWord_50 _ (fOp_packV ..)]; (rw [decodeMapA_12 _ _ (fVfn_packV ..)]; simp [fM_packV, fMd_packV, fSc_packV, fVa_packV, fVb_packV, fVc_packV, fVd3_packV, need])
  · cases e; change decodeWord (packV 51 (md.setWidth 4) va vb 0 m 12 sc) = _; rw [decodeWord_51 _ (fOp_packV ..)]; (rw [decodeMapA_12 _ _ (fVfn_packV ..)]; simp [fM_packV, fMd_packV, fSc_packV, fVa_packV, fVb_packV, fVc_packV, fVd3_packV, need])
theorem vcmple (f md va vb m sc) : Statement (.vcmple f md va vb m sc) := by
  intro w h e; cases f
  · cases e; change decodeWord (packV 48 (md.setWidth 4) va vb 0 m 13 sc) = _; rw [decodeWord_48 _ (fOp_packV ..)]; (rw [decodeMapA_13 _ _ (fVfn_packV ..)]; simp [fM_packV, fMd_packV, fSc_packV, fVa_packV, fVb_packV, fVc_packV, fVd3_packV, need])
  · cases e; change decodeWord (packV 49 (md.setWidth 4) va vb 0 m 13 sc) = _; rw [decodeWord_49 _ (fOp_packV ..)]; (rw [decodeMapA_13 _ _ (fVfn_packV ..)]; simp [fM_packV, fMd_packV, fSc_packV, fVa_packV, fVb_packV, fVc_packV, fVd3_packV, need])
  · cases e; change decodeWord (packV 50 (md.setWidth 4) va vb 0 m 13 sc) = _; rw [decodeWord_50 _ (fOp_packV ..)]; (rw [decodeMapA_13 _ _ (fVfn_packV ..)]; simp [fM_packV, fMd_packV, fSc_packV, fVa_packV, fVb_packV, fVc_packV, fVd3_packV, need])
  · cases e; change decodeWord (packV 51 (md.setWidth 4) va vb 0 m 13 sc) = _; rw [decodeWord_51 _ (fOp_packV ..)]; (rw [decodeMapA_13 _ _ (fVfn_packV ..)]; simp [fM_packV, fMd_packV, fSc_packV, fVa_packV, fVb_packV, fVc_packV, fVd3_packV, need])
theorem vredsumFp (f vd va m sc) : Statement (.vredsumFp f vd va m sc) := by
  intro w h e; cases f
  · cases e; change decodeWord (packV 48 vd va 0 0 m 14 sc) = _; rw [decodeWord_48 _ (fOp_packV ..)]; (rw [decodeMapA_14 _ _ (fVfn_packV ..)]; simp [fM_packV, fSc_packV, fVa_packV, fVb_packV, fVc_packV, fVd_packV, need])
  · cases e; change decodeWord (packV 49 vd va 0 0 m 14 sc) = _; rw [decodeWord_49 _ (fOp_packV ..)]; (rw [decodeMapA_14 _ _ (fVfn_packV ..)]; simp [fM_packV, fSc_packV, fVa_packV, fVb_packV, fVc_packV, fVd_packV, need])
  · cases e; change decodeWord (packV 50 vd va 0 0 m 14 sc) = _; rw [decodeWord_50 _ (fOp_packV ..)]; (rw [decodeMapA_14 _ _ (fVfn_packV ..)]; simp [fM_packV, fSc_packV, fVa_packV, fVb_packV, fVc_packV, fVd_packV, need])
  · cases e; change decodeWord (packV 51 vd va 0 0 m 14 sc) = _; rw [decodeWord_51 _ (fOp_packV ..)]; (rw [decodeMapA_14 _ _ (fVfn_packV ..)]; simp [fM_packV, fSc_packV, fVa_packV, fVb_packV, fVc_packV, fVd_packV, need])
theorem vredmin (f vd va m sc) : Statement (.vredmin f vd va m sc) := by
  intro w h e; cases f
  · cases e; change decodeWord (packV 48 vd va 0 0 m 15 sc) = _; rw [decodeWord_48 _ (fOp_packV ..)]; (rw [decodeMapA_15 _ _ (fVfn_packV ..)]; simp [fM_packV, fSc_packV, fVa_packV, fVb_packV, fVc_packV, fVd_packV, need])
  · cases e; change decodeWord (packV 49 vd va 0 0 m 15 sc) = _; rw [decodeWord_49 _ (fOp_packV ..)]; (rw [decodeMapA_15 _ _ (fVfn_packV ..)]; simp [fM_packV, fSc_packV, fVa_packV, fVb_packV, fVc_packV, fVd_packV, need])
  · cases e; change decodeWord (packV 50 vd va 0 0 m 15 sc) = _; rw [decodeWord_50 _ (fOp_packV ..)]; (rw [decodeMapA_15 _ _ (fVfn_packV ..)]; simp [fM_packV, fSc_packV, fVa_packV, fVb_packV, fVc_packV, fVd_packV, need])
  · cases e; change decodeWord (packV 51 vd va 0 0 m 15 sc) = _; rw [decodeWord_51 _ (fOp_packV ..)]; (rw [decodeMapA_15 _ _ (fVfn_packV ..)]; simp [fM_packV, fSc_packV, fVa_packV, fVb_packV, fVc_packV, fVd_packV, need])
theorem vredmax (f vd va m sc) : Statement (.vredmax f vd va m sc) := by
  intro w h e; cases f
  · cases e; change decodeWord (packV 48 vd va 0 0 m 16 sc) = _; rw [decodeWord_48 _ (fOp_packV ..)]; (rw [decodeMapA_16 _ _ (fVfn_packV ..)]; simp [fM_packV, fSc_packV, fVa_packV, fVb_packV, fVc_packV, fVd_packV, need])
  · cases e; change decodeWord (packV 49 vd va 0 0 m 16 sc) = _; rw [decodeWord_49 _ (fOp_packV ..)]; (rw [decodeMapA_16 _ _ (fVfn_packV ..)]; simp [fM_packV, fSc_packV, fVa_packV, fVb_packV, fVc_packV, fVd_packV, need])
  · cases e; change decodeWord (packV 50 vd va 0 0 m 16 sc) = _; rw [decodeWord_50 _ (fOp_packV ..)]; (rw [decodeMapA_16 _ _ (fVfn_packV ..)]; simp [fM_packV, fSc_packV, fVa_packV, fVb_packV, fVc_packV, fVd_packV, need])
  · cases e; change decodeWord (packV 51 vd va 0 0 m 16 sc) = _; rw [decodeWord_51 _ (fOp_packV ..)]; (rw [decodeMapA_16 _ _ (fVfn_packV ..)]; simp [fM_packV, fSc_packV, fVa_packV, fVb_packV, fVc_packV, fVd_packV, need])
theorem vaddInt (sz vd va vb m sc) : Statement (.vaddInt sz vd va vb m sc) := by
  intro w h e; cases e; rw [decodeWord_52 _ (fOp_packV ..)]; (rw [decodeMapB_0 _ (fVfn_packV ..)]; simp [fM_packV, fSc_packV, fVa_packV, fVb_packV, fVcHi_packV, fVd_packV, need, isz_packV])
theorem vsubInt (sz vd va vb m sc) : Statement (.vsubInt sz vd va vb m sc) := by
  intro w h e; cases e; rw [decodeWord_52 _ (fOp_packV ..)]; (rw [decodeMapB_1 _ (fVfn_packV ..)]; simp [fM_packV, fSc_packV, fVa_packV, fVb_packV, fVcHi_packV, fVd_packV, need, isz_packV])
theorem vmulInt (sz vd va vb m sc) : Statement (.vmulInt sz vd va vb m sc) := by
  intro w h e; cases e; rw [decodeWord_52 _ (fOp_packV ..)]; (rw [decodeMapB_2 _ (fVfn_packV ..)]; simp [fM_packV, fSc_packV, fVa_packV, fVb_packV, fVcHi_packV, fVd_packV, need, isz_packV])
theorem vminInt (sz vd va vb m sc) : Statement (.vminInt sz vd va vb m sc) := by
  intro w h e; cases e; rw [decodeWord_52 _ (fOp_packV ..)]; (rw [decodeMapB_3 _ (fVfn_packV ..)]; simp [fM_packV, fSc_packV, fVa_packV, fVb_packV, fVcHi_packV, fVd_packV, need, isz_packV])
theorem vmaxInt (sz vd va vb m sc) : Statement (.vmaxInt sz vd va vb m sc) := by
  intro w h e; cases e; rw [decodeWord_52 _ (fOp_packV ..)]; (rw [decodeMapB_4 _ (fVfn_packV ..)]; simp [fM_packV, fSc_packV, fVa_packV, fVb_packV, fVcHi_packV, fVd_packV, need, isz_packV])
theorem vminu (sz vd va vb m sc) : Statement (.vminu sz vd va vb m sc) := by
  intro w h e; cases e; rw [decodeWord_52 _ (fOp_packV ..)]; (rw [decodeMapB_5 _ (fVfn_packV ..)]; simp [fM_packV, fSc_packV, fVa_packV, fVb_packV, fVcHi_packV, fVd_packV, need, isz_packV])
theorem vmaxu (sz vd va vb m sc) : Statement (.vmaxu sz vd va vb m sc) := by
  intro w h e; cases e; rw [decodeWord_52 _ (fOp_packV ..)]; (rw [decodeMapB_6 _ (fVfn_packV ..)]; simp [fM_packV, fSc_packV, fVa_packV, fVb_packV, fVcHi_packV, fVd_packV, need, isz_packV])
theorem vand (sz vd va vb m sc) : Statement (.vand sz vd va vb m sc) := by
  intro w h e; cases e; rw [decodeWord_52 _ (fOp_packV ..)]; (rw [decodeMapB_7 _ (fVfn_packV ..)]; simp [fM_packV, fSc_packV, fVa_packV, fVb_packV, fVcHi_packV, fVd_packV, need, isz_packV])
theorem vor (sz vd va vb m sc) : Statement (.vor sz vd va vb m sc) := by
  intro w h e; cases e; rw [decodeWord_52 _ (fOp_packV ..)]; (rw [decodeMapB_8 _ (fVfn_packV ..)]; simp [fM_packV, fSc_packV, fVa_packV, fVb_packV, fVcHi_packV, fVd_packV, need, isz_packV])
theorem vxor (sz vd va vb m sc) : Statement (.vxor sz vd va vb m sc) := by
  intro w h e; cases e; rw [decodeWord_52 _ (fOp_packV ..)]; (rw [decodeMapB_9 _ (fVfn_packV ..)]; simp [fM_packV, fSc_packV, fVa_packV, fVb_packV, fVcHi_packV, fVd_packV, need, isz_packV])
theorem vsll (sz vd va vb m sc) : Statement (.vsll sz vd va vb m sc) := by
  intro w h e; cases e; rw [decodeWord_52 _ (fOp_packV ..)]; (rw [decodeMapB_10 _ (fVfn_packV ..)]; simp [fM_packV, fSc_packV, fVa_packV, fVb_packV, fVcHi_packV, fVd_packV, need, isz_packV])
theorem vsrl (sz vd va vb m sc) : Statement (.vsrl sz vd va vb m sc) := by
  intro w h e; cases e; rw [decodeWord_52 _ (fOp_packV ..)]; (rw [decodeMapB_11 _ (fVfn_packV ..)]; simp [fM_packV, fSc_packV, fVa_packV, fVb_packV, fVcHi_packV, fVd_packV, need, isz_packV])
theorem vsra (sz vd va vb m sc) : Statement (.vsra sz vd va vb m sc) := by
  intro w h e; cases e; rw [decodeWord_52 _ (fOp_packV ..)]; (rw [decodeMapB_12 _ (fVfn_packV ..)]; simp [fM_packV, fSc_packV, fVa_packV, fVb_packV, fVcHi_packV, fVd_packV, need, isz_packV])
theorem vcmpeqInt (sz md va vb m sc) : Statement (.vcmpeqInt sz md va vb m sc) := by
  intro w h e; cases e; rw [decodeWord_52 _ (fOp_packV ..)]; (rw [decodeMapB_13 _ (fVfn_packV ..)]; simp [fM_packV, fMd_packV, fSc_packV, fVa_packV, fVb_packV, fVcHi_packV, fVd3_packV, need, isz_packV])
theorem vcmpltInt (sz md va vb m sc) : Statement (.vcmpltInt sz md va vb m sc) := by
  intro w h e; cases e; rw [decodeWord_52 _ (fOp_packV ..)]; (rw [decodeMapB_14 _ (fVfn_packV ..)]; simp [fM_packV, fMd_packV, fSc_packV, fVa_packV, fVb_packV, fVcHi_packV, fVd3_packV, need, isz_packV])
theorem vcmpltu (sz md va vb m sc) : Statement (.vcmpltu sz md va vb m sc) := by
  intro w h e; cases e; rw [decodeWord_52 _ (fOp_packV ..)]; (rw [decodeMapB_15 _ (fVfn_packV ..)]; simp [fM_packV, fMd_packV, fSc_packV, fVa_packV, fVb_packV, fVcHi_packV, fVd3_packV, need, isz_packV])
theorem vredsumInt (sz vd va m sc) : Statement (.vredsumInt sz vd va m sc) := by
  intro w h e; cases e; rw [decodeWord_52 _ (fOp_packV ..)]; (rw [decodeMapB_16 _ (fVfn_packV ..)]; simp [fM_packV, fSc_packV, fVa_packV, fVb_packV, fVcHi_packV, fVd_packV, need, isz_packV])
theorem vabsInt (sz vd va m sc) : Statement (.vabsInt sz vd va m sc) := by
  intro w h e; cases e; rw [decodeWord_52 _ (fOp_packV ..)]; (rw [decodeMapB_17 _ (fVfn_packV ..)]; simp [fM_packV, fSc_packV, fVa_packV, fVb_packV, fVcHi_packV, fVd_packV, need, isz_packV])
theorem vnegInt (sz vd va m sc) : Statement (.vnegInt sz vd va m sc) := by
  intro w h e; cases e; rw [decodeWord_52 _ (fOp_packV ..)]; (rw [decodeMapB_18 _ (fVfn_packV ..)]; simp [fM_packV, fSc_packV, fVa_packV, fVb_packV, fVcHi_packV, fVd_packV, need, isz_packV])
theorem vcvt (src dst part sat vd va m sc) : Statement (.vcvt src dst part sat vd va m sc) := by
  intro w h e; replace h : (Sys2Proof.vcvtLegal src dst part sat) = true := h; cases e; rw [decodeWord_53 _ (fOp_packV ..)]; (simp [fM_packV, fPart_packV, fSat_packV, fSc_packV, fVa_packV, fVb_packV, fVc_packV, fVd_packV, fVfn4_packV, need, h]; try exact h)
theorem vshufD (vd va vb m sc) : Statement (.vshufD vd va vb m sc) := by
  intro w h e; cases e; rw [decodeWord_54 _ (fOp_packV ..)]; (rw [decodeMapC_0 _ (fVfn_packV ..)]; simp [fM_packV, fSc_packV, fVa_packV, fVb_packV, fVc_packV, fVd_packV, need])
theorem vshufW (vd va vb m sc) : Statement (.vshufW vd va vb m sc) := by
  intro w h e; cases e; rw [decodeWord_54 _ (fOp_packV ..)]; (rw [decodeMapC_1 _ (fVfn_packV ..)]; simp [fM_packV, fSc_packV, fVa_packV, fVb_packV, fVc_packV, fVd_packV, need])
theorem vshufB (vd va vb m sc) : Statement (.vshufB vd va vb m sc) := by
  intro w h e; cases e; rw [decodeWord_54 _ (fOp_packV ..)]; (rw [decodeMapC_2 _ (fVfn_packV ..)]; simp [fM_packV, fSc_packV, fVa_packV, fVb_packV, fVc_packV, fVd_packV, need])
theorem vselD (vd va vb m sc) : Statement (.vselD vd va vb m sc) := by
  intro w h e; cases e; rw [decodeWord_54 _ (fOp_packV ..)]; (rw [decodeMapC_3 _ (fVfn_packV ..)]; simp [fM_packV, fSc_packV, fVa_packV, fVb_packV, fVc_packV, fVd_packV, need])
theorem vselW (vd va vb m sc) : Statement (.vselW vd va vb m sc) := by
  intro w h e; cases e; rw [decodeWord_54 _ (fOp_packV ..)]; (rw [decodeMapC_4 _ (fVfn_packV ..)]; simp [fM_packV, fSc_packV, fVa_packV, fVb_packV, fVc_packV, fVd_packV, need])
theorem vbcastD (vd ws m sc) : Statement (.vbcastD vd ws m sc) := by
  intro w h e; cases e; rw [decodeWord_54 _ (fOp_packV ..)]; (rw [decodeMapC_5 _ (fVfn_packV ..)]; simp [fM_packV, fSc_packV, fVa_packV, fVbHi_packV, fVd_packV, fWs_packV, need])
theorem vbcastW (vd ws m sc) : Statement (.vbcastW vd ws m sc) := by
  intro w h e; cases e; rw [decodeWord_54 _ (fOp_packV ..)]; (rw [decodeMapC_6 _ (fVfn_packV ..)]; simp [fM_packV, fSc_packV, fVa_packV, fVbHi_packV, fVd_packV, fWs_packV, need])
theorem vextD (ws va k sc) : Statement (.vextD ws va k sc) := by
  intro w h e; replace h : (decide (k.toNat < 8)) = true := h; cases e; rw [decodeWord_54 _ (fOp_packV ..)]; (rw [decodeMapC_7 _ (fVfn_packV ..)]; simp [fM_packV, fSc_packV, fVa_packV, fVbHi_packV, fVd_packV, fWs_packV, need, h]; try exact h)
theorem vextW (ws va k sc) : Statement (.vextW ws va k sc) := by
  intro w h e; cases e; rw [decodeWord_54 _ (fOp_packV ..)]; (rw [decodeMapC_8 _ (fVfn_packV ..)]; simp [fM_packV, fSc_packV, fVa_packV, fVbHi_packV, fVd_packV, fWs_packV, need])
theorem vinsD (vd ws k sc) : Statement (.vinsD vd ws k sc) := by
  intro w h e; replace h : (decide (k.toNat < 8)) = true := h; cases e; rw [decodeWord_54 _ (fOp_packV ..)]; (rw [decodeMapC_9 _ (fVfn_packV ..)]; simp [fM_packV, fSc_packV, fVa_packV, fVbHi_packV, fVd_packV, fWs_packV, need, h]; try exact h)
theorem vinsW (vd ws k sc) : Statement (.vinsW vd ws k sc) := by
  intro w h e; cases e; rw [decodeWord_54 _ (fOp_packV ..)]; (rw [decodeMapC_10 _ (fVfn_packV ..)]; simp [fM_packV, fSc_packV, fVa_packV, fVbHi_packV, fVd_packV, fWs_packV, need])
theorem vmand (md ma mb sc) : Statement (.vmand md ma mb sc) := by
  intro w h e; cases e; rw [decodeWord_54 _ (fOp_packV ..)]; (rw [decodeMapC_11 _ (fVfn_packV ..)]; simp [fM_packV, fMa_packV, fMb_packV, fMd_packV, fSc_packV, fVa3_packV, fVb3_packV, fVc_packV, fVd3_packV, need])
theorem vmor (md ma mb sc) : Statement (.vmor md ma mb sc) := by
  intro w h e; cases e; rw [decodeWord_54 _ (fOp_packV ..)]; (rw [decodeMapC_12 _ (fVfn_packV ..)]; simp [fM_packV, fMa_packV, fMb_packV, fMd_packV, fSc_packV, fVa3_packV, fVb3_packV, fVc_packV, fVd3_packV, need])
theorem vmxor (md ma mb sc) : Statement (.vmxor md ma mb sc) := by
  intro w h e; cases e; rw [decodeWord_54 _ (fOp_packV ..)]; (rw [decodeMapC_13 _ (fVfn_packV ..)]; simp [fM_packV, fMa_packV, fMb_packV, fMd_packV, fSc_packV, fVa3_packV, fVb3_packV, fVc_packV, fVd3_packV, need])
theorem vmnot (md ma sc) : Statement (.vmnot md ma sc) := by
  intro w h e; cases e; rw [decodeWord_54 _ (fOp_packV ..)]; (rw [decodeMapC_14 _ (fVfn_packV ..)]; simp [fM_packV, fMa_packV, fMd_packV, fSc_packV, fVa3_packV, fVb_packV, fVc_packV, fVd3_packV, need])
theorem vmput (md ws sc) : Statement (.vmput md ws sc) := by
  intro w h e; cases e; rw [decodeWord_54 _ (fOp_packV ..)]; (rw [decodeMapC_15 _ (fVfn_packV ..)]; simp [fM_packV, fMd_packV, fSc_packV, fVa_packV, fVbHi_packV, fVd3_packV, fWs_packV, need])
theorem vmget (ws ma sc) : Statement (.vmget ws ma sc) := by
  intro w h e; cases e; rw [decodeWord_54 _ (fOp_packV ..)]; (rw [decodeMapC_16 _ (fVfn_packV ..)]; simp [fM_packV, fMa_packV, fSc_packV, fVa3_packV, fVbHi_packV, fVd_packV, fWs_packV, need])
theorem vmov (vd va m sc) : Statement (.vmov vd va m sc) := by
  intro w h e; cases e; rw [decodeWord_54 _ (fOp_packV ..)]; (rw [decodeMapC_17 _ (fVfn_packV ..)]; simp [fM_packV, fSc_packV, fVa_packV, fVb_packV, fVc_packV, fVd_packV, need])
theorem vld (vd ws sc) : Statement (.vld vd ws sc) := by
  intro w h e; cases e; rw [decodeWord_55 _ (fOp_packV ..)]; (rw [decodeVecMem_0 _ (fVfn_packV ..)]; simp [fM_packV, fSc_packV, fVa_packV, fVbHi_packV, fVd_packV, fWs_packV, need])
theorem vstD (vd ws m sc) : Statement (.vstD vd ws m sc) := by
  intro w h e; cases e; rw [decodeWord_55 _ (fOp_packV ..)]; (rw [decodeVecMem_1 _ (fVfn_packV ..)]; simp [fM_packV, fSc_packV, fVa_packV, fVbHi_packV, fVd_packV, fWs_packV, need])
theorem vstW (vd ws m sc) : Statement (.vstW vd ws m sc) := by
  intro w h e; cases e; rw [decodeWord_55 _ (fOp_packV ..)]; (rw [decodeVecMem_2 _ (fVfn_packV ..)]; simp [fM_packV, fSc_packV, fVa_packV, fVbHi_packV, fVd_packV, fWs_packV, need])
theorem vstB (vd ws m sc) : Statement (.vstB vd ws m sc) := by
  intro w h e; cases e; rw [decodeWord_55 _ (fOp_packV ..)]; (rw [decodeVecMem_3 _ (fVfn_packV ..)]; simp [fM_packV, fSc_packV, fVa_packV, fVbHi_packV, fVd_packV, fWs_packV, need])
theorem mlease (e sc) : Statement (.mlease e sc) := by
  intro w h e; cases e; rw [decodeWord_56 _ (fOp_packC ..)]; (rw [decodeReedbed_0 _ (fCmd_packC ..)]; simp [fCa_packC, fCb_packC, fE_packC, fEng_packC, fSc_packC, need])
theorem mrel (e sc) : Statement (.mrel e sc) := by
  intro w h e; cases e; rw [decodeWord_56 _ (fOp_packC ..)]; (rw [decodeReedbed_1 _ (fCmd_packC ..)]; simp [fCa_packC, fCb_packC, fE_packC, fEng_packC, fSc_packC, need])
theorem mfmt (e a b set sc) : Statement (.mfmt e a b set sc) := by
  intro w h e; cases e; rw [decodeWord_56 _ (fOp_packC ..)]; (rw [decodeReedbed_2 _ (fCmd_packC ..)]; simp [fCa_packC, fCb_packC, fE_packC, fEngHi_packC, fSc_packC, fSet_packC, need])
theorem mgeo (e a set sc) : Statement (.mgeo e a set sc) := by
  intro w h e; cases e; rw [decodeWord_56 _ (fOp_packC ..)]; (rw [decodeReedbed_3 _ (fCmd_packC ..)]; simp [fCa_packC, fCb_packC, fE_packC, fEngHi_packC, fSc_packC, fSet_packC, need])
theorem mloadw (e a b set sc) : Statement (.mloadw e a b set sc) := by
  intro w h e; cases e; rw [decodeWord_56 _ (fOp_packC ..)]; (rw [decodeReedbed_4 _ (fCmd_packC ..)]; simp [fCa_packC, fCb_packC, fE_packC, fEngHi_packC, fSc_packC, fSet_packC, need])
theorem mswap (e sc) : Statement (.mswap e sc) := by
  intro w h e; cases e; rw [decodeWord_56 _ (fOp_packC ..)]; (rw [decodeReedbed_5 _ (fCmd_packC ..)]; simp [fCa_packC, fCb_packC, fE_packC, fEng_packC, fSc_packC, need])
theorem mstream (e a b src sc) : Statement (.mstream e a b src sc) := by
  intro w h e; cases e; rw [decodeWord_56 _ (fOp_packC ..)]; cases src <;> (rw [decodeReedbed_6 _ (fCmd_packC ..)]; simp [fCa_packC, fCb_packC, fE_packC, fEngH_packC, fEngHi_packC, fH_packC, fSc_packC, fSet_packC, need, fSrc, srcLegal, EngSrc.bits])
theorem mdrain (e sc) : Statement (.mdrain e sc) := by
  intro w h e; cases e; rw [decodeWord_56 _ (fOp_packC ..)]; (rw [decodeReedbed_7 _ (fCmd_packC ..)]; simp [fCa_packC, fCb_packC, fE_packC, fEng_packC, fSc_packC, need])
theorem gather (e a b src sc) : Statement (.gather e a b src sc) := by
  intro w h e; cases e; rw [decodeWord_57 _ (fOp_packC ..)]; cases src <;> (rw [decodeHeron_0 _ (fCmd_packC ..)]; simp [fCa_packC, fCb_packC, fE_packC, fEngH_packC, fEngHi_packC, fH_packC, fSc_packC, fSet_packC, need, fSrc, srcLegal, EngSrc.bits])
theorem scatter (e a b src sc) : Statement (.scatter e a b src sc) := by
  intro w h e; cases e; rw [decodeWord_57 _ (fOp_packC ..)]; cases src <;> (rw [decodeHeron_1 _ (fCmd_packC ..)]; simp [fCa_packC, fCb_packC, fE_packC, fEngH_packC, fEngHi_packC, fH_packC, fSc_packC, fSet_packC, need, fSrc, srcLegal, EngSrc.bits])
theorem scatterAdd (e a b src sc) : Statement (.scatterAdd e a b src sc) := by
  intro w h e; cases e; rw [decodeWord_57 _ (fOp_packC ..)]; cases src <;> (rw [decodeHeron_2 _ (fCmd_packC ..)]; simp [fCa_packC, fCb_packC, fE_packC, fEngH_packC, fEngHi_packC, fH_packC, fSc_packC, fSet_packC, need, fSrc, srcLegal, EngSrc.bits])
theorem hset (a h sc) : Statement (.hset a h sc) := by
  intro w h e; cases e; rw [decodeWord_57 _ (fOp_packC ..)]; (rw [decodeHeron_3 _ (fCmd_packC ..)]; simp [fCa_packC, fCb_packC, fE_packC, fEngH_packC, fH_packC, fSc_packC, need])
theorem hget (a h sc) : Statement (.hget a h sc) := by
  intro w h e; cases e; rw [decodeWord_57 _ (fOp_packC ..)]; (rw [decodeHeron_4 _ (fCmd_packC ..)]; simp [fCa_packC, fCb_packC, fE_packC, fEngH_packC, fH_packC, fSc_packC, need])
theorem hld (e a b h sc) : Statement (.hld e a b h sc) := by
  intro w h e; cases e; rw [decodeWord_57 _ (fOp_packC ..)]; (rw [decodeHeron_5 _ (fCmd_packC ..)]; simp [fCa_packC, fCb_packC, fE_packC, fEngH_packC, fH_packC, fSc_packC, need])
theorem hst (e a b h sc) : Statement (.hst e a b h sc) := by
  intro w h e; cases e; rw [decodeWord_57 _ (fOp_packC ..)]; (rw [decodeHeron_6 _ (fCmd_packC ..)]; simp [fCa_packC, fCb_packC, fE_packC, fEngH_packC, fH_packC, fSc_packC, need])
theorem cpy (e a b set sc) : Statement (.cpy e a b set sc) := by
  intro w h e; cases e; rw [decodeWord_58 _ (fOp_packC ..)]; (rw [decodeLode_0 _ (fCmd_packC ..)]; simp [fCa_packC, fCb_packC, fE_packC, fEngHi_packC, fSc_packC, fSet_packC, need])
theorem cpy2 (e a b set sc) : Statement (.cpy2 e a b set sc) := by
  intro w h e; cases e; rw [decodeWord_58 _ (fOp_packC ..)]; (rw [decodeLode_1 _ (fCmd_packC ..)]; simp [fCa_packC, fCb_packC, fE_packC, fEngHi_packC, fSc_packC, fSet_packC, need])
theorem cpy3 (e a b set sc) : Statement (.cpy3 e a b set sc) := by
  intro w h e; cases e; rw [decodeWord_58 _ (fOp_packC ..)]; (rw [decodeLode_2 _ (fCmd_packC ..)]; simp [fCa_packC, fCb_packC, fE_packC, fEngHi_packC, fSc_packC, fSet_packC, need])
theorem fwait (e sc) : Statement (.fwait e sc) := by
  intro w h e; cases e; rw [decodeWord_58 _ (fOp_packC ..)]; (rw [decodeLode_8 _ (fCmd_packC ..)]; simp [fCa_packC, fCb_packC, fE_packC, fEng_packC, fSc_packC, need])
theorem ftest (e a sc) : Statement (.ftest e a sc) := by
  intro w h e; cases e; rw [decodeWord_58 _ (fOp_packC ..)]; (rw [decodeLode_9 _ (fCmd_packC ..)]; simp [fCa_packC, fCb_packC, fE_packC, fEng_packC, fSc_packC, need])
theorem fcancel (e sc) : Statement (.fcancel e sc) := by
  intro w h e; cases e; rw [decodeWord_58 _ (fOp_packC ..)]; (rw [decodeLode_10 _ (fCmd_packC ..)]; simp [fCa_packC, fCb_packC, fE_packC, fEng_packC, fSc_packC, need])
theorem fpassRead (e a sc) : Statement (.fpassRead e a sc) := by
  intro w h e; cases e; rw [decodeWord_58 _ (fOp_packC ..)]; (rw [decodeLode_11 _ (fCmd_packC ..)]; simp [fCa_packC, fCb_packC, fE_packC, fEng_packC, fSc_packC, need])
theorem fpassWrite (e a sc) : Statement (.fpassWrite e a sc) := by
  intro w h e; cases e; rw [decodeWord_58 _ (fOp_packC ..)]; (rw [decodeLode_12 _ (fCmd_packC ..)]; simp [fCa_packC, fCb_packC, fE_packC, fEng_packC, fSc_packC, need])
theorem spmap (e a b sc) : Statement (.spmap e a b sc) := by
  intro w h e; cases e; rw [decodeWord_59 _ (fOp_packC ..)]; (rw [decodePage_0 _ (fCmd_packC ..)]; simp [fCa_packC, fCb_packC, fE_packC, fEng_packC, fSc_packC, need])
theorem spfree (e a b sc) : Statement (.spfree e a b sc) := by
  intro w h e; cases e; rw [decodeWord_59 _ (fOp_packC ..)]; (rw [decodePage_1 _ (fCmd_packC ..)]; simp [fCa_packC, fCb_packC, fE_packC, fEng_packC, fSc_packC, need])
theorem sppin (e a b sc) : Statement (.sppin e a b sc) := by
  intro w h e; cases e; rw [decodeWord_59 _ (fOp_packC ..)]; (rw [decodePage_2 _ (fCmd_packC ..)]; simp [fCa_packC, fCb_packC, fE_packC, fEng_packC, fSc_packC, need])
theorem spmig (e a sc) : Statement (.spmig e a sc) := by
  intro w h e; cases e; rw [decodeWord_59 _ (fOp_packC ..)]; (rw [decodePage_3 _ (fCmd_packC ..)]; simp [fCa_packC, fCb_packC, fE_packC, fEng_packC, fSc_packC, need])
theorem spflush (e a b sc) : Statement (.spflush e a b sc) := by
  intro w h e; cases e; rw [decodeWord_59 _ (fOp_packC ..)]; (rw [decodePage_4 _ (fCmd_packC ..)]; simp [fCa_packC, fCb_packC, fE_packC, fEng_packC, fSc_packC, need])
theorem sbind (port a b sc) : Statement (.sbind port a b sc) := by
  intro w h e; cases e; rw [decodeWord_59 _ (fOp_packC ..)]; (rw [decodePage_8 _ (fCmd_packC ..)]; simp [fCa_packC, fCb_packC, fEHi_packC, fEng_packC, fPort_packC, fSc_packC, need])
theorem sfree (port sc) : Statement (.sfree port sc) := by
  intro w h e; cases e; rw [decodeWord_59 _ (fOp_packC ..)]; (rw [decodePage_9 _ (fCmd_packC ..)]; simp [fCa_packC, fCb_packC, fEHi_packC, fEng_packC, fPort_packC, fSc_packC, need])
theorem qbind (a sc) : Statement (.qbind a sc) := by
  intro w h e; cases e; rw [decodeWord_59 _ (fOp_packC ..)]; (rw [decodePage_10 _ (fCmd_packC ..)]; simp [fCa_packC, fCb_packC, fE_packC, fEng_packC, fSc_packC, need])
theorem fence (scope sc) : Statement (.fence scope sc) := by
  intro w h e; cases e; rw [decodeWord_60 _ (fOp_packM ..)]; cases scope <;> (rw [decodeFence_0 _ (fOrder_packM ..)]; simp [fA_packM, fB_packM, fD_packM, fSc_packM, fScopeBits_packM, need, withScope, Scope.bits, Scope.ofBits])
theorem fenceX (scope sc) : Statement (.fenceX scope sc) := by
  intro w h e; cases e; rw [decodeWord_60 _ (fOp_packM ..)]; cases scope <;> (rw [decodeFence_1 _ (fOrder_packM ..)]; simp [fA_packM, fB_packM, fD_packM, fSc_packM, fScopeBits_packM, need, withScope, Scope.bits, Scope.ofBits])
theorem bar (scope a sc) : Statement (.bar scope a sc) := by
  intro w h e; cases e; rw [decodeWord_60 _ (fOp_packM ..)]; cases scope <;> (rw [decodeFence_2 _ (fOrder_packM ..)]; simp [fA_packM, fB_packM, fD_packM, fSc_packM, fScopeBits_packM, need, withScope, Scope.bits, Scope.ofBits])
theorem barjoin (scope a sc) : Statement (.barjoin scope a sc) := by
  intro w h e; cases e; rw [decodeWord_60 _ (fOp_packM ..)]; cases scope <;> (rw [decodeFence_3 _ (fOrder_packM ..)]; simp [fA_packM, fB_packM, fD_packM, fSc_packM, fScopeBits_packM, need, withScope, Scope.bits, Scope.ofBits])
theorem barleave (scope a sc) : Statement (.barleave scope a sc) := by
  intro w h e; cases e; rw [decodeWord_60 _ (fOp_packM ..)]; cases scope <;> (rw [decodeFence_4 _ (fOrder_packM ..)]; simp [fA_packM, fB_packM, fD_packM, fSc_packM, fScopeBits_packM, need, withScope, Scope.bits, Scope.ofBits])
theorem wait (scope a b sc) : Statement (.wait scope a b sc) := by
  intro w h e; cases e; rw [decodeWord_60 _ (fOp_packM ..)]; cases scope <;> (rw [decodeFence_5 _ (fOrder_packM ..)]; simp [fA_packM, fB_packM, fD_packM, fSc_packM, fScopeBits_packM, need, withScope, Scope.bits, Scope.ofBits])
theorem publish (scope a sc) : Statement (.publish scope a sc) := by
  intro w h e; replace h : (scope.publishes) = true := h; cases e; rw [decodeWord_60 _ (fOp_packM ..)]; cases scope <;> (rw [decodeFence_6 _ (fOrder_packM ..)]; simp [fA_packM, fB_packM, fD_packM, fSc_packM, fScopeBits_packM, need, withScope, Scope.bits, Scope.ofBits, h]; try exact h)
theorem csrr (d csr sc) : Statement (.csrr d csr sc) := by
  intro w h e; replace h : (Sys2Proof.csrListed csr) = true := h; cases e; rw [decodeWord_61 _ (fOp_packS ..)]; (rw [decodeCsr_0 _ (fCsrOp_packS ..)]; simp [fA_packS, fCsr_packS, fD_packS, fSc_packS, need, h]; try exact h)
theorem csrw (csr a sc) : Statement (.csrw csr a sc) := by
  intro w h e; replace h : (Sys2Proof.csrListed csr) = true := h; cases e; rw [decodeWord_61 _ (fOp_packS ..)]; (rw [decodeCsr_1 _ (fCsrOp_packS ..)]; simp [fA_packS, fCsr_packS, fD_packS, fSc_packS, need, h]; try exact h)
theorem csrs (csr a sc) : Statement (.csrs csr a sc) := by
  intro w h e; replace h : (Sys2Proof.csrListed csr) = true := h; cases e; rw [decodeWord_61 _ (fOp_packS ..)]; (rw [decodeCsr_2 _ (fCsrOp_packS ..)]; simp [fA_packS, fCsr_packS, fD_packS, fSc_packS, need, h]; try exact h)
theorem csrc (csr a sc) : Statement (.csrc csr a sc) := by
  intro w h e; replace h : (Sys2Proof.csrListed csr) = true := h; cases e; rw [decodeWord_61 _ (fOp_packS ..)]; (rw [decodeCsr_3 _ (fCsrOp_packS ..)]; simp [fA_packS, fCsr_packS, fD_packS, fSc_packS, need, h]; try exact h)
theorem nop (sc) : Statement (.nop sc) := by
  intro w h e; cases e; rw [decodeWord_62 _ (fOp_packR ..)]; (rw [decodeSystem_0 _ (fFn_packR ..)]; simp [fA_packR, fB_packR, fD_packR, fSc_packR, need])
theorem eret (sc) : Statement (.eret sc) := by
  intro w h e; cases e; rw [decodeWord_62 _ (fOp_packR ..)]; (rw [decodeSystem_1 _ (fFn_packR ..)]; simp [fA_packR, fB_packR, fD_packR, fSc_packR, need])
theorem trap (a sc) : Statement (.trap a sc) := by
  intro w h e; cases e; rw [decodeWord_62 _ (fOp_packR ..)]; (rw [decodeSystem_2 _ (fFn_packR ..)]; simp [fA_packR, fB_packR, fD_packR, fSc_packR, need])
theorem wpsw (d a sc) : Statement (.wpsw d a sc) := by
  intro w h e; cases e; rw [decodeWord_62 _ (fOp_packR ..)]; (rw [decodeSystem_3 _ (fFn_packR ..)]; simp [fA_packR, fB_packR, fD_packR, fSc_packR, need])
theorem sleep (sc) : Statement (.sleep sc) := by
  intro w h e; cases e; rw [decodeWord_62 _ (fOp_packR ..)]; (rw [decodeSystem_4 _ (fFn_packR ..)]; simp [fA_packR, fB_packR, fD_packR, fSc_packR, need])
theorem brk (sc) : Statement (.brk sc) := by
  intro w h e; cases e; rw [decodeWord_62 _ (fOp_packR ..)]; (rw [decodeSystem_5 _ (fFn_packR ..)]; simp [fA_packR, fB_packR, fD_packR, fSc_packR, need])
theorem systemTrapEnter (x0) : Statement (.systemTrapEnter x0) := by
  intro w h e; cases e
theorem resultArrive (x0 x1) : Statement (.resultArrive x0 x1) := by
  intro w h e; cases e
theorem fwdDepositLand (x0 x1 x2) : Statement (.fwdDepositLand x0 x1 x2) := by
  intro w h e; cases e
theorem queueDwordLand (x0 x1 x2 x3) : Statement (.queueDwordLand x0 x1 x2 x3) := by
  intro w h e; cases e
theorem streamElementArrive (x0 x1 x2) : Statement (.streamElementArrive x0 x1 x2) := by
  intro w h e; cases e
theorem workspaceMoveDone (x0 x1) : Statement (.workspaceMoveDone x0 x1) := by
  intro w h e; cases e
theorem taskDispatch (x0) : Statement (.taskDispatch x0) := by
  intro w h e; cases e
theorem taskRecordArrive (x0 x1) : Statement (.taskRecordArrive x0 x1) := by
  intro w h e; cases e
theorem inboundRecordAdmit (x0) : Statement (.inboundRecordAdmit x0) := by
  intro w h e; cases e
theorem spillReplay (x0) : Statement (.spillReplay x0) := by
  intro w h e; cases e
theorem balance (x0) : Statement (.balance x0) := by
  intro w h e; cases e
theorem sluiceSample : Statement .sluiceSample := by
  intro w h e; cases e
theorem sluiceBroadcast (x0 x1) : Statement (.sluiceBroadcast x0 x1) := by
  intro w h e; cases e
theorem budgetPeriod : Statement .budgetPeriod := by
  intro w h e; cases e
theorem wispRepair (x0) : Statement (.wispRepair x0) := by
  intro w h e; cases e
theorem pageInDone (x0 x1) : Statement (.pageInDone x0 x1) := by
  intro w h e; cases e
theorem pagePullDone (x0 x1) : Statement (.pagePullDone x0 x1) := by
  intro w h e; cases e
theorem blockMove (x0) : Statement (.blockMove x0) := by
  intro w h e; cases e
theorem ticketRegister (x0 x1) : Statement (.ticketRegister x0 x1) := by
  intro w h e; cases e
theorem commandComplete (x0 x1) : Statement (.commandComplete x0 x1) := by
  intro w h e; cases e
theorem promiseDue (x0 x1) : Statement (.promiseDue x0 x1) := by
  intro w h e; cases e
theorem leaseGrant (x0) : Statement (.leaseGrant x0) := by
  intro w h e; cases e
theorem leaseRearbitrate (x0) : Statement (.leaseRearbitrate x0) := by
  intro w h e; cases e
theorem sliceExpiry (x0 x1) : Statement (.sliceExpiry x0 x1) := by
  intro w h e; cases e
theorem preempt (x0 x1) : Statement (.preempt x0 x1) := by
  intro w h e; cases e
theorem tilePowerGate (x0) : Statement (.tilePowerGate x0) := by
  intro w h e; cases e
theorem tileWake (x0) : Statement (.tileWake x0) := by
  intro w h e; cases e
theorem powerInterval (x0) : Statement (.powerInterval x0) := by
  intro w h e; cases e
theorem lqctlMap (x0) : Statement (.lqctlMap x0) := by
  intro w h e; cases e
theorem lqctlUnmap (x0) : Statement (.lqctlUnmap x0) := by
  intro w h e; cases e
theorem lqnotify (x0 x1) : Statement (.lqnotify x0 x1) := by
  intro w h e; cases e
theorem launchStart (x0) : Statement (.launchStart x0) := by
  intro w h e; cases e
theorem hfgo : Statement .hfgo := by
  intro w h e; cases e
theorem hostFenceDone : Statement .hostFenceDone := by
  intro w h e; cases e
theorem xinvc (x0 x1) : Statement (.xinvc x0 x1) := by
  intro w h e; cases e
theorem xinvDone (x0) : Statement (.xinvDone x0) := by
  intro w h e; cases e
theorem atreqGo : Statement .atreqGo := by
  intro w h e; cases e
theorem attestDone : Statement .attestDone := by
  intro w h e; cases e
theorem spcfgApply (x0) : Statement (.spcfgApply x0) := by
  intro w h e; cases e
theorem registerWrite (x0 x1) : Statement (.registerWrite x0 x1) := by
  intro w h e; cases e
theorem hostRead (x0 x1 x2) : Statement (.hostRead x0 x1 x2) := by
  intro w h e; cases e
theorem hostWrite (x0 x1 x2) : Statement (.hostWrite x0 x1 x2) := by
  intro w h e; cases e
theorem hostAtomicop (x0 x1 x2 x3 x4 x5) : Statement (.hostAtomicop x0 x1 x2 x3 x4 x5) := by
  intro w h e; cases e
theorem cxlMemAccess (x0 x1 x2) : Statement (.cxlMemAccess x0 x1 x2) := by
  intro w h e; cases e
theorem cxlSnoop (x0 x1) : Statement (.cxlSnoop x0 x1) := by
  intro w h e; cases e
theorem atomicopCompletion (x0 x1 x2) : Statement (.atomicopCompletion x0 x1 x2) := by
  intro w h e; cases e
theorem reads (x0 x1) : Statement (.reads x0 x1) := by
  intro w h e; cases e
theorem readx (x0 x1) : Statement (.readx x0 x1) := by
  intro w h e; cases e
theorem upgrade (x0 x1) : Statement (.upgrade x0 x1) := by
  intro w h e; cases e
theorem writeback (x0 x1) : Statement (.writeback x0 x1) := by
  intro w h e; cases e
theorem fwddata (x0 x1) : Statement (.fwddata x0 x1) := by
  intro w h e; cases e
theorem fwdnone (x0 x1) : Statement (.fwdnone x0 x1) := by
  intro w h e; cases e
theorem invack (x0 x1) : Statement (.invack x0 x1) := by
  intro w h e; cases e
theorem dataS (x0 x1) : Statement (.dataS x0 x1) := by
  intro w h e; cases e
theorem dataE (x0 x1) : Statement (.dataE x0 x1) := by
  intro w h e; cases e
theorem dataM (x0 x1) : Statement (.dataM x0 x1) := by
  intro w h e; cases e
theorem upgack (x0 x1) : Statement (.upgack x0 x1) := by
  intro w h e; cases e
theorem inv (x0 x1) : Statement (.inv x0 x1) := by
  intro w h e; cases e
theorem fwds (x0 x1) : Statement (.fwds x0 x1) := by
  intro w h e; cases e
theorem fwdx (x0 x1) : Statement (.fwdx x0 x1) := by
  intro w h e; cases e
theorem wback (x0 x1) : Statement (.wback x0 x1) := by
  intro w h e; cases e
theorem invRetryTimeout (x0) : Statement (.invRetryTimeout x0) := by
  intro w h e; cases e
theorem causewayTimeout (x0) : Statement (.causewayTimeout x0) := by
  intro w h e; cases e
theorem remoteSpawnArrive (x0 x1 x2) : Statement (.remoteSpawnArrive x0 x1 x2) := by
  intro w h e; cases e
theorem remoteSpawnAck (x0) : Statement (.remoteSpawnAck x0) := by
  intro w h e; cases e
theorem remoteSpawnRefuse (x0 x1) : Statement (.remoteSpawnRefuse x0 x1) := by
  intro w h e; cases e
theorem powerOnReset : Statement .powerOnReset := by
  intro w h e; cases e
theorem packageReset : Statement .packageReset := by
  intro w h e; cases e
theorem fullServiceStart : Statement .fullServiceStart := by
  intro w h e; cases e
theorem tileRetire (x0) : Statement (.tileRetire x0) := by
  intro w h e; cases e
theorem bridgeFailure (x0 x1) : Statement (.bridgeFailure x0 x1) := by
  intro w h e; cases e
theorem tcsUncorrectable (x0 x1) : Statement (.tcsUncorrectable x0 x1) := by
  intro w h e; cases e
theorem hbmUncorrectable (x0) : Statement (.hbmUncorrectable x0) := by
  intro w h e; cases e
theorem l2Uncorrectable (x0 x1) : Statement (.l2Uncorrectable x0 x1) := by
  intro w h e; cases e
theorem l1Uncorrectable (x0 x1 x2) : Statement (.l1Uncorrectable x0 x1 x2) := by
  intro w h e; cases e
theorem frameUncorrectable (x0 x1) : Statement (.frameUncorrectable x0 x1) := by
  intro w h e; cases e
theorem remoteAccessArrive (x0 x1 x2) : Statement (.remoteAccessArrive x0 x1 x2) := by
  intro w h e; cases e
theorem dieLinkFailure (x0 x1) : Statement (.dieLinkFailure x0 x1) := by
  intro w h e; cases e
theorem storeAcknowledge (x0) : Statement (.storeAcknowledge x0) := by
  intro w h e; cases e
theorem publishComplete (x0 x1) : Statement (.publishComplete x0 x1) := by
  intro w h e; cases e
theorem crdeclInForce (x0 x1) : Statement (.crdeclInForce x0 x1) := by
  intro w h e; cases e
theorem cxlOperationChange (x0) : Statement (.cxlOperationChange x0) := by
  intro w h e; cases e

end Sys2Proof.Laws.Encoding
end

