-- ==== Sys2Proof/Laws/Vector.lean ====
section
/-!
SUPPORT. Elements of patterns built from elements, and the vector issue test.
-/
namespace Sys2Proof.Machine

/-- The number whose elements of width n these are. -/
def packed (n : Nat) (xs : List Nat) : Nat := xs.foldr (fun x acc => x % 2 ^ n + 2 ^ n * acc) 0

theorem packed_cons (n x : Nat) (xs : List Nat) : packed n (x :: xs) = x % 2 ^ n + 2 ^ n * packed n xs := rfl

theorem packed_lt (n : Nat) (xs : List Nat) : packed n xs < 2 ^ (n * xs.length) := by
  induction xs with
  | nil => simp [packed]
  | cons x xs ih =>
    have h1 : x % 2 ^ n < 2 ^ n := Nat.mod_lt _ (Nat.two_pow_pos n)
    have h2 : 2 ^ n * (packed n xs + 1) ≤ 2 ^ n * 2 ^ (n * xs.length) := Nat.mul_le_mul_left _ ih
    rw [packed_cons, List.length_cons, Nat.mul_add, Nat.mul_one, Nat.pow_add, Nat.mul_comm (2 ^ (n * xs.length))]
    rw [Nat.mul_add, Nat.mul_one] at h2
    omega

theorem packed_elem (n : Nat) (xs : List Nat) : ∀ i (hi : i < xs.length), packed n xs >>> (n * i) % 2 ^ n = xs[i] % 2 ^ n := by
  induction xs with
  | nil => intro i hi; exact absurd hi (by simp)
  | cons x xs ih =>
    intro i hi
    have h1 : x % 2 ^ n < 2 ^ n := Nat.mod_lt _ (Nat.two_pow_pos n)
    cases i with
    | zero => simp [packed_cons, Nat.add_mul_mod_self_left]
    | succ i =>
      rw [packed_cons, Nat.shiftRight_eq_div_pow, Nat.mul_add, Nat.mul_one, Nat.add_comm (n * i), Nat.pow_add,
        ← Nat.div_div_eq_div_mul, Nat.add_mul_div_left _ _ (Nat.two_pow_pos n), Nat.div_eq_of_lt h1, Nat.zero_add,
        ← Nat.shiftRight_eq_div_pow]
      exact ih i (by simpa using hi)

/-- Element i of a pattern built from elements. -/
theorem elem_ofElems (k n : Nat) (xs : List Nat) (i : Nat) (hi : i < xs.length) (hk : n * xs.length ≤ k) :
    elem (ofElems k n xs) n i = xs[i] % 2 ^ n := by
  have h : packed n xs < 2 ^ k := Nat.lt_of_lt_of_le (packed_lt n xs) (Nat.pow_le_pow_right (by decide) hk)
  have h' : (ofElems k n xs).toNat = packed n xs := by
    show (BitVec.ofNat k (packed n xs)).toNat = _
    rw [BitVec.toNat_ofNat, Nat.mod_eq_of_lt h]
  rw [elem, bits, h', packed_elem n xs i hi]

/-- The elements that `selected` writes. -/
theorem governed_selected (w : Nat) (m : Word) (old : Line) (f : Nat → Nat) (hw : w * (512 / w) ≤ 512) :
    State.governed w m old (selected w m old f) f := by
  intro i hi
  rw [selected, elem_ofElems _ _ _ i (by simpa using hi) (by simpa using hw)]
  simp only [List.getElem_map, List.getElem_range, bit]
  have : m.toNat.testBit i = m.getLsbD i := rfl
  rw [this]
  split
  · rfl
  · simp [elem, bits]

/-- The bits that `compared` writes. -/
theorem compareMask_compared (w : Nat) (m : Word) (f : Nat → Bool) (hw : 512 / w ≤ 64) :
    State.compareMask w m (compared w m f) f := by
  intro i hi
  have hb : ∀ (x : Word) (j : Nat), x.getLsbD j = decide (elem x 1 j = 1) := by
    intro x j
    show x.toNat.testBit j = _
    simp [elem, bits, Nat.testBit]
  by_cases h : i < 512 / w
  · rw [hb, compared, elem_ofElems _ _ _ i (by simpa using h) (by simpa using hw)]
    simp only [List.getElem_map, List.getElem_range, bit, h]
    have : m.toNat.testBit i = m.getLsbD i := rfl
    rw [this]
    cases m.getLsbD i <;> cases f i <;> rfl
  · simp only [h, decide_false, Bool.false_and]
    show (compared w m f).toNat.testBit i = false
    have hlt : packed 1 ((List.range (512 / w)).map fun i => (bit m i && f i).toNat) < 2 ^ i :=
      Nat.lt_of_lt_of_le (packed_lt _ _) (Nat.pow_le_pow_right (by decide) (by simpa using h))
    have : (compared w m f).toNat = packed 1 ((List.range (512 / w)).map fun i => (bit m i && f i).toNat) := by
      show (BitVec.ofNat 64 (packed 1 _)).toNat = _
      rw [BitVec.toNat_ofNat, Nat.mod_eq_of_lt (Nat.lt_of_lt_of_le hlt (Nat.pow_le_pow_right (by decide) (by omega)))]
    rw [this]
    exact Nat.testBit_lt_two_pow hlt

namespace State

/-- A vector instruction whose operands are ready goes on at once, in the same state. -/
theorem vgate_vissues (s : State) (reads writes : List RegRef) (k : State → State) (h : s.vissues reads writes = true) :
    s.vgate reads writes k = k s := by
  simp only [vissues, Bool.and_eq_true, Bool.not_eq_true'] at h
  have h1 : ¬(s.matrixMode && decide (s.cycle < (s.tile s.here).vecNext)) = true := by simp [h.1]
  simp only [vgate]
  rw [if_neg (by simpa using h1), gate_issues s _ _ _ h.2]

theorem vecOp_vissues (s : State) (reads : List RegRef) (vd : BitVec 4) (lat : Latency) (sc : Stall) (f : State → Line)
    (h : s.vissues reads [.v vd] = true) : s.vecOp reads vd lat sc f = s.vectorDone (.v vd) (f s) lat sc := by
  simp only [vecOp, vgate_vissues s _ _ _ h, vectorDone]

end State

end Sys2Proof.Machine
end

