-- ==== Sys2Proof/Tests/Slice0.lean ====
section
/-!
SUPPORT. The model's own tests: terms that well-formedness refuses, words written out from the encoding tables, and, for
each statement of the certificates, concrete states and operands that meet its hypotheses.
-/
namespace Sys2Proof.Tests
open Machine
set_option Elab.async false

/-! ## Small states -/

/-- Tile 0: its translation buffer names the block's pages. -/
def tile0 : TileS := { TileS.reset with stlb := [(5, 0, 1), (5, 1, 2), (5, 2, 3), (5, 3, 4), (5, 60, 5)] }

/-- A free task of launch 3 in block 5. -/
def freeTask : TaskRec := { noTask with blk := 5, lq := 3, uid := 7 }

/-- A launch whose one block sits on tile 0, with 64 pages, page 0 code. -/
def launch3 : Launch :=
  { Launch.none with
    lq := 3, asid := 9, codesz := 2048, sppages := 64, minres := 4, tiles := [0], blocks := [5], cap := 16, peat := 0x100000 }

def framed (f : Nat) : Page := { Page.unmapped with st := .framed, frame := f }

/-- The block: a code page, two pages of data, and the workspace of page 60. -/
def block5 : Block :=
  { Block.none with
    lq := 3, tile := 0, xb := 2048
    pages := [(0, framed 0), (1, framed 1), (2, framed 2), (60, { framed 3 with ws := true })] }

/-- The address of an offset of the scratchpad. -/
def sp (off : Nat) : Word := BitVec.ofNat 64 (2 ^ 64 - 2 ^ 24 + off)

/-- The context that runs the task, with some register values. -/
def runs (ws : List (Nat × Word)) : Ctx :=
  { Ctx.reset with
    w := ws.foldl (fun w e => w.set! e.1 e.2) (Ctx.reset.w.set 63 (sp (60 * 2048)))
    task := freeTask, status := .ready }

/-- Tile 0's slot 0 runs a free task; its die's L2 holds the page table entries of its block. -/
def free (ws : List (Nat × Word)) : State :=
  { State.reset with
    full := true, cycle := 1000, tiles := [(0, tile0)], launches := [(3, launch3)], blocks := [(5, block5)], ctxs := [(0, runs ws)], nextUid := 8
    l2 := [(State.l2Key 0 16384, .m), (State.l2Key 0 16391, .m)] }

def ordTask : TaskRec := { freeTask with ord := true, ts := 40, tb := 4096 }

/-- The signature slot of the ordered task. -/
def slot7 : Spec :=
  { task := ordTask, asid := 9, tile := 0, st := .running, slot := 0, since := 900, rsig := 0, wsig := 0, undo := [],
    elems := [], used := 0, plain := [], syms := [], cons := [], sstores := [], sspawns := [], held := [],
    unlogged := false, repairing := false, pending := false, elig := true }

/-- The same with an ordered, repair-eligible task. -/
def ordered (ws : List (Nat × Word)) : State :=
  { free ws with ctxs := [(0, { runs ws with task := ordTask, psw := 0x300 })], specs := [(7, slot7)] }

/-- The state that an instruction leaves. -/
def after (r : Result) : State := match r with
  | .next s => s
  | .fault _ => State.reset
  | .refused _ => State.reset

/-- Virtual page 1 leads to a page of physical memory, of which tile 0's die holds the first line in M. -/
def mapped (mt pa : Nat) (s : State) : State :=
  { s with
    tlb := [{ tile := 0, asid := 9, vpn := 1, size := 16, pte := BitVec.ofNat 64 (pa + 32 * mt + 15) }]
    l2 := s.l2.set (State.l2Key 0 (pa / 64)) .m }

def dev (s : State) : State := mapped 0 0x20000 s
def hostMem (s : State) : State := mapped 2 0x8000000000000 s

/-- A store of the free task that is not yet performed. -/
def pend (id : Nat) (into : StoreTo) (at_ : Nat) : PendStore :=
  { id := id, uid := 7, tile := 0, lq := 3, ord := false, into := into, blk := 5, va := 0x10000,
    bytes := [(at_, 0xAB), (at_ + 1, 0xCD)], clear := false, epc := 0, port := none, lost := false, ready := false, target := none }

/-- A result of variable latency has not arrived at a register. -/
def awaits (r : RegRef) (s : State) : State := s.setCx { s.cx with results := [{ reg := r, val := 77 }] }

/-- The running context changed. -/
def ctxWith (s : State) (f : Ctx → Ctx) : State := s.setCx (f s.cx)

/-- A stream register: address, stride, count, code of the size, sign extension. -/
def streamReg (addr : Word) (stride count size : Nat) (sx : Bool) : BitVec 128 :=
  BitVec.ofNat 128 (stride * 2 ^ 96 + count * 2 ^ 72 + sx.toNat * 2 ^ 67 + size * 2 ^ 64 + addr.toNat)

/-! ## Witnesses: integer, control flow, floating point, vectors -/

theorem witness_integer_two_operands :
    integerOps ≠ [] ∧ (free [(4, 5), (5, 6)]).issues [.w 4, .w 5] [.w 3] = true ∧
      (ordered [(4, 5)]).issues [.w 4, .w 5] [.w 0] = true ∧ (free [(4, 5)]).issues [.w 4, .w 4] [.w 4] = true := by decide

theorem witness_integer_immediates :
    unaryOps ≠ [] ∧ immediateOps ≠ [] ∧ shiftOps ≠ [] ∧ fieldOps ≠ [] ∧ (free [(4, 5)]).issues [.w 4] [.w 3] = true ∧
      (free [(4, 5)]).issues [.w 4, .w 3] [.w 3] = true ∧ (63 : BitVec 6).toNat + (0 : BitVec 6).toNat + 1 ≤ 64 ∧
      (free []).issues [] [.w 3] = true ∧ (free []).issues [.w 3] [.w 3] = true := by decide

theorem witness_additions :
    (ordered [(4, 5)]).issues [.w 4, .w 5] [.w 3] = true ∧ (ordered [(4, 5)]).issues [.w 4] [.w 3] = true ∧
      (ctxWith (ordered []) fun c => { c with tag := c.tag.set 4 5 }).tagged 4 = true := by decide

theorem witness_compares :
    (ordered [(4, 5)]).issues [.w 4, .w 5] [.w 3] = true ∧ (ordered [(4, 5)]).issues [.w 4] [.w 3] = true ∧
      (free []).ordered = false ∧ (ordered []).ordered = true ∧
      (ordered []).specs.get? (ordered []).cx.task.uid = some slot7 ∧ slot7.task.uid = (ordered []).cx.task.uid ∧
      slot7.elig = true ∧ slot7.cons.length < 8 :=
  ⟨by decide, by decide, by decide, by decide, rfl, rfl, rfl, by decide⟩

theorem witness_branches_and_jumps :
    branchOps ≠ [] ∧ (free [(4, 5)]).issues [.w 4, .w 5] [] = true ∧ (free []).issues [] [] = true ∧ (free []).issues [] [.w 61] = true ∧
      (free [(4, 8)]).issues [.w 4] [.w 3] = true ∧
      (BitVec.ofInt 24 (((free [(4, 8)]).rd 4).toInt + signedField (BitVec.toNat (0 : BitVec 12)) 12)).toNat % 4 = 0 ∧
      (BitVec.ofInt 24 (((free [(4, 8)]).rd 4).toInt + signedField (BitVec.toNat (2 : BitVec 12)) 12)).toNat % 4 ≠ 0 := by decide

theorem witness_scalar_float :
    floatOps ≠ [] ∧ floatUnaryOps ≠ [] ∧ fusedOps ≠ [] ∧ (free []).issues [.w 4, .w 5] [.w 3] = true ∧
      (free []).issues [.w 4] [.w 3] = true ∧ (free []).issues [.w 4, .w 5, .w 3] [.w 3] = true := by decide

theorem witness_exact_values :
    (0 : Nat) < 2 ^ fp64.width ∧ (fp64.decode 0x3FF0000000000000).isNaN = false ∧ (fpE2m1.decode 7).isNaN = false := by decide

theorem witness_vectors :
    vectorFloatOps ≠ [] ∧ vectorFloatUnaryOps ≠ [] ∧ vectorFusedOps ≠ [] ∧ vectorIntOps ≠ [] ∧ vectorIntUnaryOps ≠ [] ∧
      vectorFloatCompares ≠ [] ∧ vectorIntCompares ≠ [] ∧ vectorFloatReductions ≠ [] ∧ vectorMoves ≠ [] ∧ maskOps ≠ [] ∧
      (free []).vissues [.v 1, .v 2, .m 1] [.v 3] = true ∧ (free []).vissues [.v 1, .m 0] [.v 3] = true ∧
      (free []).vissues [.v 1, .v 2, .v 3, .m 1] [.v 3] = true ∧ (free []).vissues [.v 1, .v 2, .m 1] [.m 2] = true := by decide

theorem witness_vector_reductions :
    (Instr.vcvt 0 10 0 false 2 1 0 0).wellFormed = true ∧ (Instr.vcvt 1 4 4 false 2 1 0 0).wellFormed = false ∧
      (Instr.vcvt 6 0 7 false 2 1 0 0).wellFormed = true ∧ (free []).vissues [.v 1, .m 0] [.v 2] = true := by decide

theorem witness_vector_moves :
    (free []).vissues [.w 4, .m 1] [.v 3] = true ∧ (free []).vissues [.v 1] [.w 4] = true ∧ (free []).vissues [.w 4] [.v 3] = true ∧
      (7 : BitVec 4).toNat < 8 ∧ (15 : BitVec 4).toNat < 512 / 32 ∧ (7 : BitVec 4).toNat < 512 / 64 ∧
      (free []).vissues [.m 1, .m 2] [.m 3] = true ∧ (free []).vissues [.m 1] [.m 3] = true ∧ (free []).vissues [.w 4] [.m 3] = true ∧
      (free []).vissues [.m 1] [.w 4] = true := by decide

theorem witness_operand_tests :
    ([4, 5].all (free []).plain) = true ∧ (free []).plain 3 = true ∧ (free []).untagged [4, 5] = true ∧
      (ordered []).ordered = true ∧ ([52, 4, 5].any (ordered []).usesPort) = true ∧ ([3, 4, 5].all (free []).plain) = true ∧
      (let s := ctxWith (free []) fun c => { c with busy := [{ reg := .w 4, until_ := 1001 }] }
       [RegRef.w 4, .w 5, .w 3].find? s.fixedEmpty = some (.w 4)) ∧
      (let s := awaits (.w 5) (free [])
       [RegRef.w 4, .w 5, .w 3].any s.fixedEmpty = false ∧ [RegRef.w 4, .w 5, .w 3].any s.variableEmpty = true) := by decide

/-! ## Witnesses: ports -/

/-- Port 0 is an in-bound stream of dwords whose head element has been fetched. -/
def streaming (count : Nat) : State := ctxWith (free []) fun c =>
  { c with
    stream := c.stream.set 0 (streamReg (sp 0x800) 8 count 3 false), ctxf := 1
    ahead := [{ port := 0, addr := sp 0x800, loc := some (.scr 5 0x800), val := 99, trap := none, ready := 0, atPop := false, stale := false }] }

/-- Port 1 is an out-bound stream of dwords. -/
def streamingOut (count : Nat) : State := ctxWith (free []) fun c =>
  { c with stream := c.stream.set 1 (streamReg (sp 0x800) 8 count 3 false), ctxf := 8 }

theorem witness_port_reads :
    streamPort 48 = true ∧ sbd (streaming 2).cx 0 = 1 ∧ strCount (streaming 2).cx.stream[0] ≠ 0 ∧
      (State.aheadOf (streaming 2).cx 0).isSome = true ∧ (streaming 2).inSystem = false ∧
      sbd (streaming 0).cx 0 = 1 ∧ strCount (streaming 0).cx.stream[0] = 0 ∧ 0 < strCount (streamReg 0 8 1 3 false) ∧
      (let s := (free []).setTile 0 { TileS.reset with inq := TileS.reset.inq.set 0 [(5, 3)] }
       (s.tile s.here).inq[qinDir s.cx % 4] = [(5, 3)] ∧ qinDir s.cx < 4) := by decide

theorem witness_port_writes :
    (streamingOut 2).inSystem = false ∧ streamPort 49 = true ∧ sbd (streamingOut 2).cx 1 = 2 ∧
      strCount (streamingOut 2).cx.stream[1] ≠ 0 ∧ (streamingOut 2).issues [.w 4] [] = true ∧ (streamingOut 2).ordered = false ∧
      (streamingOut 2).fixedEmpty (.w 49) = false ∧ (streamingOut 2).variableEmpty (.w 49) = false ∧
      ((streamingOut 2).stores.filter fun p => p.port == some 1 && p.uid == 7).length < 8 ∧
      (ctxWith (free []) fun c => { c with ctxf := 0x1400 }).pushTarget = some 1 ∧
      (free []).justLeft = false ∧ ({ free [] with left := [(1, 3)] }).justLeft = true := by decide

theorem witness_port_store_passes : ∃ s1 loc mt, (streamingOut 2).Passes (sp 0x800) .store s1 loc mt ∧
    s1.ownOverlap loc 8 = false ∧ (mt = 3 → s1.ownUncached = false) ∧
    ∃ s2, s1.Stores (sp 0x800) loc mt (leBytes 8 5) false (some 1) s2 :=
  ⟨_, _, _, fun _ _ _ => rfl, by decide, by decide, _, fun _ => rfl⟩

/-- SBIND's operands: a dword stream of two elements, in-bound or out-bound. -/
def binding (spec : Word) : State := free [(4, sp 0x800), (5, spec)]

theorem witness_bindings :
    ([(0x0000000803000002 : Word), 0x0000000813000002, 0x0000000803000000].all fun spec =>
      (binding spec).issues [.w 4, .w 5] [] && !(binding spec).ordered && !(binding spec).inSystem && bits spec 29 3 == 0
        && decide (bits spec 24 3 < 4) && !(spec.getLsbD 27 && spec.getLsbD 28)
        && ((binding spec).rd 4).toNat % 2 ^ bits spec 24 3 == 0 && bits spec 32 32 % 2 ^ bits spec 24 3 == 0) = true := by decide

theorem witness_binding_drained : (binding 0).portDrained 1 := fun _ h => by simp [binding, free, State.reset] at h

theorem witness_binding_refusals :
    bits (0x0000000804000002 : Word) 24 3 = 4 ∧ bits (0x0000000903000002 : Word) 32 32 % 8 ≠ 0 ∧
      (ordered []).issues [.w 4, .w 5] [] = true ∧ (free []).issues [] [] = true ∧ (ordered []).issues [] [] = true ∧
      ([(0x16 : Word), 0x26, 0x04, 0x80, 0x08, 0x55].all fun x => (free [(4, x)]).issues [.w 4] []) = true := by decide

theorem witness_binding_waits :
    ¬({ binding 2 with stores := [{ pend 1 .scratch 0x800 with port := some 1 }] }).portDrained 1 := by
  unfold State.portDrained; decide

theorem witness_neighbours :
    (free []).neighbour 0 0 = none ∧ (free []).neighbour 0 1 = some 1 ∧ (free []).neighbour 0 2 = some 4 ∧
      (free []).neighbour 0 3 = none := by decide

/-! ## Witnesses: data accesses -/

theorem witness_alignment :
    (free [(4, 3)]).issues [.w 4] [.w 6] = true ∧ (free [(4, 3)]).issues [.w 4, .w 6] [] = true ∧
      ((free [(4, 3)]).rd 4 + lowWord ((MSize.bytes .w : Int) * signedField (BitVec.toNat (0 : BitVec 6)) 6)).toNat % MSize.bytes .w ≠ 0 ∧
      (free [(4, 3)]).issues [.w 4, .w 5] [.w 6] = true ∧ ((free [(4, 3)]).rd 4).toNat % ASize.bytes .d ≠ 0 ∧
      (free [(4, 32)]).vissues [.w 4] [.v 1] = true ∧ ((free [(4, 32)]).rd 4).toNat % 64 ≠ 0 ∧
      (free [(4, 4)]).issues [.w 4] [] = true ∧ (free [(4, 4)]).issues [.w 5, .w 6, .w 4] [] = true ∧
      ((free [(4, 4)]).rd 4).toNat % 8 ≠ 0 := by decide

/-- A page command of the block locks the pages of its range for writing. -/
def locking : Cmd :=
  { op := .spflush, a := 0, b := 0, params := [], handle := none, asid := 9, blk := 5, lq := 3, uid := 7, slot := 0, treg := 1,
    ticket := 55, issued := 990, due := 0, gen := 0, seq := 1, registered := true, asked := none, cancel := none, missed := false
    ranges := [{ scratch := true, space := 5, firstLine := 32, lastLine := 63, write := true },
      { scratch := false, space := 9, firstLine := 1024, lastLine := 1025, write := true }] }

def locked (s : State) : State := s.setTile 0 { TileS.reset with cmds := [(0, locking)] }

theorem witness_scratch_access :
    (sp 0x800).toNat / 2 ^ 24 = 2 ^ 40 - 1 ∧ (sp 0x20000).toNat % 2 ^ 24 ≥ 2048 * (free []).myLaunch.sppages ∧
      (sp 0x7FF).toNat % 2 ^ 24 < (free []).myBlock.xb ∧
      (let s := free []
       0x800 < 2048 * s.myLaunch.sppages ∧ s.myBlock.xb ≤ 0x800 ∧ s.privileged = false ∧ (s.ownerOf 5 60).isSome = true ∧
        s.ownerOf 5 1 = none ∧ (s.page 5 1).lock = false ∧ (s.page 5 1).st = .framed ∧ (s.page 5 3).st = .unmapped ∧
        s.lockHit 0 9 (sp 0x800) (.scr 5 0x800) true = none ∧ s.frameIsBad 5 1 = false ∧
        (s.setPage 5 1 { framed 1 with lock := true }).page 5 1 = { framed 1 with lock := true } ∧
        ({ s with frameBad := [(0, 1)] }).frameIsBad 5 1 = true ∧
        (locked s).lockHit 0 9 (sp 0x800) (.scr 5 0x800) true = some locking ∧ s.entryAtHand 5 1 = true ∧
        s.entryAtHand 5 4 = false ∧ ({ ctxWith s fun c => { c with status := .waiting .line } with l2 := [] }).entryAtHand 5 4 = false ∧
        (ctxWith s fun c => { c with status := .waiting .line }).entryAtHand 5 4 = true ∧
        (({ s with poison := [0x101000 / 64] }).setPage 5 1 { Page.unmapped with st := .parked }).pageFail 5 1 =
          some { cause := 0x0F, word := 1, val2 := 0x101000 }) := by decide

theorem witness_memory_access :
    (BitVec.toNat (0x0100000000000000 : Word) / 2 ^ 57 = 0 ∧ BitVec.getLsbD (0x0100000000000000 : Word) 56 = true) ∧
      (0 < BitVec.toNat (0x0200000000000000 : Word) / 2 ^ 57 ∧ BitVec.toNat (0x0200000000000000 : Word) / 2 ^ 57 < 2 ^ 7 - 1) ∧
      (BitVec.toNat (0xFE00000000000000 : Word) / 2 ^ 57 = 2 ^ 7 - 1 ∧ BitVec.getLsbD (0xFE00000000000000 : Word) 56 = false) ∧
      (let s := dev (free [])
       s.ordered = false ∧ isCauseway 0x20000 = false ∧ s.lockHit 0 9 0x10000 (.mem 0x20000) true = none ∧ s.poisoned 0x20000 = false ∧
        (locked s).lockHit 0 9 0x10000 (.mem 0x20000) true = some locking ∧ ({ s with poison := [2048] }).poisoned 0x20000 = true ∧
        s.ownClears 0x20000 = false) := by decide

/-- The ASID root table stands in device memory, in a line that the die's L2 does not hold. -/
def rooted : State := { free [] with asidrtEn := true, asidrtBase := 1 }

theorem witness_waiting_walk : rooted.lineAtHand (64 * ((rooted.asidrtBase * 2 ^ 19 + 8 * 9) / 64)) = false ∧ rooted.full = true ∧
    rooted.l2St (dieOf rooted.here) ((rooted.asidrtBase * 2 ^ 19 + 8 * 9) / 64) = .i := by decide

theorem witness_translations :
    (free []).translate (State.walkLook (dieOf 0)) 0 9 0x10000 = (free [], some (.fault 3)) ∧
      (dev (free [])).translate (State.walkLook (dieOf 0)) 0 9 0x10000 = (dev (free []), some (.ok 0x20000 0 true true)) ∧
      (let t := { free [] with tlb := [{ tile := 0, asid := 9, vpn := 1, size := 16, pte := 0x20003 }] }
       t.translate (State.walkLook (dieOf 0)) 0 9 0x10000 = (t, some (.ok 0x20000 0 false false))) ∧
      (∃ s1, rooted.translate (State.walkLook (dieOf 0)) 0 9 0x10000 = (s1, none)) ∧
      (∃ s1, { rooted with l2 := [(State.l2Key 0 (0x80048 / 64), .e)], poison := [0x80048 / 64] }.translate (State.walkLook (dieOf 0)) 0 9 0x10000 =
        (s1, some (.poison 0x80048))) := ⟨rfl, rfl, rfl, ⟨_, rfl⟩, ⟨_, rfl⟩⟩

/-- Four levels of page tables for ASID 0 in host memory: leaves at level 0, 1 and 2, and an invalid entry. -/
def walked : State :=
  let root := 0x8000000000000
  let put := fun (m : List Host.Cell) (at_ v : Nat) => Cells.writeN m at_ (leBytes 8 v)
  { State.reset with
    asidrtEn := true, asidrtBase := root / 2 ^ 19
    mem := put (put (put (put (put (put (put (put [] root (root + 0x20000 + 1)) (root + 0x20000) (root + 0x40000 + 1))
      (root + 0x40000) (root + 0x50000 + 1)) (root + 0x40008) (root + 3)) (root + 0x50000) (root + 0x60000 + 1))
      (root + 0x50008) (root + 3)) (root + 0x60000) (root + 0x10000 + 0x4F)) (root + 0x60008) 0 }

theorem witness_page_walk :
    ([(0, Walk.leaf 0x800000001004F 16), (0x10000, .fault 0), (0x200000, .leaf 0x8000000000003 21), (0x400000, .fault 1),
        (0x40000000, .leaf 0x8000000000003 30), (0x80000000, .fault 2), (0x80000000000, .fault 3)].all fun (va, w) =>
      (walked.walkTable (State.walkLook (dieOf 0)) 0 va).2 == some w) = true := by decide

theorem witness_table_words : walked.asidrtEn = true ∧ walked.TableWord 0x8000000000000 0x8000000020001 ∧
    walked.TableWord 0x8000000020000 0x8000000040001 ∧ walked.TableWord 0x8000000040000 0x8000000050001 ∧
    walked.TableWord 0x8000000050000 0x8000000060001 ∧ walked.TableWord 0x8000000060000 0x800000001004F ∧
    entryTable 0x8000000040001 16 = true ∧ entryTable 0x8000000050001 12 = true ∧ entryTable 0x8000000060001 8 = true ∧
    entryLeaf 0x800000001004F 16 = true ∧ entryValid 0 = false := by unfold State.TableWord; decide


/-! ## Witnesses: loads, stores, atomics -/

theorem memberW_zero (k : Nat) : memberW 0 k = false := by
  simp only [memberW, bit, BitVec.ofNat_eq_ofNat, BitVec.testBit_toNat, BitVec.getLsbD_zero]; rfl

theorem witness_load_performed :
    (∃ s1 reps, (free []).resolve (free []).party false (.scr 5 0x800) 8 = some (s1, reps)) ∧
      (∃ s1 reps, (dev (free [])).resolve (dev (free [])).party false (.mem 0x20000) 8 = some (s1, reps)) ∧
      (free []).ownOverlap (.scr 5 0x800) 8 = false ∧ (free []).ownUncached = false ∧ (free []).ordered = false ∧
      (dev (free [])).heldPut 0x20000 = false ∧ (dev (free [])).l2Holds 0x20000 = true ∧
      ({ dev (free []) with stores := [pend 1 .memory 0x20000] }).ownOverlap (.mem 0x20000) 8 = true ∧
      (dev (ordered [])).l2Holds 0x20000 = true ∧
      (∃ s1 reps, (dev (ordered [])).resolve (dev (ordered [])).party false (.mem 0x20000) 8 = some (s1, reps) ∧ s1.ordered = true) :=
  ⟨⟨_, _, rfl⟩, ⟨_, _, rfl⟩, by decide, by decide, by decide, by decide, by decide, by decide, by decide, ⟨_, _, rfl, by decide⟩⟩

/-- The context has read a part of what it loads. -/
def halved (n : Nat) : State := ctxWith (free [(4, sp 0x800)]) fun c => { c with got := leBytes n 3 }

/-- The state in which a checked access to page 1 goes on. -/
def passed (s : State) : State := ((s.stlbFill 5 1).touchPage 5 1).wakeTile 0

/-- The load goes on after the dwords it has. -/
def gotAll (s : State) (off n : Nat) : State := (s.ageElements (.scr 5 off) n none).onCx fun c => { c with got := [] }

theorem halved_loads : (passed (halved 8)).Loads (sp 0x800) 16 (.scr 5 0x800) 0 (gotAll (passed (halved 8)) 0x808 8)
    (leBytes 8 3 ++ List.replicate 8 0) := fun _ _ _ => rfl

theorem halved_line : (passed (halved 56)).Loads (sp 0x800) 64 (.scr 5 0x800) 0 (gotAll (passed (halved 56)) 0x838 8)
    (leBytes 56 3 ++ List.replicate 8 0) := fun _ _ _ => rfl

theorem witness_loads : loadOps ≠ [] ∧ (free [(4, sp 0x800)]).issues [.w 4] ((sizeRegs 16 6).map .w) = true ∧
    (∃ s1 loc mt s2 bs, (free []).Passes (sp 0x800) .load s1 loc mt ∧ State.outside? loc = false ∧
      s1.Loads (sp 0x800) 8 loc mt s2 bs) ∧
    (∃ s1 loc mt s2 bs, (halved 8).Passes (sp 0x800) .load s1 loc mt ∧ State.outside? loc = false ∧
      s1.Loads (sp 0x800) 16 loc mt s2 bs) :=
  ⟨by decide, by decide, ⟨_, _, _, _, _, fun _ _ _ => rfl, rfl, fun _ _ _ => rfl⟩,
    ⟨passed (halved 8), .scr 5 0x800, 0, _, _, fun _ _ _ => rfl, rfl, halved_loads⟩⟩

theorem witness_pairs : (halved 8).ownOverlap (.scr 5 (0x800 + 8)) (16 - 8) = false ∧ (halved 8).ordered = false ∧
    (halved 8).specs = [] ∧ (halved 8).cx.got.length = 8 ∧ (free []).cx.got = [] ∧ (hostMem (free [])).ownHost = false := by decide

theorem witness_memory_passes (m : Mode) : (dev (free [])).Passes 0x10000 m (dev (free [])) (.mem 0x20000) 0 := by
  intro fail busy k
  unfold State.checkAccess
  rw [show vclass 0x10000 = .memory from rfl]
  dsimp only
  unfold State.checkMemory
  rw [show (dev (free [])).here = 0 from rfl, show (dev (free [])).asid = 9 from rfl, witness_translations.2.1]
  cases m
  all_goals rfl

theorem witness_memory_loads : ∃ s2 bs, (dev (free [])).Loads 0x10000 8 (.mem 0x20000) 0 s2 bs := ⟨_, _, fun _ _ _ => rfl⟩

/-- Virtual page 1 leads to Causeway's space, whose first window leads to node 1. -/
def faraway : State :=
  mapped 2 0xD000000000000 { free [(4, 0x10000)] with cwEn := true, mem := Cells.writeN [] 0 (leBytes 8 (2 ^ 63 + 2 ^ 32)) }

theorem witness_symbolic_loads : (ordered [(4, sp 0x800)]).issues [.w 4] [.w 6] = true ∧
    ∃ s1 loc mt s2 bs, (ordered [(4, sp 0x800)]).Passes (sp 0x800) .load s1 loc mt ∧ State.outside? loc = false ∧
      s1.Loads (sp 0x800) 8 loc mt s2 bs ∧
      ∃ y, ((s2.useTagged [4]).overlapsSym loc 8).mySpec = some y ∧ y.elig = true ∧ memberW y.wsig (sigKey loc) = false ∧
        y.syms.length < 4 :=
  ⟨by decide, _, _, _, _, _, fun _ _ _ => rfl, rfl, fun _ _ _ => rfl, _, rfl, rfl, memberW_zero _, by decide⟩

theorem witness_symbolic_loads_of_a_free_task : ∃ s1 loc mt s2 bs, (free [(4, sp 0x800)]).Passes (sp 0x800) .load s1 loc mt ∧
    s1.Loads (sp 0x800) 8 loc mt s2 bs ∧ ((s2.useTagged [4]).overlapsSym loc 8).mySpec = none :=
  ⟨_, _, _, _, _, fun _ _ _ => rfl, fun _ _ _ => rfl, rfl⟩

theorem witness_far_translation : faraway.translate (State.walkLook (dieOf 0)) 0 9 0x10000 = (faraway, some (.ok 0xD000000000000 2 true true)) := rfl

theorem witness_load_of_another_package : (faraway.issues [.w 4] ((sizeRegs 8 6).map .w) = true) ∧ isCauseway 0xD000000000000 = true ∧
    faraway.ownPending = false ∧ faraway.readClaim (.mem 0xD000000000000) 8 = some faraway ∧
    faraway.Passes 0x10000 .load faraway (.mem 0xD000000000000) 2 := by
  refine ⟨by decide, by decide, by decide, rfl, ?_⟩
  intro fail busy k
  unfold State.checkAccess
  rw [show vclass 0x10000 = .memory from rfl]
  dsimp only
  unfold State.checkMemory
  rw [show faraway.here = 0 from rfl, show faraway.asid = 9 from rfl, witness_far_translation]
  rfl

/-- The ordered task has an undo element with room. -/
def logging (ws : List (Nat × Word)) : State :=
  { ordered ws with specs := [(7, { slot7 with elems := [sp 0x1000], used := 3 })] }

theorem witness_store_issued :
    (free []).ownOverlap (.scr 5 0x800) 8 = false ∧ (free []).ordered = false ∧ (free []).ownerOf 5 (0x800 / 2048) = none ∧
      (free []).ownUncached = false ∧ (ordered []).ordered = true ∧
      ((match (logging []).resolve (logging []).party true (.scr 5 0x800) 8 with
        | some (s1, _) => (s1.logWrite 7 (sp 0x800) (.scr 5 0x800) 8).isSome
        | none => false) = true) ∧
      ((match (dev (logging [])).resolve (dev (logging [])).party true (.mem 0x20000) 8 with
        | some (s1, _) => (s1.logWrite 7 0x10000 (.mem 0x20000) 8).isSome
        | none => false) = true) ∧
      (dev (logging [])).ordered = true ∧ (dev (logging [])).l2St (dieOf (logging []).here) (0x20000 / 64) = .m :=
  by decide

theorem witness_stores : (free [(4, sp 0x800)]).issues ((4 :: sizeRegs 16 6).map .w) [] = true ∧
    (free [(4, sp 0x800)]).ownPending = false ∧ ({ free [] with stores := [pend 1 .scratch 0x800] }).ownPending = true ∧
    (∃ s1 loc mt s2, (free []).Passes (sp 0x800) .store s1 loc mt ∧ State.outside? loc = false ∧
      s1.Stores (sp 0x800) loc mt (leBytes 8 1 ++ leBytes 8 2) false none s2) ∧
    (∃ s1 loc mt s2, (free []).Passes (sp 0x808) .clear s1 loc mt ∧
      s1.Stores (sp 0x800) (.scr 5 0x800) mt (List.replicate 8 0 ++ leBytes 8 1 ++ List.replicate 48 0) true none s2) :=
  ⟨by decide, by decide, by decide, ⟨_, _, _, _, fun _ _ _ => rfl, rfl, fun _ => rfl⟩, ⟨_, _, _, _, fun _ _ _ => rfl, fun _ => rfl⟩⟩

theorem witness_store_acknowledged :
    (let s := { dev (free []) with stores := [pend 1 .memory 0x20000] }
     (s.stores.find? fun q => q.id == 1) = some (pend 1 .memory 0x20000) ∧ ((pend 1 .memory 0x20000).bytes.map (·.1)).Nodup ∧
      Memory.wf s.mem = true ∧ Memory.wf s.frames = true ∧ (s.pubRegion 3 0x10000).isNone = true ∧ s.l2St (dieOf 0) (0x20000 / 64) = .m ∧
      s.poisoned 0x20000 = false) ∧
    (let s := free []
     (s.page 5 (0x800 / 2048)).lock = false ∧ (s.page 5 (0x800 / 2048)).st = .framed ∧
      ∀ e ∈ (pend 1 .scratch 0x800).bytes, e.1 / 2048 = 0x800 / 2048) := by decide

/-- A declared region of publication over the line at virtual address 0x10000, at scope .pkg; its descriptor stands in the line
itself, and its 64 bytes say so. -/
def region : PubRegion := { base := 0x10000, len := 64, scope := 4, desc := 0x20000, closer := none, queue := [] }

def published (s : State) : State := { s with launches := [(3, { launch3 with regions := [region] })] }

theorem witness_published_store : ((published (dev (free []))).pubRegion 3 (pend 1 .memory 0x20000).va) = some region ∧
    (published (dev (free []))).pubRegion 3 0x10000 = some region := ⟨rfl, rfl⟩

theorem witness_atomics : atomicOps ≠ [] ∧ (free [(4, sp 0x800)]).issues [.w 4, .w 5] [.w 6] = true ∧
    (free [(4, sp 0x800)]).issues [.w 4, .w 5, .w 6] [.w 6] = true ∧
    (free [(4, sp 0x800)]).issues [.w 4, .w 10, .w 11, .w 12, .w 13] [.w 12, .w 13] = true ∧
    (∃ s1 loc mt s2 old, (free []).Passes (sp 0x800) (.rmw true) s1 loc mt ∧ State.outside? loc = false ∧
      s1.Updates (sp 0x800) 8 loc (fun o => some (leBytes 8 (leNat o + 1))) s2 old) ∧
    (∃ s1 loc mt s2 old, (free []).Passes (sp 0x800) (.rmw true) s1 loc mt ∧
      s1.Updates (sp 0x800) 8 loc (fun o => if o = leBytes 8 0 then some (leBytes 8 5) else none) s2 old ∧
      ∃ s2 old, s1.Updates (sp 0x800) 16 loc (fun o => if o = leBytes 16 0 then some (leBytes 16 5) else none) s2 old) :=
  ⟨by decide, by decide, by decide, by decide, ⟨_, _, _, _, _, fun _ _ _ => rfl, rfl, fun _ => rfl⟩,
    ⟨_, _, _, _, _, fun _ _ _ => rfl, fun _ => rfl, _, _, fun _ => rfl⟩⟩

theorem witness_host_translation :
    (hostMem (free [])).translate (State.walkLook (dieOf 0)) 0 9 0x10000 = (hostMem (free []), some (.ok 0x8000000000000 2 true true)) := rfl

theorem witness_atomic_to_host : (hostMem (free [])).Passes 0x10000 (.rmw true) (hostMem (free [])) (.mem 0x8000000000000) 2 := by
  intro fail busy k
  unfold State.checkAccess
  rw [show vclass 0x10000 = .memory from rfl]
  dsimp only
  unfold State.checkMemory
  rw [show (hostMem (free [])).here = 0 from rfl, show (hostMem (free [])).asid = 9 from rfl, witness_host_translation]
  rfl

theorem witness_atomic_op : isCauseway 0x8000000000000 = false ∧ (hostMem (free [])).ownPending = false ∧
    (∃ s2 reps s3, (hostMem (free [])).resolve (hostMem (free [])).party true (.mem 0x8000000000000) 8 = some (s2, reps) ∧
      (if s2.ordered then s2.logWrite s2.cx.task.uid 0x10000 (.mem 0x8000000000000) 8 else some s2) = some s3) :=
  ⟨by decide, by decide, _, _, _, rfl, rfl⟩

theorem witness_updates : (free []).ownPending = false ∧ (free []).specs = [] ∧ (free []).ordered = false ∧ (free []).ownerOf 5 1 = none ∧
    (dev (free [])).l2St (dieOf (free []).here) (0x20000 / 64) = .m := by decide

theorem witness_vector_memory :
    (free [(4, sp 0x800)]).vissues [.w 4] [.v 1] = true ∧ (free [(4, sp 0x800)]).vissues [.w 4, .v 1, .m 0] [] = true ∧
      ((free [(4, sp 0x800)]).rd 4).toNat % 64 = 0 ∧ (∀ i < 8, ((free []).rdM 1).getLsbD i = false) ∧
      (∃ i < 8, ((free []).rdM 0).getLsbD i = true) ∧ (free []).ownOverlap (.scr 5 0x800) 64 = false ∧
      (free [(4, sp 0x800)]).issues [.w 4] [.h 1] = true ∧ (free [(4, sp 0x800)]).issues [.w 4, .h 1] [] = true ∧
      ((free []).pubRegion 3 (sp 0x800)).isNone = true := by decide

theorem witness_line_loads : ∃ s1 loc mt s2 bs, (halved 56).Passes (sp 0x800) .load s1 loc mt ∧ State.outside? loc = false ∧
    s1.Loads (sp 0x800) 64 loc mt s2 bs := ⟨passed (halved 56), .scr 5 0x800, 0, _, _, fun _ _ _ => rfl, rfl, halved_line⟩

theorem witness_line_stores : ∃ s1 mt, (free []).Passes (sp 0x800) .store s1 (.scr 5 0x800) mt := ⟨_, _, fun _ _ _ => rfl⟩

theorem witness_accumulators :
    (free [(4, sp 0x800)]).issues [.w 4] [] = true ∧ (free [(4, sp 0x800)]).issues [.w 5, .w 6, .w 4] [] = true ∧
      (free [(4, sp 0x800)]).issues [.v 1, .v 2, .w 4] [] = true ∧ (free [(4, sp 0x800)]).issues [.w 4] [.w 5] = true ∧
      (sp 0x800).toNat % 8 = 0 := by decide

/-- The free task's tile has the page of the accumulator in its translation buffer. -/
def accReady : State := (((free []).stlbFill 5 1).touchPage 5 1).wakeTile 0

theorem witness_accumulator_access (w : Bool) : (free []).AccPasses (sp 0x800) w accReady 0x800 := by
  cases w <;> exact fun _ => rfl

theorem witness_accumulator_free : accReady.accFree 0x800 := by
  unfold State.accFree
  exact ⟨by decide, by decide, by decide, by decide, by decide, by decide, by decide, by decide, by decide, fun _ _ => rfl⟩

theorem witness_adder_idle : (accReady.tile accReady.here).adder = [] ∧ accReady.cx.accDone = 0 := by decide

/-! ## Witnesses: spawns, ends, pools, commutative ranges -/

/-- The launch with an undo pool. -/
def withUndo (s : State) : State := { s with launches := [(3, { launch3 with undo := sp 0x1040 })] }

/-- w60 names block 5. -/
def toBlock5 : Nat × Word := (60, 0x4000000000000005)

theorem witness_spawns :
    (let s := withUndo (free [(3, 0x1000), (6, 90), toBlock5])
     s.inSystem = false ∧ s.full = true ∧ s.myLaunch.undo ≠ 0 ∧ s.issues (([3] ++ [6] ++ State.spawnReads).map .w) [] = true ∧
      s.issues (State.spawnReads.map .w) [] = true ∧ s.ordered = false ∧ s.ownPending = false ∧
      s.keyHeld (s.child 0x1000 (some (s.rd 6)) 5) = false ∧
      (BitVec.ofInt 24 (s.cx.pc.toNat + 4 * signedField (BitVec.toNat (3 : BitVec 18)) 18)).toNat % 4 = 0 ∧
      ((s.rd 3).setWidth 24).toNat % 4 = 0) ∧
    (let s := withUndo (logging [(6, 90), toBlock5])
     s.ordered = true ∧ s.keyHeld (s.child 0x1000 (some (s.rd 6)) 5) = false ∧
      (s.undoAppend 7 { kind := 2, place := s.recordTile 5, val := 90, va := 0 }).isSome = true) := by decide

theorem witness_spawn_hints : (withUndo (free [toBlock5])).HintTo 5 ∧ (withUndo (free [])).HintTo 5 ∧
    ({ free [(60, 0x4000002000070005)] with launches := [(3, { launch3 with dmap := [{ domain := 6, first := 7, count := 2, scope := 5 }] })] }).HintAway 7 := by
  refine ⟨?_, ?_, ?_⟩
  · unfold State.HintTo; decide
  · unfold State.HintTo; decide
  · unfold State.HintAway; decide

theorem witness_task_ends :
    (free []).issues [] [] = true ∧ (free []).inSystem = false ∧ (free []).ownPending = false ∧
      ({ free [] with stores := [pend 1 .scratch 0x800] }).ownPending = true ∧ ((free []).ctxs.map (·.1)).Pairwise (· < ·) ∧
      (free []).cx.regs = [] ∧ (free []).cur ∈ (free []).ctxs.map (·.1) ∧ (free []).ordered = false ∧ pswInh (free []).cx.psw = false ∧
      (free []).cx.results = [] ∧ (ordered []).issues [] [] = true ∧ (ordered []).ordered = true ∧
      (ordered []).cx.status ≠ .free ∧ (ordered []).restoreHeld 7 = false ∧ (ordered []).ownPending = false ∧
      (free []).leavesHeld (free []).cx.task (free []).cx.regs = false ∧ (ordered []).parts = [] := by decide

/-- An uncommitted task has written a line whose old value a command's range keeps from going back. -/
theorem witness_leave_waits :
    (let y := { slot7 with task := { ordTask with uid := 9 }, wsig := insertW 0 (sigKey (.scr 5 0x800))
                           undo := [{ kind := 1, place := 5 * 2 ^ 24 + 0x100, val := 0, va := sp 0x800 }] }
     (locked { free [] with specs := [(9, y)] }).leavesHeld freeTask [sp 0x800] = true) := by decide +kernel

theorem witness_yield : (free []).hasLease (free []).here 7 = false ∧
    (let s := free []
     let s1 := s.setTile s.here { s.tile s.here with last := s.slot }
     let s2 := (s1.setCx { s.cx with pc := BitVec.ofNat 24 (s.cx.pc.toNat + 4), wake := true }).onSpec s.cx.task.uid fun y => { y with st := .queued }
     (s2.keep s.cur).2 = { s.cx.task with res := true, args := s.cx.w[63] :: s.cx.task.args.drop 1 }) := ⟨rfl, rfl⟩

/-- An ordered task with one old value in its records. -/
def undoing : State :=
  { ordered [] with specs := [(7, { slot7 with undo := [{ kind := 0, place := 0x20008, val := 9, va := 0x10008 }] })] }

theorem witness_abort : undoing.specs = [(undoing.cx.task.uid, { slot7 with undo := [{ kind := 0, place := 0x20008, val := 9, va := 0x10008 }] })] := rfl

theorem witness_abort_contexts : (undoing.ctxs.map (·.1)).Pairwise (· < ·) ∧ undoing.restoreHeld undoing.cx.task.uid = false ∧
    undoing.poisoned 0x20008 = false ∧ undoing.cx.regs = [] := by decide

theorem witness_abort_alone : ∀ k c, undoing.ctxs.get? k = some c → c.task.uid = undoing.cx.task.uid → k = undoing.cur := by
  intro k c h _
  by_cases hk : k = 0
  · exact hk
  · simp [undoing, ordered, free, AMap.get?, hk] at h

/-- The header of a pool of 16-byte elements at physical address 0x20000: base 0x10040, four elements. -/
def poolBytes (next head : Nat) : List Byte :=
  leBytes 8 0x10040 ++ leBytes 4 16 ++ leBytes 4 4 ++ leBytes 4 next ++ leBytes 4 0 ++ leBytes 8 head ++ leBytes 1 4

/-- Page tables of ASID 9 in host memory that lead virtual page 1 to physical address 0x20000. -/
def tables : List Host.Cell :=
  let root := 0x8000000000000
  let put := fun (m : List Host.Cell) (at_ v : Nat) => Cells.writeN m at_ (leBytes 8 v)
  put (put (put (put (put [] (root + 72) (root + 0x20001)) (root + 0x20000) (root + 0x40001)) (root + 0x40000) (root + 0x50001))
    (root + 0x50000) (root + 0x60001)) (root + 0x60008) 0x2000F

def pooled (next head : Nat) : State :=
  { dev (free [(4, 0x10000), (5, 0x10050)]) with
    l2 := (dev (free [])).l2.set (State.l2Key 0 (0x20040 / 64)) .m, asidrtEn := true, asidrtBase := 0x8000000000000 / 2 ^ 19, mem := Cells.writeN tables 0x20000 (poolBytes next head) }

theorem witness_pools :
    (pooled 1 0).issues [.w 4] [.w 6] = true ∧ (pooled 1 0).issues [.w 4, .w 5] [] = true ∧ ((pooled 1 0).rd 4).toNat % 64 = 0 ∧
      (pooled 1 0).ordered = false ∧ (pooled 1 0).ownPending = false ∧ (pooled 1 0).ownOverlap (.mem 0x20000) 64 = false ∧
      (pooled 1 0).l2St (dieOf (pooled 1 0).here) (0x20000 / 64) = .m ∧
      (let p := (pooled 1 0).poolAt (.mem 0x20000)
       p.base = 0x10040 ∧ p.esize = 16 ∧ p.count = 4 ∧ p.scope = 4 ∧ p.head = 0 ∧ p.next = 1 ∧
        p.base.toNat ≤ ((pooled 1 0).rd 5).toNat ∧ ((pooled 1 0).rd 5).toNat < p.base.toNat + p.esize * p.count ∧
        (((pooled 1 0).rd 5).toNat - p.base.toNat) % p.esize = 0 ∧ p.base + BitVec.ofNat 64 (p.esize * p.next) ≠ 0) ∧
      (pooled 4 0).poolAt (.mem 0x20000) = { base := 0x10040, esize := 16, count := 4, next := 4, head := 0, scope := 4 } ∧
      (pooled 1 0x10040).poolAt (.mem 0x20000) = { base := 0x10040, esize := 16, count := 4, next := 1, head := 0x10040, scope := 4 } := by
  decide

theorem pooled_at (next head : Nat) : (pooled next head).here = 0 ∧ (pooled next head).asid = 9 := by
  constructor
  · show 0 / 32 = 0; rfl
  · rfl

theorem pooled_first (next head : Nat) :
    (pooled next head).translate (State.walkLook (dieOf 0)) 0 9 0x10000 = (pooled next head, some (.ok 0x20000 0 true true)) := rfl

theorem pooled_element (next head : Nat) :
    (pooled next head).translate (State.walkLook (dieOf 0)) 0 9 0x10040 = (pooled next head, some (.ok 0x20040 0 true true)) := rfl

theorem pooled_second (next head : Nat) :
    (pooled next head).translate (State.walkLook (dieOf 0)) 0 9 0x10050 = (pooled next head, some (.ok 0x20050 0 true true)) := rfl

theorem pooled_unlocked (next head : Nat) (va : Word) (pa : Nat) :
    (pooled next head).lockHit (pooled next head).here (pooled next head).asid va (.mem pa) true = none := by
  rw [(pooled_at next head).1]; rfl

theorem witness_pool_access (next head : Nat) (k : State → Loc → State) :
    (pooled next head).poolAccess 0x10000 k = k (pooled next head) (.mem 0x20000) ∧
      (pooled next head).poolAccess 0x10040 k = k (pooled next head) (.mem 0x20040) ∧
      (pooled next head).poolAccess 0x10050 k = k (pooled next head) (.mem 0x20050) := by
  unfold State.poolAccess
  rw [show vclass 0x10000 = .memory from rfl, show vclass 0x10040 = .memory from rfl, show vclass 0x10050 = .memory from rfl]
  dsimp only
  unfold State.checkMemory
  rw [(pooled_at next head).1, (pooled_at next head).2, pooled_first, pooled_element, pooled_second]
  refine ⟨?_, ?_, ?_⟩
  all_goals
    simp only [show Mode.object.writes = true from rfl, pooled_unlocked]
    rfl

theorem pool_owned (s : State) (own : s.l2Write (dieOf s.here) (0x20000 / 64) = (s, true)) (free : s.ordered = false)
    (alone : (s.l1Drop (0x20000 / 64) fun t => t == s.here).resolve .free true (.mem 0x20000) 64 = some (s, []))
    (k : State → State) : s.poolOwn (.mem 0x20000) k = k s := by
  unfold State.poolOwn
  dsimp only
  rw [own]
  dsimp only
  rw [show (s.l1Drop (0x20000 / 64) fun t => t == s.here).ordered = false from free, if_neg (by decide), alone]
  rfl

theorem witness_pool_owned :
    (∀ k, (pooled 1 0).poolOwn (.mem 0x20000) k = k (pooled 1 0)) ∧ (∀ k, (pooled 4 0).poolOwn (.mem 0x20000) k = k (pooled 4 0)) ∧
      (∀ k, (pooled 1 0x10040).poolOwn (.mem 0x20000) k = k (pooled 1 0x10040)) ∧ (pooled 1 0).parts = [] ∧ (pooled 4 0).parts = [] :=
  ⟨pool_owned _ rfl rfl rfl, pool_owned _ rfl rfl rfl, pool_owned _ rfl rfl rfl, rfl, rfl⟩

theorem pool_linked (s : State) (pa : Nat) (store : Bool) (done : s.ownOverlap (.mem pa) 8 = false) (free : s.ordered = false)
    (line : (if store = true then s.l2Write (dieOf s.here) (pa / 64) else s.l2Read (dieOf s.here) (pa / 64)) = (s, true))
    (alone : s.resolve .free store (.mem pa) 8 = some (s, [])) (k : State → State) :
    s.poolLink (.mem 0x20000) store (.mem pa) k = k s := by
  unfold State.poolLink
  rw [done]
  dsimp only
  rw [line]
  dsimp only
  rw [free, alone]
  simp [State.requestRepairs]

theorem witness_pool_linked :
    (∀ k, (pooled 1 0x10040).poolLink (.mem 0x20000) false (.mem 0x20040) k = k (pooled 1 0x10040)) ∧
      (∀ k, (pooled 1 0).poolLink (.mem 0x20000) true (.mem 0x20050) k = k (pooled 1 0)) ∧ (pooled 1 0x10040).parts = [] ∧
      (pooled 1 0x10040).l2Holds 0x20040 = true ∧ (pooled 1 0).l2St (dieOf (pooled 1 0).here) (0x20050 / 64) = .m :=
  ⟨pool_linked _ _ _ rfl rfl rfl rfl, pool_linked _ _ _ rfl rfl rfl rfl, rfl, rfl, rfl⟩

/-- An ordered task's POOLGET is logged. -/
theorem witness_pool_logged : ((dev (logging [])).undoAppend 7 { kind := 3, place := 0x10000, val := 0x10050, va := 0x10000 }).isSome = true := by
  decide +kernel

theorem witness_pool_elements :
    (pooled 1 0x10040).locate 3 5 0x10040 .pool = .inl (.mem 0x20040) ∧ (pooled 1 0).locate 3 5 0x10000 .pool = .inl (.mem 0x20000) ∧
      (pooled 1 0).locate 3 5 0x10050 .pool = .inl (.mem 0x20050) := by decide

/-- A range of commutative dwords over the line at virtual address 0x10000. -/
def sums (live : Bool) : CrRange := { fmt := .i64, base := 0x10000, len := 64, live := live }

def summing (live : Bool) : State :=
  { dev (free [(4, 0x10000), (5, 64)]) with launches := [(3, { launch3 with ranges := [sums live] })] }

theorem witness_range_declarations :
    (free [(4, 0x10000), (5, 64)]).issues [.w 4, .w 5] [] = true ∧ ((free []).crdeclCheck 3 .i64 0x10000 64).isNone = true ∧
      ((free []).crdeclCheck 3 .f32 0x10008 64).isSome = true ∧ ((free []).declared 3 .i64 0x10000 64).isNone = true ∧
      ((summing true).crdeclCheck 3 .i64 0x10000 64).isNone = true ∧ (summing true).declared 3 .i64 0x10000 64 = some (sums true) ∧
      (ordered []).ordered = true ∧ (0x10008 : Word).toNat % 64 ≠ 0 := by decide +kernel

theorem witness_range_in_force :
    (summing false).launches.get? 3 = some { launch3 with ranges := [sums false] } ∧ (sums false).live = false := ⟨rfl, rfl⟩

theorem witness_range_waiters :
    ∃ c, (ctxWith (summing false) fun c => { c with status := .waiting .crdecl }).ctxs.get? 0 = some c ∧ c.task.lq = 3 ∧
      c.status = .waiting .crdecl := ⟨_, rfl, rfl, rfl⟩

theorem witness_range_additions : (summing true).issues [.w 4, .w 5] [] = true ∧
    (summing true).commRange (summing true).cx.task.lq ((summing true).rd 4) = some (sums true) ∧
    ((summing true).rd 4).toNat % CrFmt.bytes (sums true).fmt = 0 ∧ (summing true).ownOverlap (.mem 0x20000) 8 = false ∧
    (((summing true).ageElements (.mem 0x20000) 8 none).craddAt 0 0x20000 .i64 5).isSome = true := by decide +kernel

theorem witness_range_translation : (summing true).translate (State.walkLook (dieOf 0)) 0 9 0x10000 = (summing true, some (.ok 0x20000 0 true true)) := rfl

theorem witness_range_access : (summing true).Passes 0x10000 .add (summing true) (.mem 0x20000) 0 := by
  intro fail busy k
  unfold State.checkAccess
  rw [show vclass 0x10000 = .memory from rfl]
  dsimp only
  unfold State.checkMemory
  rw [show (summing true).here = 0 from rfl, show (summing true).asid = 9 from rfl, witness_range_translation]
  rfl

theorem witness_orders : [(1 : Word), 2].Perm [2, 1] := by decide +kernel

/-- Addends of each kind that the clauses of R207 and R208 name: a NaN, both infinities, one infinity, and finite values alone. -/
theorem witness_sums :
    fp64.decode 0x7FF8000000000000 = .nan ∧ fp64.decode 0x7FF0000000000000 = .inf false ∧ fp64.decode 0xFFF0000000000000 = .inf true ∧
      fp32.decode 0x7FC00000 = .nan ∧ fp32.decode 0x7F800000 = .inf false ∧ fp32.decode 0xFF800000 = .inf true ∧
      fp32.decode 0x3F800000 = .fin false 0x800000 (-23) ∧ fp32.decode 0x80000001 = .fin true 1 (-149) ∧
      (∃ m e, fp64.decode 0x3FF0000000000000 = .fin false m e) := by
  refine ⟨by decide, by decide, by decide, by decide, by decide, by decide, by decide, by decide, _, _, rfl⟩

/-- Two dies hold partial sums of a line of range elements, one of them of the element at the line's end. -/
def combining : State :=
  { State.reset with
    full := true, home := [(0x800, { HomeLine.idle with st := .p, mask := [0, 1] })], l2 := [(State.l2Key 0 0x800, .p), (State.l2Key 1 0x800, .p)]
    parts := [addendOf .i64 0 1 0x20000 5, addendOf .i64 1 1 0x20038 7] }

theorem witness_combining : Memory.wf combining.mem = true ∧ (combining.homeLine 0x800).st = .p ∧ (combining.homeLine 0x800).busy = none ∧
    (combining.homeLine 0x800).queue = [] ∧ combining.lowerFirst 2 0x800 = false ∧ (∃ p ∈ combining.parts, p.pa / 64 = 0x800) ∧
    (∀ p ∈ combining.parts, p.pa / 64 = 0x800 → p.fmt = .i64) := by decide +kernel

/-! ## Witnesses: engine commands -/

/-- A handle of 2 dense rows of 4 columns, with gather rows of 2 dwords. -/
def handle (vfmt : Nat) : Line := BitVec.ofNat 512 (vfmt * 2 ^ 8 + (4 * 2 ^ 32 + 2) * 2 ^ 64 + 2 * 2 ^ 480)

/-- The same matrix, compressed: its row pointers stand at 0x1000, where every byte is zero. -/
def emptyRows (vfmt : Nat) : Line := handle vfmt + BitVec.ofNat 512 (2 ^ 4 + (sp 0x1000).toNat * 2 ^ 128)

/-- The lease of the running task. -/
def lease7 : Lease := { tile := 0, uid := 7, lq := 3, granted := true, leaving := false }

/-- Tile 0 has its lease, parameter sets that name rows at 0x1000 and a window at 0x1800, and a handle of the format in force. -/
def leasing (ws : List (Nat × Word)) : State :=
  let s := ctxWith (free ws) fun c => { c with h := c.h.set 1 (handle (bits TileS.reset.fmtWord 8 4)) }
  { s.setTile 0 { TileS.reset with
      reed := TileS.reset.reed.set 0 #v[32, 32, sp 0x1800, 0]
      heron := TileS.reset.heron.set 0 #v[0, 8, 0x20002]
      lode := TileS.reset.lode.set 0 #v[32, 64, 64, 2, 0, 0] } with
    clusters := [(0, { ClusterS.reset with holder := some lease7 })] }

theorem witness_lease :
    (free []).leaseMine = false ∧ (leasing []).leaseMine = true ∧ (leasing []).ordered = false ∧ (leasing []).issues [] [.e 1] = true ∧
      (free []).issues [] [.e 1] = true ∧ (free []).ordered = false := by decide +kernel

/-- Entry 0 is free on a tile with its engines in service. -/
theorem witness_takes_command (op : CmdOp) (n : Nat) (h : n ≤ 4) : (leasing []).TakesCommand op n 0 ∧ (free []).TakesCommand op n 0 := by
  refine ⟨⟨?_, ?_, ?_, ?_⟩, ⟨?_, ?_, ?_, ?_⟩⟩
  all_goals first
    | exact rfl
    | (show 0 + n ≤ 1280; omega)
    | (intro _; show 0 < 512; omega)

theorem witness_reedbed :
    (let s := leasing [(4, sp 0x1000), (5, 2)]
     s.issues [.w 4, .w 5] [.e 1] = true ∧ fmtWordOk 0x2200 = true ∧ fmtWordOk 0 = false ∧ geoWordOk 0x7F7F = true ∧
      (let v := s.reedView s.here 7 (s.tile s.here).cmdSeq
       bit v.fmt 1 = false ∧ v.active.asc = false ∧
        (s.rowsSide (s.rd 4) 32 v.k ((v.n * vcvtWidth (bits v.fmt 12 4) + 7) / 8)).isSome = true ∧
        (s.rowsSide (s.rd 4) 32 2 ((v.active.k * vcvtWidth v.active.afmt + 7) / 8)).isSome = true ∧
        handleOk s.cx.h[1] = true ∧ handleVfmt s.cx.h[1] = bits v.fmt 8 4) ∧ s.issues [.w 4, .w 5, .h 1] [.e 1] = true ∧
      s.issues [.w 4] [.e 1] = true) ∧
    (let s := free [(4, 0x2200), (5, 0)]
     s.leaseMine = false ∧ s.ordered = false ∧ s.issues [.w 4, .w 5] [.e 1] = true ∧ fmtWordOk (s.rd 4) = true ∧ (s.rd 5).toNat = 0) ∧
    (let s := leasing [(4, sp 0x1000), (5, sp 0x1400)]
     let s := s.setTile 0 { s.tile 0 with fmtWord := (s.tile 0).fmtWord ||| 2 }
     let v := s.reedView s.here 7 (s.tile s.here).cmdSeq
     bit v.fmt 1 = true ∧ s.leaseMine = true ∧ (s.rowsSide (s.rd 4) 32 v.k ((v.n * vcvtWidth (bits v.fmt 12 4) + 7) / 8)).isSome = true ∧
      (s.rowsSide (s.rd 5) 0 1 (v.n * ((v.k + 31) / 32))).isSome = true) ∧
    (let s := leasing []
     let s := s.setCluster 0 { s.cluster 0 with active := { (s.cluster 0).active with asc := true } }
     (s.reedView s.here 7 (s.tile s.here).cmdSeq).active.asc = true) := by decide +kernel

theorem witness_spans : State.scratchAt (sp 0x1800) 0x1800 ∧ (leasing []).SpanFits 0x1800 0 (512 * (2 - 1) + 4 * 128 : Nat) ∧
    State.scratchAt (sp 0x1000) 0x1000 ∧ (leasing []).SpanFits 0x1000 0 (8 * 2 * 2 : Nat) := by
  refine ⟨?_, ?_, ?_, ?_⟩
  · unfold State.scratchAt; decide +kernel
  · unfold State.SpanFits; decide +kernel
  · unfold State.scratchAt; decide +kernel
  · unfold State.SpanFits; decide +kernel

theorem witness_heron :
    (let s := leasing [(4, sp 0x1000), (5, sp 0x2000)]
     let ctl := ((s.tile s.here).heron[0].toList).getD 2 0
     bits ctl 44 2 ≠ 3 ∧ bits ctl 16 17 = 2 ∧ bits ctl 0 10 = 2 ∧ (s.rd 4).toNat % 8 = 0 ∧ (s.rd 5).toNat % 4 = 0 ∧
      s.issues [.w 4, .w 5] [.e 1] = true ∧ s.issues [.w 4, .w 5, .h 1] [.e 1] = true) ∧
    (let s := leasing [(4, sp 0x1000), (5, 1)]
     (s.rd 5).toNat < (handleOf s.cx.h[1]).rows ∧ handlePitch s.cx.h[1] * 1 ≤ 32 ∧
      (s.rowEmpty (s.capture .gather 1 (s.rd 4) (s.rd 5) [] (some s.cx.h[1]) 0 []) s.cx.h[1]).isNone = true) ∧
    (let s := ctxWith (leasing [(4, sp 0x1000), (5, 1)]) fun c => { c with h := c.h.set 1 (emptyRows 2) }
     handleOk s.cx.h[1] = true ∧
      (s.rowEmpty (s.capture .gather 1 (s.rd 4) (s.rd 5) [] (some s.cx.h[1]) 0 []) s.cx.h[1]).isSome = true) ∧
    (let s := leasing [(4, 0x20000), (5, 2)]
     handleOk s.cx.h[1] = true ∧ (s.rd 4).toNat % 8 = 0 ∧ (handleOf s.cx.h[1]).rows ≤ (s.rd 5).toNat) ∧
    (0x10000 : Word).toNat / 2 ^ 24 ≠ 2 ^ 40 - 1 := by decide +kernel

theorem witness_lode :
    (let s := leasing [(4, 0x20000), (5, sp 0x1000)]
     let p := (s.tile s.here).lode[0].toList
     s.issues [.w 4, .w 5] [.e 1] = true ∧ bits (p.getD 0 0) 0 32 = 32 ∧ bits (p.getD 3 0) 0 32 = 2 ∧ bits (p.getD 3 0) 32 32 = 0 ∧
      (free []).issues [.w 4, .w 5] [.e 1] = true ∧ bits (((free []).tile 0).lode[0].toList.getD 0 0) 0 32 = 0 ∧
      ¬State.scratchAt (0x20000 : Word) 0) := by
  unfold State.scratchAt; decide +kernel

theorem witness_lode_span : (leasing []).SpanFits 0x1000 (min 0 ((2 - 1) * 64) + min 0 0) (max 0 ((2 - 1) * 64) + max 0 0 + 32) := by
  unfold State.SpanFits; decide +kernel

/-- The tile's system context, outside a handler, on a register's values. -/
def system (ws : List (Nat × Word)) : State :=
  { free [] with cur := 16, ctxs := [(0, runs []), (16, runs ws)] }

theorem witness_page_commands :
    (system []).outsideHandler = true ∧
      (let s := free [(4, sp 0x800), (5, 2)]
       s.outsideHandler = false ∧ s.issues [.w 4, .w 5] [.e 1] = true ∧ 0x800 % 2048 = 0 ∧ (s.rd 5).toNat ≠ 0 ∧
        0x800 / 2048 + (s.rd 5).toNat ≤ s.myLaunch.sppages ∧ s.myBlock.xb ≤ 0x800 ∧ (∀ i < 2, 0x800 / 2048 + i ∉ s.workHeld 5) ∧
        (s.rd 5).getLsbD 63 = false ∧ s.ordered = false ∧
        (s.pinsOn (s.blockTile 5)).length + (((List.range 2).map fun i => 1 + i).filter fun q =>
          !(s.pinsOn (s.blockTile 5)).contains (5, q)).length ≤ frameCount (s.tile (s.blockTile 5)) - 32) ∧
      (let s := { free [(4, 1)] with launches := [(3, { launch3 with tiles := [0, 1] })] }
       s.issues [.w 4] [.e 1] = true ∧ s.live 1 = true ∧ 1 ∈ s.myLaunch.tiles ∧ s.blockLeased 5 = false ∧ 1 ≠ s.blockTile 5) := by
  decide +kernel

/-! ## Witnesses: tickets -/

/-- A command of the running task, registered under the ticket of entry 0 at generation 0. -/
def running : Cmd := { locking with op := .cpy, ticket := ticketWord 2000 0 0 0, due := 2000 }

def ticketed (x : Word) (c : Cmd) : State :=
  (ctxWith (free []) fun y => { y with e := y.e.set 1 x }).setTile 0 { TileS.reset with
    cmds := [(0, c)], faulted := [{ ticket := ticketWord 2000 0 5 0, cause := 0x06, index := 1 }] }

theorem witness_tickets :
    (let s := ticketed (ticketWord 2000 0 0 0) running
     let x := s.cx.e[1]
     s.issues [.e 1] [] = true ∧ s.issues [.e 1] [.w 4] = true ∧ s.issues [.w 4] [.e 1] = true ∧ s.ordered = false ∧
      s.ticketBad x = false ∧ s.faultOf x = none ∧ s.liveCmd x = some running ∧ s.dueOver running = false ∧ running.op ≠ .spmig) ∧
    (let c := { running with ticket := ticketWord 900 0 0 0, due := 900 }
     let s := ticketed (ticketWord 900 0 0 0) c
     s.liveCmd s.cx.e[1] = some c ∧ s.dueOver c = true ∧ c.missed = false) ∧
    (let s := ticketed (ticketWord 2000 0 5 0) running
     (s.faultOf s.cx.e[1]).isSome = true ∧ s.ticketBad s.cx.e[1] = false) ∧
    (let s := ticketed (ticketWord 2000 384 0 0) running
     s.ticketBad s.cx.e[1] = true) ∧ (ordered []).issues [.e 1] [] = true := by decide +kernel

theorem witness_tickets_done : (free []).TicketDone 0 ∧ (ticketed (ticketWord 2000 0 0 1) running).TicketDone (ticketWord 2000 0 0 1) := by
  unfold State.TicketDone; decide +kernel

theorem witness_registration :
    (let c := { locking with registered := false }
     let s := (awaits (.e 1) (free [])).setTile 0 { TileS.reset with cmds := [(0, c)] }
     (s.tile 0).cmds.get? 0 = some c ∧ c.registered = false ∧ s.ctxOf c.uid = some 0 ∧
      ((s.ctx 0).results.find? fun p => p.reg == .e c.treg).isSome = true) := by decide +kernel

theorem witness_completion :
    (([.mfmt, .mgeo, .mdrain, .mswap] : List CmdOp).all fun op =>
      let c := { locking with op := op, ranges := [] }
      let s := (leasing []).setTile 0 { (leasing []).tile 0 with cmds := [(0, c)] }
      c.registered && c.cancel.isNone && s.cmdReady 0 c && !s.cmdDeferred c && (((s.tile 0).cmds.map (·.1)) == [0])) = true := by decide +kernel

theorem witness_held :
    (let c := { locking with seq := 2 }
     let s := (leasing []).setTile 0 { (leasing []).tile 0 with cmds := [(0, c), (1, { locking with seq := 1 })] }
     (s.tile 0).cmds.get? 0 = some c ∧ c.registered = true ∧ c.op ≠ .spmig ∧ c.cancel = none ∧
      (∃ o, o ∈ (s.tile 0).cmds.map (·.2) ∧ o.seq < c.seq ∧ ∃ r ∈ o.ranges, ∃ q ∈ c.ranges, (r.write = true ∨ q.write = true) ∧
        r.scratch = q.scratch ∧ r.space = q.space ∧ r.firstLine ≤ q.lastLine ∧ q.firstLine ≤ r.lastLine)) := by decide +kernel

theorem witness_promises :
    (let c := { running with ticket := ticketWord 900 0 0 0, due := 900 }
     let s := ctxWith (ticketed (ticketWord 900 0 0 0) c) fun y => { y with status := .waiting .ticket, waitOn := some (ticketWord 900 0 0 0) }
     (s.ctx (ctxKey 0 0)).status = .waiting .ticket ∧ (s.ctx (ctxKey 0 0)).waitOn = some (ticketWord 900 0 0 0) ∧
      (s.waitingOn (ticketWord 900 0 0 0)).head? = some 0 ∧
      s.liveCmd (ticketWord 900 0 0 0) = some c ∧ s.dueOver c = true ∧ c.missed = false ∧
      ({ s with cycle := 800 }).dueOver c = false ∧ (1000, Event.commandComplete 0 0) ∉ s.agenda ∧
      (1000, Event.commandComplete (ticketTile (ticketWord 900 0 0 0)) (ticketEntry (ticketWord 900 0 0 0))) ∈
        ({ s with agenda := [(1000, Event.commandComplete 0 0)] }).agenda) := by decide +kernel

/-- Tile 0 and then tile 1 ask for the lease of cluster 0; tile 0's MLEASE is registered. -/
def asking (holder : Option Lease) (leaseQ : List Lease) : State :=
  let s := (free []).setTile 0 { TileS.reset with cmds := [(0, { locking with op := .mlease, ranges := [] })] }
  { s with clusters := [(0, { ClusterS.reset with holder := holder, leaseQ := leaseQ, count := 64 })] }

/-- A request of another task. -/
def request9 : Lease := { tile := 1, uid := 9, lq := 3, granted := false, leaving := false }

theorem witness_lease_grant :
    (let l := { lease7 with granted := false }
     let s := asking none [l, request9]
     (s.cluster 0).holder = none ∧ (s.cluster 0).leaseQ = [l, request9] ∧ (∀ o ∈ [l, request9], o.leaving = false) ∧
      (∀ o ∈ [request9], o.granted = true → o.tile ≠ l.tile) ∧ (s.leaseCmd l).isSome = true ∧
      (∀ p, s.leaseCmd l = some p → p.2.registered = true) ∧ ((s.tile l.tile).cmds.map (·.1)).Pairwise (· < ·)) := by
  refine ⟨rfl, rfl, by decide, by decide, by decide, ?_, by decide⟩
  intro p h
  cases h
  rfl

theorem witness_rearbitration :
    (let s := asking (some request9) [lease7]
     (s.cluster 0).holder = some request9 ∧ (s.cluster 0).leaseQ = [lease7] ∧ request9.tile ≠ lease7.tile ∧ 64 ≤ (s.cluster 0).count) ∧
    (let s := asking (some lease7) []
     (s.cluster 0).holder = some lease7 ∧ (∀ o ∈ (s.cluster 0).leaseQ, o.tile = lease7.tile) ∧ 64 ≤ (s.cluster 0).count) := by decide +kernel

/-! ## Witnesses: conflicts -/

/-- Task 9, which uses the line at page 1's start, beside task 7. -/
def met (y : Spec) : State := { ordered [] with specs := [(7, slot7), (9, y)] }

/-- Task 9 at a timestamp, with nothing in its records. -/
def bare (ts : Word) : Spec := { slot7 with task := { ordTask with uid := 9, ts := ts } }

/-- It has written the line, or read it. -/
def wrote (y : Spec) : Spec :=
  { y with wsig := insertW 0 (sigKey (.scr 5 0x800)), undo := [{ kind := 1, place := 5 * 2 ^ 24 + 0x100, val := 0, va := sp 0x800 }] }
def read (y : Spec) (elig : Bool) (syms : List SymLoad) (plain : List Nat) : Spec :=
  { y with rsig := insertR 0 (sigKey (.scr 5 0x800)), elig := elig, syms := syms, plain := plain }

/-- An accessor, what task 9 has done, what a load and a store at page 1's start do: the uids repaired, or none for a wait; and
whether task 9 is then gone from its context. -/
theorem witness_conflicts :
    (let sym : List SymLoad := [{ va := sp 0x800, loc := .scr 5 0x800, size := 8, val := 9 }]
     let off : List SymLoad := [{ va := sp 0x820, loc := .scr 5 0x820, size := 8, val := 9 }]
     let key := sigKey (.scr 5 0x800)
     let o : Party := .ordered 7
     ([(o, wrote (bare 30), false, some []), (o, wrote (bare 30), true, some []), (o, bare 50, false, some []), (.free, bare 50, true, some []),
        (o, wrote (bare 50), false, some []), (.free, wrote (bare 50), false, none), (o, wrote (bare 50), true, some []),
        (o, read (bare 50) false sym [], true, some []), (o, read (bare 50) true sym [], true, some [9]),
        (.free, read (bare 50) true sym [], true, some []), (o, read (bare 50) true off [key], true, some []),
        (o, read (bare 50) true off [], true, some [])].all fun (who, y, store, out) =>
      let s := met y
      (s.specs.get? 9 == some y) && !s.restoreHeld 9 && s.hitOn who store (.scr 5 0x800) 8 slot7 == .none
        && ((s.resolve who store (.scr 5 0x800) 8).map fun x => x.2) == out) = true ∧
     ((met (bare 50)).specs.map (·.1)).Pairwise (· < ·) ∧ slot7.before (bare 30) = false ∧ slot7.before (bare 50) = true ∧
     (locked (met (wrote (bare 50)))).restoreHeld 9 = true ∧ memberR (bare 50).rsig key = false ∧
     memberW (wrote (bare 50)).wsig key = true ∧ memberR (read (bare 50) true [] []).rsig key = true ∧
     ({ met (bare 50) with specVec := [{ die := 0, line := 0x800, tiles := [0], broad := [], away := false }] }).specNames 0x800 0 3 = true) := by
  decide +kernel

/-! ## Witnesses: what the engines do -/

/-- What an engine's program gives, and the state that it leaves. -/
def ran {α : Type} (m : Eng α) (s : State) : Option α := match (m.run.run s).1 with
  | .ok a => some a
  | .error _ => none

def left_ {α : Type} (m : Eng α) (s : State) : State := (m.run.run s).2

theorem runs_to {α : Type} {m : Eng α} {s : State} {a : α} (h : ran m s = some a) : m.run.run s = (.ok a, left_ m s) := by
  unfold ran at h
  unfold left_
  rcases hm : m.run.run s with ⟨r, t⟩
  rw [hm] at h
  cases r with
  | ok b => cases h; rfl
  | error e => cases h

/-- Tile 0 with a command of its launch; page 1 holds 1, 2, 3, 4 and then zeros. -/
def commanding (c : Cmd) (s : State) : State :=
  (s.frameWrite 5 0x800 [1, 2, 3, 4]).setTile 0 { s.tile 0 with cmds := [(0, c)] }

def copying : Cmd := { locking with op := .cpy, a := sp 0x1000, b := sp 0x800, params := [4, 0, 0, 1, 0, 0], ranges := [] }

theorem witness_engine_places :
    (let s := commanding copying (dev (free []))
     State.scratchAt (sp 0x7FE + 2) 0x800 ∧ s.specs = [] ∧ Memory.wf s.frames = true ∧ (s.blocks.get? 5).isSome = true ∧ (s.launch 3).sppages ≤ 8192 ∧
      0x800 + 4 ≤ 2048 * (s.launch 3).sppages ∧ (s.block 5).xb ≤ 0x800 ∧ (s.page 5 1).st = .framed ∧ (s.page 5 1).lock = false ∧
      s.frameIsBad 5 1 = false ∧
      (∀ i < 4, ∀ j < 4, frameBase 0 1 + (0x800 + i) % 2048 = frameBase 0 1 + (0x800 + j) % 2048 → i = j) ∧
      (s.launch 3).regions = [] ∧ vclass 0x10000 = .memory ∧ isDevice 0x20000 = true ∧ s.parts = [] ∧ s.priv = [] ∧ s.linksDown = [] ∧
      s.lineBusy 0x800 = false ∧ s.poisoned 0x20000 = false) := by
  unfold State.scratchAt; decide +kernel

theorem witness_engine_translation : (commanding copying (dev (free []))).translate (State.engLook (dieOf 0)) 0 9 0x10000 =
    (commanding copying (dev (free [])), some (.ok 0x20000 0 true true)) := rfl

theorem witness_performs : ([copying, { copying with op := .gather }, { copying with op := .scatter }, { copying with op := .scatterAdd },
      { copying with op := .hld }, { copying with op := .hst }, { copying with op := .spmap }, { copying with op := .spfree },
      { copying with op := .sppin }, { copying with op := .spflush }, { copying with op := .mloadw }, { copying with op := .mstream }].all fun c =>
    let s := commanding c (leasing [])
    (s.tile 0).cmds.get? 0 == some c && c.registered && c.cancel.isNone && s.cmdReady 0 c && !s.cmdDeferred c) = true := by decide +kernel

theorem witness_copies :
    (let s := commanding copying (free [])
     let s1 := left_ (engRead 0 copying (sp 0x800) 4) s
     let s2 := left_ (engWrite 0 copying (sp 0x1000) [1, 2, 3, 4]) s1
     inTurn (fun i x y => x.EngReads 0 copying (sp 0x800 + BitVec.ofNat 64 i) 4 [1, 2, 3, 4] y) [0] s s1 ∧
      inTurn (fun i x y => x.EngWrites 0 copying (sp 0x1000 + BitVec.ofNat 64 i) [1, 2, 3, 4] y) [0] s1 s2 ∧
      ((s2.tile 0).cmds.map (·.1)).Pairwise (· < ·)) :=
  ⟨⟨_, runs_to (by decide +kernel), rfl⟩, ⟨_, runs_to (by decide +kernel), rfl⟩, by decide +kernel⟩

/-- One row of 8 bytes between page 2 and page 1, named by the index list at 0x900, where a zero stands. -/
def moving1 (op : CmdOp) : Cmd :=
  { locking with op := op, a := sp 0x1000, b := sp 0x900, params := [sp 0x800, 8, 0x10001], ranges := [] }

theorem witness_table_rows :
    (let s := commanding (moving1 .gather) (free [])
     let s1 := left_ (engRead 0 (moving1 .gather) (sp 0x900) 4) s
     let s2 := left_ (engRead 0 (moving1 .gather) (sp 0x800) 8) s1
     let s3 := left_ (engWrite 0 (moving1 .gather) (sp 0x1000) [1, 2, 3, 4, 0, 0, 0, 0]) s2
     s.EngReads 0 (moving1 .gather) (sp 0x900) 4 [0, 0, 0, 0] s1 ∧ s1.EngReads 0 (moving1 .gather) (sp 0x800) 8 [1, 2, 3, 4, 0, 0, 0, 0] s2 ∧
      s2.EngWrites 0 (moving1 .gather) (sp 0x1000) [1, 2, 3, 4, 0, 0, 0, 0] s3) ∧
    (let s := commanding (moving1 .scatter) (free [])
     let s1 := left_ (engRead 0 (moving1 .scatter) (sp 0x900) 4) s
     let s2 := left_ (engRead 0 (moving1 .scatter) (sp 0x1000) 8) s1
     s.EngReads 0 (moving1 .scatter) (sp 0x900) 4 [0, 0, 0, 0] s1 ∧ s1.EngReads 0 (moving1 .scatter) (sp 0x1000) 8 (List.replicate 8 0) s2 ∧
      s2.EngWrites 0 (moving1 .scatter) (sp 0x800) (List.replicate 8 0) (left_ (engWrite 0 (moving1 .scatter) (sp 0x800) (List.replicate 8 0)) s2)) ∧
    (State.scratchAt (sp 0x1000) 0x1000 ∧ 0x1000 + 8 ≤ 2 ^ 24 ∧ bits (0x10001 : Word) 16 17 = 1 ∧ 8 * bits (0x10001 : Word) 0 10 = 8) := by
  refine ⟨⟨runs_to (by decide +kernel), runs_to (by decide +kernel), runs_to (by decide +kernel)⟩,
    ⟨runs_to (by decide +kernel), runs_to (by decide +kernel), runs_to (by decide +kernel)⟩, ?_⟩
  unfold State.scratchAt; decide

/-- SCATTER.ADD of an integer into the range at 0x10000. -/
def adding : Cmd := { locking with op := .scatterAdd, a := sp 0x800, b := sp 0x900, params := [0x10000, 8, 0x10001], ranges := [] }

theorem witness_scattered_sums :
    (let s := commanding adding (summing true)
     let s1 := left_ (engRead 0 adding (sp 0x900) 4) s
     let s2 := left_ (engRead 0 adding (sp 0x800) 8) s1
     s.EngReads 0 adding (sp 0x900) 4 [0, 0, 0, 0] s1 ∧ s1.EngReads 0 adding (sp 0x800) 8 [1, 2, 3, 4, 0, 0, 0, 0] s2 ∧
      s2.commRange 3 0x10000 = some (sums true) ∧ (0x10000 : Word).toNat % 8 = 0 ∧
      (engPlace 0 adding 0x10000 true).run.run s2 = (.ok (.mem 0x20000, 0), left_ (engPlace 0 adding 0x10000 true) s2) ∧
      ((left_ (engPlace 0 adding 0x10000 true) s2).craddAt 0 0x20000 .i64 0x4030201).isSome = true) :=
  ⟨runs_to (by decide +kernel), runs_to (by decide +kernel), by decide +kernel, by decide, runs_to (by decide +kernel), by decide +kernel⟩

/-- A handle of 2 rows of 4 bytes in one of the formats of R266: values at page 1, pointers and coordinates at 0x900 and 0xA00, where
zeros stand. -/
def structured (f1 : Nat) : Line :=
  BitVec.ofNat 512 (f1 * 2 ^ 4 + 8 * 2 ^ 8 + (4 * 2 ^ 32 + 2) * 2 ^ 64 + (sp 0x900).toNat * 2 ^ 128 + (sp 0xA00).toNat * 2 ^ 192 +
    (sp 0x800).toNat * 2 ^ 256 + 4 * 2 ^ 320 + 2 ^ 480)

def imaging (op : CmdOp) (f1 : Nat) : Cmd :=
  { locking with op := op, a := sp 0x1000, b := 1, params := [], handle := some (structured f1), ranges := [] }

/-- The rows of each format as the handle's structure names them. -/
theorem witness_formats :
    ([0, 1, 2, 3, 4].all fun f1 =>
      let c := imaging .hld f1
      let h := handleOf (structured f1)
      let s := commanding c (free [])
      handleOk (structured f1) && h.f1 == f1 && (ran (rowSize 0 c h 0) s).isSome && (ran (rowEntry 0 c { h with pos := sp 0x800 } 0 0 0) s).isSome
        && (ran (rowEntries 0 c h 0) s).isSome && (ran (rowValues 0 c h 0 4) s).isSome && (ran (engRead 0 c (sp 0x900) 8) s).isSome
        && (ran (engRead 0 c (sp 0xA00) 8) s).isSome) = true ∧
    (let h := handleOf (structured 0)
     ran (rowValues 0 (imaging .hld 0) h 0 4) (commanding (imaging .hld 0) (free [])) = some [1, 2, 3, 4] ∧
      ran (rowEntries 0 (imaging .hld 0) h 0) (commanding (imaging .hld 0) (free [])) =
        some ((List.range 4).map fun j => ⟨j, sp 0x800, j⟩) ∧
      ran (rowEntry 0 (imaging .hld 1) { h with f1 := 1, crd := sp 0x800 } 0 0 0) (commanding (imaging .hld 1) (free [])) = none) := by
  decide +kernel

/-- HLD and HST of the second row, one row of 8 bytes. -/
theorem witness_images :
    (let c := imaging .hld 0
     let h := handleOf (structured 0)
     let s := commanding c (free [])
     let s1 := left_ (rowValues 0 c h 1 4) s
     inTurn (fun j p q => ∃ vs bs p1, (rowValues 0 c h (1 + j) 4).run.run p = (.ok vs, p1) ∧ bs.length = 8 ∧
      leNat bs = vs.foldr (fun v acc => v + 2 ^ h.width * acc) 0 ∧ p1.EngWrites 0 c (sp 0x1000 + BitVec.ofNat 64 (j * 8)) bs q) [0] s
      (left_ (engWrite 0 c (sp 0x1000) (List.replicate 8 0)) s1) ∧ min (max h.blk 1) (h.rows - 1) = 1 ∧ (h.cols * h.width + 63) / 64 * 8 = 8) ∧
    (let c := imaging .hst 0
     let h := handleOf (structured 0)
     let s := commanding c (free [])
     (ran (rowEntries 0 c h 1) s).isSome = true ∧ (ran (readValue 0 c (sp 0x1000) 8 0) s) = some 0 ∧
      (ran (writeValue 0 c (sp 0x800) 8 0 0) s).isSome = true ∧ (ran (readValue 0 c (sp 0x800) 4 1) s) = some 0 ∧
      (ran (writeValue 0 c (sp 0x800) 4 1 5) s).isSome = true) :=
  ⟨⟨⟨_, ⟨_, List.replicate 8 0, _, runs_to (a := [0, 0, 0, 0]) (by decide +kernel), rfl, by decide +kernel, runs_to (by decide +kernel)⟩, rfl⟩,
      by decide +kernel, by decide +kernel⟩, by decide +kernel⟩

/-- Page commands over page 1, page 3 and a parked page, in frames and not. -/
theorem witness_pages_performed :
    (let c := { copying with op := .spmap, a := sp 0x800, b := 1 }
     let s := commanding c (free [])
     (pageUnit c 1).run.run s = (.ok (), left_ (pageUnit c 1) s) ∧ (s.blocks.get? 5).isSome = true ∧ (s.page 5 1).lock = false ∧
      (s.page 5 1).tile = (s.block 5).tile ∧ (s.page 5 3).st = .unmapped ∧ (s.page 5 3).lock = false ∧ codePages (s.launch 3) ≤ 1 ∧
      s.ownerOf 5 1 = none ∧ (s.page 5 1).dirty = true ∧ ((s.setPage 5 1 (framed 1)).page 5 1).dirty = false ∧
      4 < frameCount (s.tile 0) ∧ 4 ∉ (s.framedOn 0).map (fun e => e.2.2.frame) ∧
      (∀ g < 4, g ∈ (s.framedOn 0).map fun e => e.2.2.frame) ∧ ((s.setPage 5 1 { framed 1 with lock := true }).page 5 1).lock = true ∧
      Memory.wf s.mem = true ∧ Memory.wf s.frames = true ∧
      ((s.setPage 5 3 { Page.unmapped with st := .parked }).page 5 3).st = .parked ∧ (∀ i < 32, s.slotAt 5 3 / 64 + i ∉ s.poison)) :=
  ⟨runs_to (by decide +kernel), by decide +kernel⟩

/-- The lease holder's MLOADW of one row and one column from page 1. -/
def loading (k n : Nat) (fmt : Word) (op : CmdOp) (s : State) : State :=
  let s := commanding { copying with op := op, a := sp 0x800, b := sp 0x900, params := [32, 32, sp 0x1800, 0] } s
  s.setTile 0 { s.tile 0 with geoK := k, geoN := n, fmtWord := fmt }

theorem witness_weights :
    (let s := loading 1 2 0x8802 .mloadw (leasing [])
     match (s.tile 0).cmds.get? 0 with
     | none => false
     | some c => ran (engRead 0 c (sp 0x800) 2) s == some [1, 2] && ran (engRead 0 c (sp 0x900) 2) s == some [0, 0]
        && (s.tile 0).fmtWord.getLsbD 1 && s.cmdReady 0 c) = true ∧
    zeroWeight 8 (zeroPattern 8) = true := by decide +kernel

theorem witness_products :
    cellProduct 8 8 3 2 none none = 0x40C00000 ∧ cellProduct 8 8 3 2 (some 255) none = 0x7FC00000 ∧ valOfCode 8 3 = .fin false 3 0 ∧
      valOfCode 0 0x7FF8000000000000 = .nan := by decide +kernel

/-- MSTREAM of one row through a plane that tile 0 has loaded, and the row's activations, from bytes and from a handle. -/
theorem witness_streams :
    (let s := loading 1 2 0x8800 .mstream (leasing [])
     let p : Plane := { Plane.empty with loaded := true, tile := 0, wfmt := 8, afmt := 8, k := 1, n := 2, weights := [2, 3] }
     let s := s.setCluster 0 { s.cluster 0 with active := p }
     match (s.tile 0).cmds.get? 0 with
     | none => false
     | some c => ran (activations 0 c p 0 0) s == some ([1], []) && ran (engRead 0 c (sp 0x800) 1) s == some [1]
        && (ran (engRead 0 c (sp 0x1800) 8) s).isSome && ran (engRead 0 c (sp 0x1000) 8) s == some (List.replicate 8 0)
        && (ran (engWrite 0 c (sp 0x1000) (leBytes 8 5)) s).isSome && s.cmdReady 0 c
        && ran (activations 0 { c with handle := some (structured 0), a := 0 } p 0 1) s == some ([0], [])
        && ran (activations 0 c { p with asc := true } (sp 0x900) 0) s == some ([1], [0])) = true := by decide +kernel

/-! ## Witnesses: fences, waits, barriers, publication -/

theorem witness_fences :
    (free []).issues [] [] = true ∧ (ordered []).issues [] [] = true ∧ (free []).ownPending = false ∧ (∀ t ∈ (free []).tiles, ∀ d ∈ t.2.cmds, d.2.uid ≠ 7) ∧
      (let s := (free []).setTile 0 { TileS.reset with cmds := [(0, locking)] }
       (∀ t ∈ s.tiles, ∀ d ∈ t.2.cmds, d.2.uid = s.cx.task.uid) ∧ s.ownPending = false ∧ s.issues [] [] = true) ∧
      ({ free [] with stores := [pend 1 .scratch 0x800] }).ownPending = true := by decide +kernel

theorem witness_waits : (free [(4, 0x10000)]).issues [.w 4, .w 5] [] = true ∧ ((free [(4, 0x10000)]).rd 4).toNat % 8 = 0 ∧
    ((free [(4, 3)]).rd 4).toNat % 8 ≠ 0 ∧ ((free []).rd 5).toNat = 0 ∧ ((free [(5, 1)]).rd 5).toNat ≠ 0 := by decide +kernel

theorem witness_watched : ∃ s2, (dev (free [])).Loads 0x10000 8 (.mem 0x20000) 0 s2 (List.replicate 8 0) := ⟨_, fun _ _ _ => rfl⟩

/-- The context waits for a dword whose value it has read. -/
def watching (val : Word) (due : Bool) : State :=
  { ctxWith (dev (free [])) fun c => { c with status := .waiting .memWord } with
    watches := [{ uid := 7, va := 0x10000, val := val, loc := .mem 0x20000, due := due }] }

theorem watching_translation (val : Word) :
    (watching val true).translate (State.walkLook (dieOf 0)) 0 9 0x10000 = (watching val true, some (.ok 0x20000 0 true true)) := rfl

theorem witness_watch_passes (val : Word) (h : val = 0 ∨ val = 5) :
    (watching val true).Passes 0x10000 .watch (watching val true) (.mem 0x20000) 0 := by
  intro fail busy k
  unfold State.checkAccess
  rw [show vclass 0x10000 = .memory from rfl]
  dsimp only
  unfold State.checkMemory
  rw [show (watching val true).here = 0 from (show 0 / 32 = 0 from rfl), show (watching val true).asid = 9 from rfl, watching_translation]
  rcases h with rfl | rfl <;> rfl

theorem witness_watching : ∃ s2, (watching 0 true).Loads 0x10000 8 (.mem 0x20000) 0 s2 (List.replicate 8 0) ∧
    (dev (free [])).watchOf 7 = none ∧ (watching 0 true).watchOf 7 = some ⟨7, 0x10000, 0, .mem 0x20000, true⟩ ∧
    (∃ c, (watching 0 false).ctxs.get? 0 = some c ∧ c.status = .waiting .memWord) ∧ (∀ w ∈ (watching 0 false).watches, w.due = false) :=
  ⟨_, fun _ _ _ => rfl, by decide, by decide, ⟨_, rfl, rfl⟩, by decide⟩

theorem witness_sleeps :
    (system []).inSystem = true ∧ (free []).inSystem = false ∧ (free []).cx.wake = false ∧
      (ctxWith (free []) fun c => { c with wake := true }).cx.wake = true ∧
      (∃ c, (ctxWith (free []) fun c => { c with status := .waiting .sleep }).ctxs.get? 0 = some c ∧ c.status = .waiting .sleep) ∧
      (system []).issues [] [] = true := by decide +kernel

/-- A barrier object in the data page: expected, arrived, generation, flags. -/
def barriers (expected arrived gen flags : Nat) : State :=
  let s := free [(4, sp 0x800)]
  s.frameWrite 5 0x800 (State.Barrier.bytes { expected := expected, arrived := arrived, gen := gen, flags := flags })

theorem witness_barriers :
    (barriers 2 1 7 1).issues [.w 4] [] = true ∧ ((barriers 2 1 7 1).rd 4).toNat % 16 = 0 ∧ (barriers 2 1 7 1).cx.barGen = none ∧
      (barriers 2 1 7 1).ownPending = false ∧ ((free [(4, sp 0x808)]).rd 4).toNat % 16 ≠ 0 ∧
      ({ free [(4, sp 0x800)] with stores := [pend 1 .scratch 0x900] }).ownPending = true ∧
      ([(2, 1, 1), (3, 1, 1), (2, 2, 0), (2, 1, 2)].all fun (e, a, f) =>
        State.barrierOf ((barriers e a 7 f).frameRead 5 0x800 16) == { expected := e, arrived := a, gen := 7, flags := f }) = true ∧
      (State.joinStep { expected := 2, arrived := 1, gen := 7, flags := 1 }).isSome = true ∧
      (State.joinStep { expected := 2, arrived := 1, gen := 7, flags := 0 }).isNone = true ∧
      (State.leaveStep { expected := 2, arrived := 1, gen := 7, flags := 1 }).isSome = true ∧
      (State.leaveStep { expected := 2, arrived := 1, gen := 7, flags := 2 }).isNone = true ∧
      (barriers 2 1 7 1).cx.regs.length < 4 ∧ sp 0x800 ∉ (barriers 2 1 7 1).cx.regs ∧
      (ctxWith (barriers 2 1 7 1) fun c => { c with regs := List.replicate 4 (sp 0x800) }).cx.regs.length = 4 := by decide +kernel

theorem witness_barrier_access : ∃ s1 mt, (barriers 2 1 7 1).Passes (sp 0x800) .object s1 (.scr 5 0x800) mt := ⟨_, _, fun _ _ _ => rfl⟩

/-- The context polls the barrier for the end of generation 7. -/
def polling (gen : Nat) : State := ctxWith (barriers 2 0 gen 1) fun c => { c with barGen := some (sp 0x800, 7) }

/-- An uncommitted task of its block that has written the line at page 1's start. -/
def writer9 : Spec :=
  { slot7 with task := { ordTask with uid := 9 }, wsig := insertW 0 (sigKey (.scr 5 0x800))
               undo := [{ kind := 1, place := 5 * 2 ^ 24 + 0x100, val := 0, va := sp 0x800 }] }

theorem witness_barrier_generation :
    ((polling 8).locate 3 5 (sp 0x800) .read = .inl (.scr 5 0x800) ∧ ((polling 8).barrierAt (.scr 5 0x800)).gen = 8 ∧
      ((polling 7).barrierAt (.scr 5 0x800)).gen = BitVec.toNat (7 : BitVec 32) ∧ ((polling 8).ctxs.map (·.1)).Pairwise (· < ·) ∧
      ({ polling 8 with specs := [(9, writer9)] }.resolve .free false (.scr 5 0x800) 16).isNone = true ∧
      ((polling 8).resolve .free false (.scr 5 0x800) 16).any (fun x => (x.1.barrierAt (.scr 5 0x800)).gen == 8) = true) := by decide +kernel

/-- A descriptor in the line at 0x10000 of a region at 0x20000, 64 bytes, at scope .pkg. -/
def describing (phase : Nat) (regions : List PubRegion) : State :=
  { dev (free [(4, 0x10000)]) with
    asidrtEn := true, asidrtBase := 0x8000000000000 / 2 ^ 19
    mem := Cells.writeN tables 0x20000 (leBytes 8 0x20000 ++ leBytes 8 64 ++ leBytes 8 phase ++ leBytes 1 4)
    launches := [(3, { launch3 with regions := regions })] }

def region2 : PubRegion := { base := 0x20000, len := 64, scope := 4, desc := 0x10000, closer := none, queue := [] }

theorem witness_publication :
    (describing 0 []).issues [.w 4] [] = true ∧ ((describing 0 []).rd 4).toNat % 64 = 0 ∧ (describing 0 []).ownPending = false ∧
      (describing 0 []).ordered = false ∧ (describing 0 []).dwordAt 0x20010 = 0 ∧ (describing 3 [region2]).dwordAt 0x20010 ≠ 0 ∧
      (describing 0 []).myLaunch.regions.length < 8 ∧
      (describing 3 [region2]).myLaunch.regions.find? (fun y => y.desc == 0x10000) = some region2 ∧ (describing 3 [region2]).cx.task.lq = 3 ∧
      (free [(4, 0x10008)]).ordered = false ∧ ((free [(4, 0x10008)]).rd 4).toNat % 64 ≠ 0 ∧
      leNat (((describing 0 []).bytesAt 0x20000 64).drop 24 |>.take 1) ≠ 5 := by decide +kernel

theorem witness_description : State.describes ((describing 0 []).bytesAt 0x20000 64) 4 region2 := by
  unfold State.describes; decide +kernel

theorem witness_descriptor_translation (phase : Nat) (rs : List PubRegion) :
    (describing phase rs).translate (State.walkLook (dieOf 0)) 0 9 0x10000 = (describing phase rs, some (.ok 0x20000 0 true true)) := rfl

theorem witness_descriptor_access (m : Mode) (h : m = .load ∨ m = .store) :
    (describing 0 []).Passes 0x10000 m (describing 0 []) (.mem 0x20000) 0 := by
  intro fail busy k
  unfold State.checkAccess
  rw [show vclass 0x10000 = .memory from rfl]
  dsimp only
  unfold State.checkMemory
  rw [show (describing 0 []).here = 0 from rfl, show (describing 0 []).asid = 9 from rfl, witness_descriptor_translation]
  rcases h with rfl | rfl <;> rfl

theorem witness_publication_regions : ¬State.apart region2 region2.base region2.len ∧
    State.apart region2 0x10000 64 := by unfold State.apart; decide

/-- The phase of the region is being closed by the running context; the die holds one private byte of it. -/
def closing : State :=
  let s := ctxWith (describing 3 [{ region2 with closer := some (0, 2, 4) }]) fun c => { c with status := .waiting .publish }
  { s with priv := [{ die := 0, lq := 3, desc := 0x10000, line := 0x30000 / 64, bytes := [(0x30000, 5)] }] }

theorem witness_closing :
    (let r := { region2 with closer := some (0, 2, 4) }
     r ∈ (closing.launch (closing.ctx (ctxKey 0 0)).task.lq).regions ∧
      (∀ x ∈ (closing.launch 3).regions, x.closer.map (·.1) = some 0 → x = r) ∧
      closing.locate 3 5 0x10000 .write = .inl (.mem 0x20000) ∧ closing.locate 3 5 0x10000 .read = .inl (.mem 0x20000) ∧
      ∀ p ∈ closing.priv, closing.stuck p.line none = [] ∧ closing.poison.contains p.line = false) := by decide +kernel

/-! ## Witnesses: special registers, traps -/

theorem witness_special_registers : csrOps ≠ [] ∧ (free []).issues [] [.w 3] = true ∧ (free []).issues [.w 4] [] = true ∧
    ([(0x000 : BitVec 10), 0x003, 0x015, 0x100, 0x10F, 0x184, 0x1C9].all csrListed) = true ∧ (free []).privileged = false ∧
    (system []).privileged = true ∧ ((free [(4, 0x80)]).rd 4).getLsbD 7 = true ∧ ((free []).rd 4).getLsbD 7 = false := by decide +kernel

/-- The launch has a user and a supervisor vector for cause 7, and a supervisor vector for cause 2. -/
def vectored : State :=
  { free [] with launches := [(3, { launch3 with uvec := (List.replicate 16 0).set 7 0x400, svec := ((List.replicate 16 0).set 7 0x600).set 2 0x600 })] }

theorem witness_traps :
    (let l := vectored.launch (vectored.ctx 0).task.lq
     (7 ∈ userCauses ∧ (vectored.ctx 0).psw.getLsbD 10 = false ∧ l.uvec.getD 7 0 ≠ 0) ∧ (2 ∉ userCauses ∧ l.svec.getD 2 0 ≠ 0) ∧
      (8 ∈ userCauses ∧ l.uvec.getD 8 0 = 0 ∧ l.svec.getD 8 0 = 0)) ∧
    (let c := (ctxWith vectored fun c => { c with psw := 0xC00 }).ctx 0
     c.psw.getLsbD 10 = true ∧ c.psw.getLsbD 11 = true) ∧ (ordered []).ordered = true ∧ (2 ∈ heldCauses) ∧ (8 ∉ heldCauses) ∧
    ((ctxWith (ordered []) fun c => { c with heldFault := some ⟨2, 0, 0, false, false, false, false, false⟩ }).ctx 0).heldFault.isSome = true ∧
    (ordered []).specs.get? ((ordered []).ctx 0).task.uid = some slot7 := by
  refine ⟨by decide, by decide, by decide, by decide, by decide, by decide, rfl⟩

theorem witness_system_instructions :
    (free []).cx.psw.getLsbD 10 = false ∧ (ctxWith (free []) fun c => { c with psw := 0x400 }).cx.psw.getLsbD 10 = true ∧
      (ctxWith (system []) fun c => { c with psw := 0x400 }).inSystem = true ∧
      (ctxWith (free []) fun c => { c with psw := 0x400 }).inSystem = false := by decide +kernel

/-- A context in a supervisor handler, so that it may switch workspaces. -/
def switching (to_ : Nat) : State := ctxWith (free [(4, sp to_)]) fun c => { c with psw := 0xC00 }

theorem witness_workspaces :
    (free []).privileged = false ∧ (free []).issues [.w 4] [.w 3] = true ∧ (switching 0x808).privileged = true ∧
      ((switching 0x808).rd 4).toNat % 2048 ≠ 0 ∧
      (ctxWith (free [(4, 0x10000)]) fun c => { c with psw := 0xC00 }).privileged = true ∧ (0x10000 : Word).toNat / 2 ^ 24 ≠ 2 ^ 40 - 1 ∧
      (let s := switching 0x800
       let c := s.cx
       s.issues [.w 4] [.w 3] = true ∧ (s.rd 4).toNat % 2048 = 0 ∧ s.rd 4 ≠ c.w[63] ∧ 0x800 < 2048 * s.myLaunch.sppages ∧ s.myBlock.xb ≤ 0x800 ∧
        0x800 / 2048 ∉ s.workUsed 5 ∧ c.ctxf &&& ~~~0x10000 = 0 ∧ c.results = [] ∧ s.inSystem = false ∧ s.plain 4 = true ∧ s.plain 3 = true ∧
        Memory.wf s.frames = true ∧ (s.page 5 1).lock = false ∧ (s.page 5 1).st = .framed ∧ s.frameIsBad 5 1 = false ∧
        (s.page 5 (State.workPage c)).st = .framed ∧ State.workPage c = 60 ∧
        frameBase (s.page 5 60).tile (s.page 5 60).frame ≠ frameBase (s.page 5 1).tile (s.page 5 1).frame) ∧
      (let s := switching (60 * 2048)
       s.rd 4 = s.cx.w[63] ∧ s.cx.ctxf &&& ~~~0x10000 = 0) ∧ State.scratchAt (sp 0x800) 0x800 := by
  unfold State.scratchAt; decide +kernel

/-! ## Witnesses: decoding and steps -/

/-- Tile 0 has its turn; the word at the pc stands in the fetch buffer or in the code page. -/
def turn (buf : List (Nat × BitVec 32)) : State :=
  let s := ctxWith (free []) fun c => { c with fetchBuf := buf }
  { s with turn := [0, 1], frames := Cells.writeN [] (frameBase 0 0) (leBytes 4 0xF8000000) }

theorem witness_turns :
    ((turn []).dueEvent.isNone = true ∧ ((turn []).tile 0).gated = false ∧ (turn []).issueChoice 0 = some 0 ∧
      ({ turn [] with turn := [1], cur := 0 }).workFault.isNone = true) ∧
    ((turn [(0, 0xF8000000)]).cx.fetchBuf.find? fun e => e.1 == 0) = some (0, 0xF8000000) ∧ (decodeWord 0xF8000000).toOption = some (.nop 0) ∧
    (decodeWord 0).toOption = none ∧
    ((turn []).cx.fetchBuf.find? (fun e => e.1 == 0) = none ∧ (turn []).cx.pc.toNat < (turn []).myBlock.xb ∧
      ((turn []).page 5 0).lock = false ∧ ((turn []).page 5 0).st = .framed ∧ (turn []).frameIsBad 5 0 = false) ∧
    (let s := { turn [] with agenda := [(900, .sluiceSample), (2000, .budgetPeriod)] }
     s.agenda = (900, .sluiceSample) :: [(2000, .budgetPeriod)] ∧ 900 ≤ s.cycle) ∧
    ((free []).dueEvent.isNone = true ∧ (free []).turn = []) ∧ ({ free [] with ctxs := [], turn := [0] }).issueChoice 0 = none := by
  decide +kernel

theorem witness_canonical_memory : Memory.wf (pooled 1 0).mem = true ∧ Memory.wf (barriers 2 1 7 1).frames = true ∧
    Memory.wf State.reset.mem = true ∧ Memory.wf State.reset.frames = true := by decide +kernel

theorem witness_step_answers : ∃ t, step (free []) = .next t := ⟨_, rfl⟩

/-! ## Witnesses: what happens by itself -/

theorem witness_results :
    (let s := awaits (.w 5) (free [])
     (s.ctxs.find? fun e => e.2.task.uid == 7 && e.2.status != .free).isSome = true ∧
      (s.cx.results.find? fun q => q.reg == .w 5).isSome = true ∧ (RegRef.w 5 ≠ .w 0)) := by decide +kernel

theorem witness_deposits :
    (free []).ctxs.get? (ctxKey 0 0) = some (runs []) ∧ (runs []).status ≠ .free ∧ (free []).ctxs.get? (ctxKey 0 1) = none :=
  ⟨rfl, by decide, rfl⟩

theorem witness_queue_dwords :
    ((free []).launches.get? 3).isSome = true ∧ ((free []).tile 0).gated = false ∧
      (((free []).setTile 0 { TileS.reset with gated := true }).tile 0).gated = true := by decide

/-- A record of a free task that goes to block 5. -/
def rec5 : TaskRec := { freeTask with uid := 20, entry := 0x100, args := [1, 2, 3, 4] }

/-- Tile 0 has a record in its queue. -/
def queued (r : TaskRec) : State := (free []).setTile 0 { TileS.reset with queue := [r] }

theorem witness_dispatch :
    ((({ queued { rec5 with blk := 6 } with blocks := [(5, block5), (6, { block5 with tile := 1 })] }).stray 0).isSome = true) ∧
    (let s := queued rec5
     (s.stray 0).isNone = true ∧ s.freeSlot 0 = some 1 ∧ s.nextTask 0 none = some rec5 ∧ rec5 ∈ (s.tile 0).queue ∧
      s.placeFor 0 rec5 = some none ∧ (s.blocks.get? rec5.blk).isSome = true ∧ rec5.res = false ∧ rec5.ord = false ∧
      (match (s.setTile 0 { s.tile 0 with queue := [] }).freeWork 5 with | some p => decide (p < 8192) | none => false) = true) ∧
    (let r := { rec5 with ord := true, ts := 50 }
     let s := queued r
     s.nextTask 0 none = some r ∧ s.placeFor 0 r = some none ∧ (s.specs.get? r.uid).isNone = true ∧
      ((s.setTile 0 { s.tile 0 with queue := [] }).assignTb 0 r).isSome = true) ∧
    (let r := { rec5 with res := true, args := [sp 0x1000] }
     let s := queued r
     s.nextTask 0 none = some r ∧ s.placeFor 0 r = some none ∧ r.res = true) := by decide +kernel

theorem witness_records :
    (free []).blocks.get? rec5.blk = some block5 ∧ ((free []).launches.get? rec5.lq).isSome = true ∧ block5.tile = 0 ∧
      ((free []).tile 0).kills = [] ∧ ((free []).tile 0).inbound = [] ∧ ((free []).tile 0).queue.length < 256 ∧
      ((free []).tile 0).spilled = [] ∧
      (let k : KillKey := { lq := 3, ts := 40, tb := 4096, one := none, used := false, before := 100, at_ := 900, only := none }
       k.hits { rec5 with ord := true, pts := 40, ptb := 4096 } = true) ∧
      256 ≤ (List.replicate 256 rec5).length ∧ ((free []).launch 3).spill = 0 := by decide +kernel

theorem witness_admission :
    (let s := (free []).setTile 0 { TileS.reset with inbound := [(rec5, some 990)] }
     (s.tile 0).inbound = [(rec5, some 990)] ∧ (s.tile 0).queue.length < 256) ∧
    (let s := (free []).setTile 0 { TileS.reset with spilled := [{ rec_ := rec5, elem := 0x10040 }] }
     (s.tile 0).spilled ≠ [] ∧ (s.tile 0).queue.length ≤ 192 ∧ (s.tile 0).queue.length + (s.tile 0).spilled.length ≤ 256) := by decide +kernel

/-- Tile 0 holds some records, its neighbour 1, on which a block of the launch stands, none, and its other neighbour as many. -/
def crowded (n : Nat) : State :=
  let s := (free []).setTile 0 { TileS.reset with queue := (List.range n).map (fun i => { rec5 with uid := 20 + i }), sample := n }
  { s.setTile 4 { TileS.reset with sample := n } with blocks := [(5, block5), (6, { block5 with tile := 1 })] }

theorem witness_balancing :
    (crowded 4).neighbour 0 1 = some 1 ∧ ((crowded 4).tile 1).sample < ((crowded 4).tile 0).sample ∧
      (crowded 4).neighbour 0 0 = none ∧ (crowded 4).neighbour 0 2 = some 4 ∧ (crowded 4).neighbour 0 3 = none ∧
      ((crowded 4).tile 0).sample ≤ ((crowded 4).tile 4).sample ∧
      ((crowded 4).movable 0 1).take (((crowded 4).tile 0).sample / 4) = [{ rec5 with uid := 23 }] ∧
      (crowded 4).residentBlock 3 1 = some 6 := by
  decide +kernel

theorem witness_rounds :
    (∀ e ∈ (free []).launches, e.2.lq = e.1) ∧ (bits launch3.budget 0 16 = 0) ∧
      (∀ e ∈ (ordered []).ctxs, e.2.heldFault = none) ∧ ((ordered []).specs.map (·.1)).Pairwise (· < ·) ∧
      (∀ e ∈ (ordered []).specs, e.2.task.uid = e.1) ∧ 0 ∈ launch3.tiles ∧ launch3.tiles.getLast? = some 0 ∧
      (let z := { slot7 with st := .finished }
       let s := { free [] with specs := [(7, z)] }
       s.killOutstanding z = false ∧ rankOf z.task < rankOf z.task + 1 ∧ z.elems = [] ∧ z.held = [] ∧ z.repairing = false) := by
  decide +kernel

/-- The sums of a launch at rest. -/
def restSum : RoundSum :=
  { minvt := noRank, tsent := 2, trecv := 2, qsent := 0, qrecv := 0, eng := 0, idle := true, asleep := false, anyAsleep := false
    oldsend := noRank }

/-- A round that found launch 3 at rest. -/
def atRest (no at_ : Nat) : Round := { no := no, at_ := at_, kills := [], spent := [], sums := [(3, restSum)] }

/-- Launch 3 with a round in which every tile of it was asleep and nothing was on its way; tile 0's system context has so many traps
waiting. -/
def slept (armed : Bool) (n : Nat) (x : RoundSum) : State :=
  { (free []).setTile 0 { tile0 with trapQ := List.replicate n ⟨⟨2, 0, 0, false, false, false, true, false⟩, 3, 5, 0, 0, 0⟩ } with
    launches := [(3, { launch3 with trapArmed := armed })]
    rounds := [(7, { no := 7, at_ := 900, kills := [], spent := [], sums := [(3, x)] })] }

def asleepSum : RoundSum := { restSum with idle := false, asleep := true, anyAsleep := true }

theorem witness_all_asleep :
    ([(slept true 0 asleepSum, true), (slept true 15 asleepSum, true), (slept true 16 asleepSum, true), (slept false 0 asleepSum, true),
        (slept false 0 { asleepSum with asleep := false }, false)].all fun (s, asleep) =>
      match s.rounds.get? 7 with
      | none => false
      | some r => r.kills.isEmpty && (s.tile 0).kills.isEmpty && (s.launch 3).tiles.head? == some 0 && bits (s.launch 3).budget 0 16 == 0
          && s.specs.isEmpty && match r.sums with
            | [(3, x)] => x.asleep == asleep && x.anyAsleep && !x.idle && x.tsent == x.trecv && x.qsent == x.qrecv && x.eng == 0
            | _ => false) = true ∧ (launch3.tiles.head? = some 0) := by decide +kernel

def ending : State :=
  { free [] with
    ctxs := [], launches := [(3, { launch3 with prev := some (atRest 6 800), lastSent := 100, statusAt := 0x30000 })]
    rounds := [(7, atRest 7 928)], queues := [(3, { LaunchQ.reset with map := true, run := true })] }

theorem witness_launch_end :
    (let l := ending.launch 3
     (ending.rounds.get? 7).isSome = true ∧ (match l.prev with | some p => p.no + 1 == 7 && l.lastSent < p.at_ | none => false) = true ∧
      ending.killsUp = [] ∧ l.done = 0 ∧ (ending.queue 3).map = true ∧ (∀ q ∈ ending.rounds.vals, q.kills = []) ∧
      (ending.launches.map (·.1)).Pairwise (· < ·) ∧ Memory.wf ending.mem = true ∧ ending.minvt 3 = noRank ∧
      ending.absentMemory l.statusAt = false ∧ ending.carrying 3 = false) := by decide +kernel

/-- The ordered task repairs, with a symbolic load and a constraint on it. -/
def repairs (bound : Word) : State :=
  let s := ctxWith (ordered []) fun c => { c with status := .halted, tag := c.tag.set 5 4 }
  let y := { slot7 with
    repairing := true, syms := [{ va := sp 0x800, loc := .scr 5 0x800, size := 8, val := 9 }]
    cons := [{ cmp := .lt, l := .sym 0 0, r := .val bound, out := true }] }
  { s with specs := [(7, y)] }

theorem witness_repairs :
    ([(100 : Word), 0].all fun b =>
      match (repairs b).specs.get? 7 with
      | none => false
      | some y => y.repairing && y.task.uid == 7 && bits ((repairs b).launch y.task.lq).budget 16 16 == 0 && !(repairs b).midway 7
          && !(repairs b).restoreHeld 7 && y.sstores.isEmpty && y.sspawns.isEmpty && !y.pending
          && match (repairs b).reReads y y.syms with
            | .ok s1 vs => (vs.map (·.1) == [0]) && (y.cons.all fun c => c.holds [0]) == (b == 100) && s1.ctxOf 7 == some 0
                && s1.cx.status == .halted
            | _ => false) = true := by decide +kernel

theorem witness_pages :
    (let s := { free [] with blocks := [(5, { block5 with pages := [(0, framed 0), (1, { Page.unmapped with lock := true }),
        (2, { Page.unmapped with st := .parked, lock := true }), (3, { framed 1 with tile := 1 })] })] }
     s.blocks.get? 5 = some (s.block 5) ∧ (s.block 5).tile = 0 ∧ 1 < frameCount (s.tile 0) ∧ 1 ∉ (s.framedOn 0).map (fun e => e.2.2.frame) ∧
      (∀ g < 1, g ∈ (s.framedOn 0).map (fun e => e.2.2.frame)) ∧ (s.page 5 1).lock = true ∧ (s.page 5 1).st = .unmapped ∧
      bits (s.launch 3).budget 16 16 = 0 ∧ (s.page 5 2).lock = true ∧ (s.page 5 2).st = .parked ∧ codePages (s.launch 3) ≤ 2 ∧ s.poison = [] ∧
      (s.page 5 3).st = .framed ∧ (s.page 5 3).tile ≠ 0 ∧ (s.page 5 3).frame < 256) := by decide +kernel

/-- Block 5 stops for tile 1. -/
def stopping (cs : List (Nat × Ctx)) : State :=
  { free [] with blocks := [(5, { block5 with st := .stopping, target := 1 })], ctxs := cs }

theorem witness_block_moves :
    ((stopping []).block 5).st = .stopping ∧ (∀ e ∈ ((stopping []).block 5).pages, e.2.lock = false) ∧ (∀ e ∈ (stopping []).tiles, e.2.cmds = []) ∧
      (stopping []).blockCtxs 5 = [] ∧ ((stopping [(0, runs [])]).blockCtxs 5).map (·.1) = [0] ∧ (runs []).status = .ready ∧ (runs []).results = [] ∧
      (runs []).heldFault.isNone = true ∧ (stopping [(0, runs [])]).slotFor 1 3 = some 0 ∧
      (let c := { locking with op := .spmig, ranges := [] }
       let s := (stopping []).setTile 0 { TileS.reset with cmds := [(0, c)] }
       (s.tile 0).cmds.get? 0 = some c ∧ c.op = .spmig ∧ c.blk = 5 ∧ c.registered = true ∧
        (∀ e ∈ s.tiles, ∀ d ∈ e.2.cmds, d.2.op = .spmig → d.2.blk = 5 → d = (0, c) ∧ e.1 = 0) ∧ (s.tiles.map (·.1)).Pairwise (· < ·)) := by
  decide +kernel

/-! ## Witnesses: service of tiles, launch queues -/

/-- Tile 0's context 0 has used its slice of 100 cycles, and a record waits for a slot of the one-context launch. -/
def sliced (r : List TaskRec) : State :=
  { (free []).setTile 0 { TileS.reset with queue := r } with launches := [(3, { launch3 with slice := 100, cap := 1 })] }

theorem witness_slices :
    launch3.slice = 0 ∧
      (let s := sliced [rec5]
       (s.ctxs.get? (ctxKey 0 0)).isSome = true ∧ (s.launch 3).slice ≠ 0 ∧ s.cx.status ≠ .free ∧ s.cx.preempt = false ∧
        s.clockAt 0 s.cx.sliceStart + (s.launch 3).slice ≤ s.clockAt 0 s.cycle ∧ (s.nextTask 0 (some 0)).isSome = true) ∧
      ((sliced []).nextTask 0 (some 0)).isNone = true := by decide +kernel

theorem witness_preemption :
    (let s := ctxWith (free []) fun c => { c with preempt := true }
     let c := s.cx
     c.preempt = true ∧ c.status = .ready ∧ c.results = [] ∧ s.notPreemptible 0 = false ∧ (s.page 5 (State.workPage c)).st = .framed ∧
      s.blockTile 5 = 0 ∧ (s.launches.get? 3).isSome = true ∧ (s.tile 0).queue.length < 256 ∧ (s.tile 0).spilled = [] ∧
      (s.tile 0).inbound = [] ∧ Memory.wf s.frames = true ∧ (s.ctxs.map (·.1)).Pairwise (· < ·)) := by decide +kernel

/-- The system context waits, and a trap of launch 3 has been sent to it. -/
def trapSent (lq : Nat) : State :=
  { (vectored.setTile 0 { TileS.reset with trapQ := [⟨⟨2, 0, 0, false, false, false, true, false⟩, lq, 5, 0, 0, 0⟩] }) with
    ctxs := [(0, runs []), (16, { Ctx.reset with status := .waiting .idle })] }

theorem witness_system_traps :
    State.restingSys ((trapSent 3).ctx (ctxKey 0 16)) = true ∧ ((trapSent 4).launches.get? 4).isNone = true ∧
      ((trapSent 3).launch 3).svec.getD 2 0 ≠ 0 ∧ ((trapSent 3).launches.get? 3).isSome = true ∧
      bits ((trapSent 3).ctx (ctxKey 0 16)).psw 10 2 = 0 := by decide +kernel

theorem witness_power_gating :
    (let s := { free [] with cycle := 50000, ctxs := [(0, { runs [] with status := .waiting .sleep })] }
     (∀ e ∈ s.ctxs, e.2.status = .waiting .sleep) ∧ State.recordsAt (s.tile 0) = [] ∧ (s.tile 0).trapQ = [] ∧
      (s.tile 0).idleSince + 24000 ≤ s.cycle) ∧ ((free []).tile 0).gated = false ∧ State.reset.islandStep.length = 36 ∧
    (∀ x ∈ State.reset.islandStep, x ≤ 5) := by decide +kernel

/-- A launch record of one tile (R38, R43): entry, mode, hint, block size, Peat region and domain map. -/
def recordBytes (entry mode sppages : Nat) : List Byte :=
  leBytes 4 entry ++ leBytes 2 9 ++ leBytes 2 mode ++ leBytes 40 0 ++ leBytes 8 0 ++ leBytes 8 0x40000 ++ leBytes 4 0x400 ++
    leBytes 2 sppages ++ leBytes 2 1 ++ leBytes 24 0 ++ leBytes 8 0x100000 ++ leBytes 8 0x100000 ++ leBytes 80 0 ++ leBytes 8 0x10A ++
    leBytes 56 0

def launching (entry mode sppages : Nat) : State :=
  { State.reset with
    full := true, cycle := 1000, mem := Cells.writeN [] 0x300000 (recordBytes entry mode sppages)
    queues := [(4, { LaunchQ.reset with base := 0x3000, map := true, en := true, tail := 1 })] }

/-- The record that queue 4 starts with. -/
def firstRecord (s : State) : LRec := ⟨s.bytesAt 0x300000 256⟩

theorem witness_launch_records :
    (let s := launching 0x100 0 64
     let x := s.queue 4
     x.map = true ∧ x.en = true ∧ x.run = false ∧ x.head ≠ x.tail ∧ x.base * 256 + 256 * (x.head.toNat % 2 ^ x.lgsize) = 0x300000 ∧
      (recordBytes 0x100 0 64).length = 256 ∧ x.base < 2 ^ 44 ∧ x.lgsize < 16 ∧ x.prio < 32) ∧
    ([(0x100, 8, 64, 1), (0x101, 0, 64, 2), (0x400, 0, 64, 2), (0x100, 0, 0, 3), (0x100, 0, 20, 3)].all fun (e, m, p, code) =>
      (match (launching e m p).checkRecord (firstRecord (launching e m p)) with | .inl k => k == code | .inr _ => false)) = true := by
  decide +kernel

theorem witness_valid_record :
    (let s := launching 0x100 0 64
     match s.checkRecord (firstRecord s) with
     | .inl _ => false
     | .inr p => p.tiles == [0] && decide (s.blocks.length + p.tiles.length ≤ 65536)
        && p.tiles.all (fun t => (s.tile t).spReq == (s.tile t).spCur && decide ((s.tile t).queue.length < 256) && (s.tile t).spilled.isEmpty
          && (s.tile t).inbound.isEmpty && (s.tile t).kills.isEmpty)
        && decide (place ((firstRecord s).word 0x30).toNat p.tiles.length < 1)) = true := by decide +kernel

/-! ## Witnesses: registers, the host, other packages -/

theorem witness_host_fences :
    State.reset.fences = [] ∧ State.reset.hostQ = [] ∧ State.reset.atreqBusy = [] ∧ ({ State.reset with fences := [4, 9] }).fences = 4 :: [9] ∧
      (∃ r ∈ ({ State.reset with hostQ := [{ id := 2, core := 0, what := .snoop 5 true, got := [], tried := 0 }] }).hostQ, r.id < 4) := by decide +kernel

theorem witness_report : isDevice (0x1000 * 256) = true ∧
    ((launching 0x100 0 64).hostStore false (0x1000 * 256 + 0x20) (List.replicate 8 5)).isSome = true := by decide +kernel

theorem witness_invalidations :
    (State.reset.walkWin 2).done = true ∧ (State.reset.walkWin 2).held = [] ∧ (State.reset.walkWin 2).count = 0 ∧
      (let s := { free [] with walk := [(2, { WalkWin.reset with done := false, count := 4, mark := 5, held := [⟨9, 4, 0⟩] })], stores := [pend 1 .scratch 0x800] }
       (s.walkWin 2).done = false ∧ (s.walkWin 2).count ≠ 0 ∧ (s.walkWin 2).held = [⟨9, (s.walkWin 2).count, (s.walkWin 2).first⟩] ∧ (∃ p ∈ s.stores, p.id < (s.walkWin 2).mark)) := by
  decide +kernel

theorem witness_splits :
    (let s := { free [] with tiles := [(1, { TileS.reset with spReq := 2 })] }
     (s.tile 1).spReq ≠ (s.tile 1).spCur ∧ (∀ e ∈ s.blocks, e.2.tile ≠ 1) ∧ s.framedOn 1 = []) ∧
      (free []).framedOn 0 ≠ [] := by decide +kernel

theorem witness_registers : isTile 0 = true ∧ 0 ∉ State.reset.retired ∧ (State.reset.queue 4).map = false ∧
    ((launching 0x100 0 64).queue 4).map = true ∧ BitVec.getLsbD (0x8000 : Word) 15 = true ∧ BitVec.getLsbD (0 : Word) 15 = false := by
  decide +kernel

theorem witness_host_accesses :
    State.reset.specs = [] ∧ State.reset.parts = [] ∧ State.reset.hostQ = [] ∧ (free []).full = true ∧ 0x20000 < deviceEnd ∧
      ((free []).launchOf 0x20000).isNone = true ∧ (0x20000 / 64) ∉ (free []).poison ∧
      (0x20000 / 64) ∈ ({ free [] with poison := [0x20000 / 64] }).poison ∧
      ({ free [] with cxlOn := true }).cxlOn = true ∧ isDevice 0x20000 = true ∧ isDevice 0xF000000000000 = false ∧
      isHostMem 0xF000000000000 = false ∧ ((free []).homeLine 5).busy = none ∧ ((free []).homeLine 5).queue = [] ∧
      (∀ d < 8, (free []).l2St d 5 ∉ [.is_, .im, .sm, .mi]) ∧ (free []).turn = [] ∧ ({ free [] with turn := [0] }).turn ≠ [] ∧
      ({ published (dev (free [])) with asidrtEn := true, asidrtBase := 0x8000000000000 / 2 ^ 19, mem := tables }).publishedAt 0x20000
        = some (3, region) := by decide +kernel

/-- A request that has left the package. -/
def request (toHost : Bool) (what : RemoteOp) (regs : List RegRef) : OutReq :=
  { id := 9, ctx := 0, uid := 7, pa := 0x8000000000000, regs := regs, reads := [4, 5], what := what, signed := true, toHost := toHost
    sym := none, base := [], since := [] }

/-- The context of tile 0 waits for its answer. -/
def asked (toHost : Bool) (what : RemoteOp) (regs : List RegRef) : State :=
  { ctxWith (free []) fun c => { c with status := .waiting (if toHost then .atomicOp else .remote) } with
    remote := [request toHost what regs] }

theorem witness_outside_answers :
    ([(true, RemoteOp.atomic 0 8 5, [RegRef.w 6]), (true, .cas 8 0 5, [.w 6]), (false, .load 8, [.w 6]), (false, .store [1], [])].all
      fun (h, what, regs) =>
        let s := asked h what regs
        (s.ctx 0).task.uid == 7 && (s.ctx 0).status == .waiting (if h then .atomicOp else .remote)
          && (s.remote.find? fun r => r.id == 9 && r.toHost == h).isSome && (s.remote.find? fun r => r.uid == 7 && r.toHost == h).isSome) = true := by
  decide +kernel

/-- An AtomicOp that finds its old value before the one write of host memory since it was sent. -/
theorem witness_atomic_places :
    (let q := { request true (.atomic 0 8 5) [.w 6] with base := leBytes 8 3, since := [(0x8000000000000, leBytes 8 4)] }
     State.atomicPlaces q (leBytes 8 3) = [0] ∧ State.atomicPlaces q (leBytes 8 4) = [1] ∧ (request true (.atomic 0 8 5) [.w 6]).since = []) := by
  decide +kernel

theorem witness_remote_spawns :
    ((free []).launches.get? 4).isNone = true ∧ ({ launch3 with asid := 9 }).asid = 9 ∧ 5 ∈ launch3.blocks ∧ ((free []).tile 0).kills = [] ∧
      launch3.remoteOut = 0 ∧ ({ launch3 with remoteOut := 2 }).remoteOut ≠ 0 ∧ ((free []).tile 0).trapQ.length < 16 := by decide +kernel

/-! ## Witnesses: coherence, resets and failures -/

theorem witness_cache_states :
    ([L2St.i, .s, .e, .o, .m, .is_, .im, .sm, .mi].all fun x =>
      let s := { free [] with l2 := [(State.l2Key 2 5, x)] }
      s.l2St 2 5 == x && decide ((s.setMates 2 5).length < 16) && s.stores.isEmpty) = true := by decide +kernel

/-- A store waits for the line at 0x140 of die 0. -/
theorem witness_waiting_store :
    (let p := { pend 4 .memory 0x140 with ready := true }
     dieOf p.tile = 0 ∧ (p.bytes.getD 0 (0, 0)).1 / 64 = 5 ∧ p.ready = true ∧ (free []).stores = [] ∧
      (free []).lockHit 0 9 p.va (.mem 0x140) true = none ∧ (locked (free [])).lockHit 0 9 p.va (.mem 0x140) true = some locking) := by decide +kernel

/-- The home of line 5. -/
def homed (h : HomeLine) : State := { free [] with home := [(5, h)] }

def resting (st : HomeSt) (owner : Nat) (mask : List Nat) : HomeLine := { st := st, owner := owner, mask := mask, busy := none, queue := [], drops := [] }

theorem witness_home_at_rest :
    ([resting .i 0 [], resting .s 0 [1, 2], resting .s 0 [1], resting .x 2 [], resting .o 2 [1, 3], resting .o 1 [], resting .p 0 []].all fun h =>
      let s := homed h
      !s.lowerFirst 1 5 && (s.homeLine 5 == h) && s.linksDown.isEmpty) = true ∧
      (homed { resting .x 2 [] with queue := [(.reads, 3)] }).homeLine 5 ≠ resting .x 2 [] := by decide +kernel

def busyHome (req : HomeReq) (acks : List Nat) (needData retry : Bool) (st : HomeSt) (drops : List Nat) : HomeLine :=
  { resting st 2 [] with
    busy := some { req := req, die := 1, acks := acks, needData := needData, ownerDirty := false, served := false, absent := false, retry := retry }
    drops := drops }

theorem witness_home_at_work :
    ([busyHome .readx [3] false false .s [], busyHome .reads [] true false .x [], busyHome .readx [3] true false .x [],
        busyHome .upgrade [3] false true .s [], busyHome .reads [] true false .o [2]].all fun h =>
      let s := homed h
      (s.homeLine 5).busy.isSome && (s.homeLine 5).queue.isEmpty && s.stores.isEmpty) = true := by decide +kernel

theorem witness_resets : ({ State.reset with fwRun := true }).fwRun = true ∧ State.reset.launches = [] ∧ (free []).launches ≠ [] := by decide

theorem witness_machine_checks :
    (let s := { free [] with queues := [(3, { LaunchQ.reset with map := true, run := true })] }
     s.launches.map (·.1) = [3] ∧ launch3.lq = 3 ∧ s.specs = [] ∧ s.stores = [] ∧ Memory.wf s.mem = true ∧ launch3.done = 0 ∧
      (s.queue 3).map = true ∧ isTile 0 = true ∧ 0 ∉ s.retired ∧ 0 ∈ launch3.tiles ∧ (s.ctx (ctxKey 0 0)).status ≠ .free ∧
      State.restingSys (s.ctx (ctxKey 0 0)) = false ∧ s.absentMemory launch3.statusAt = false ∧ (s.ctx (ctxKey 0 0)).task.lq = 3 ∧ isTile 5 = true ∧ 5 ∉ s.retired ∧
      (∀ e ∈ s.launches, 5 ∉ e.2.tiles) ∧ (s.tiles.map (·.1)).Pairwise (· < ·) ∧ isTile 384 = false ∧
      (s.ctx (ctxKey 0 3)).status = .free ∧ (∃ e ∈ s.framedOn 0, e.2.2.frame = 1) ∧ (∀ e ∈ s.framedOn 0, e.2.2.frame ≠ 9)) := by
  decide +kernel

/-! ## Witnesses: premises of single clauses -/

/-- Port 0 is an in-bound stream of dwords at an address, and nothing of it has been fetched. -/
def fetching (addr : Word) (s : State) : State := ctxWith s fun c =>
  { c with stream := c.stream.set 0 (streamReg addr 8 2 3 false), ctxf := 1 }

/-- The exits of a fetch ahead. -/
def fetchExits (fail : State → TrapInfo → State) (busy : State → Wait → State) : Exits :=
  { fail := fail, busy := busy, waited := fun _ => true, own := false }

theorem witness_stream_element :
    (∀ fail busy k, (fetching (sp 0x800) (free [])).checkAccess (fetchExits fail busy) (sp 0x800) .load k =
      k (passed (fetching (sp 0x800) (free []))) (.scr 5 0x800) 0) ∧
    ∃ s2 bs, ∀ fail busy k, (passed (fetching (sp 0x800) (free []))).loadOnce (fetchExits fail busy) (sp 0x800) 8 (.scr 5 0x800) 0 k = k s2 bs :=
  ⟨fun _ _ _ => rfl, _, _, fun _ _ _ => rfl⟩

/-- Virtual page 1 leads to uncached host memory. -/
def uncached : State := fetching 0x10000 (mapped 3 0xF000000000000 (free []))

theorem witness_uncached_translation : uncached.translate (State.walkLook (dieOf 0)) 0 9 0x10000 = (uncached, some (.ok 0xF000000000000 3 true true)) := rfl

theorem witness_uncached_element : isCauseway 0xF000000000000 = false ∧
    ∀ fail busy k, uncached.checkAccess (fetchExits fail busy) 0x10000 .load k = k uncached (.mem 0xF000000000000) 3 := by
  refine ⟨by decide, ?_⟩
  intro fail busy k
  unfold State.checkAccess
  rw [show vclass 0x10000 = .memory from rfl]
  dsimp only
  unfold State.checkMemory
  rw [show uncached.here = 0 from rfl, show uncached.asid = 9 from rfl, witness_uncached_translation]
  rfl

theorem witness_element_fault : ∀ e k, (fetching 0x10000 (free [])).checkAccess e 0x10000 .load k =
    e.fail (fetching 0x10000 (free [])) (.plain 0x06 0x10000 3) := fun _ _ => rfl

theorem witness_open_streams :
    ([fetching (sp 0x800) (free []), uncached, fetching 0x10000 (free [])].all fun s =>
      bits s.cx.ctxf 0 2 == 1 && s.cx.status != .free && s.cx.ahead.isEmpty && decide (0 < strCount s.cx.stream[0])) = true ∧
    bits (free []).cx.ctxf 0 2 = 0 := by decide +kernel

theorem witness_workspace_moves :
    (free []).ctxs.get? (ctxKey 0 0) = some (runs []) ∧ (free []).ctxs.get? (ctxKey 0 1) = none ∧
      (ctxWith (free []) fun c => { c with status := .waiting .entry }).cx.status = .waiting .entry := ⟨rfl, rfl, rfl⟩

theorem witness_dispatch_room :
    (let s := queued rec5
     (s.earliestAt 0).all (fun e => !s.lacks 0 e) = true ∧ s.storeFull 0 = false) ∧
    (let full := (List.range 18).map fun i => (100 + i, 3)
     let s := (free []).setTile 0 { TileS.reset with queue := [rec5], tcs := full }
     s.storeFull 0 = true ∧ s.nextTask 0 none = some rec5 ∧ s.freeSlot 0 = some 1) ∧
    (let r := { rec5 with ord := true, ts := 30, tb := 5 }
     let s := (free []).setTile 0 { TileS.reset with queue := [r], perLaunch := [(3, { TileLaunch.start with gvt := rankOf r, front := rankOf r })] }
     s.earliestAt 0 = some r ∧ s.lacks 0 r = false) ∧
    (let r := { rec5 with res := true, args := [sp 0x1000] }
     let s := (free []).setTile 0 { TileS.reset with queue := [r], tcs := [(20, 3)] }
     s.nextTask 0 none = some r ∧ ((s.tile 0).tcs.any fun e => e.1 == r.uid) = true) := by decide +kernel


/-- The earliest task waits on tile 0 for the one context that its launch may have there, which a task has. -/
def crammed (s : State) : State :=
  let r := { rec5 with ord := true, ts := 30, tb := 5 }
  { s.setTile 0 { tile0 with queue := [r], perLaunch := [(3, { TileLaunch.start with gvt := rankOf r, front := rankOf r })] } with
    launches := [(3, { launch3 with cap := 1 })] }

/-- Another task of the launch is in a handler, so that it keeps its context. -/
def crowdedOut (s : State) : State :=
  { s with ctxs := s.ctxs.set 1 { runs [] with task := { freeTask with uid := 9 }, psw := 0x400 } }

theorem witness_making_room :
    ([(crammed (ordered []), true), (crowdedOut (crammed (ordered [])), false)].all fun (s, made) =>
      match s.earliestAt 0, State.lastOf ((s.orderedOn 0 3).filter fun y => !s.restoreHeld y.task.uid) with
      | some e, some y =>
        let t := s.abortAll [(y.task.uid, true)] []
        let t := { t with tiles := t.tiles.set 0 { t.tile 0 with roomFor := some e.uid } }
        (s.stray 0).isNone && (s.slotFor 0 e.lq).isNone && (s.freeWork e.blk).isSome && !(s.orderedOn 0 e.lq).isEmpty && y.task.uid == 7
          && (t.makeRoom 0 e 4).isSome == made
      | _, _ => false) = true ∧
    (let s := crammed (free [])
     (s.stray 0).isNone = true ∧ (s.earliestAt 0).isSome = true ∧ (s.slotFor 0 3).isNone = true ∧ s.orderedOn 0 3 = [] ∧ s.cx.preempt = false ∧
      s.newestOf ((s.taken 0 fun _ => true).filter fun x => x.2.task.lq == 3 && !x.2.task.ord) = some (0, s.cx) ∧
      (s.ctxs.map (·.1)).Pairwise (· < ·)) := by decide +kernel

/-- Tile 0 has records in a spill pool, whose next element is a line. -/
def spilling (n : Nat) : State :=
  { (pooled 0 0).setTile 0 { tile0 with
      queue := List.replicate n rec5, spilled := if n < 256 then [{ rec_ := rec5, elem := 0x10040 }] else [] } with
    launches := [(3, { launch3 with spill := 0x10000 })] }

theorem witness_spilling : ([256, 1].all fun n =>
    let s := spilling n
    let s1 := (s.wakeTile 0).wakeSystem 0
    match s1.locate 3 5 0x10000 .pool with
    | .inr _ => false
    | .inl h => match s1.poolGet (dieOf 0) 3 5 h with
      | (s2, .inl e) => e == 0x10040 && s2.locate 3 5 e .pool == .inl (.mem 0x20040) && isDevice 0x20040 && Memory.wf s2.mem && s2.parts.isEmpty
          && s.recordTile 5 == 0 && (s.tile 0).kills.isEmpty && (s.tile 0).spillWait.isEmpty && Memory.wf s.mem
          && (decide (256 ≤ (s.tile 0).queue.length) || !(s.tile 0).spilled.isEmpty)
      | _ => false) = true := by decide +kernel

theorem witness_kept_records :
    ((free []).asSent rec5 = rec5) ∧ ((free []).tile 0).spillWait = [] ∧
      (let k : KillKey := { lq := 3, ts := 40, tb := 4096, one := none, used := false, before := 100, at_ := 900, only := none }
       let r := { rec5 with ord := true, pts := 40, ptb := 4096 }
       k.one = none ∧ r.res = false ∧ [k].find? (fun k => k.hits r) = some k) ∧
      (let s := { (pooled 1 0).setTile 0 { TileS.reset with spilled := [{ rec_ := rec5, elem := 0x10050 }] } with
         launches := [(3, { launch3 with spill := 0x10000 })] }
       (s.tile 0).replayed < s.cycle ∧
        ((s.setTile 0 { s.tile 0 with spilled := [], queue := [rec5], replaying := false, replayed := s.cycle }).poolPut
          0 3 5 (s.launch 3).spill 0x10050).isLeft = true) := by decide +kernel

theorem witness_repair_turn : (repairs 100).wispTurn 7 = true ∧ (repairs 0).wispTurn 7 = true ∧ (repairs 0).restoreHeld 7 = false := by
  decide +kernel

/-- The child of a symbolic spawn, sent with the old value of the symbol in a0. -/
def child5 : TaskRec := { rec5 with ord := true, ts := 50, pts := 40, ptb := 4096, args := [9, 0, 0, 0] }

/-- The repairing task has stored the symbol plus 1 in page 1, or in the line at 0x10000, and has spawned a child with it. -/
def rewrites (va : Word) (size : Nat) (step : SpawnStep) (s : State) : State :=
  let y := { slot7 with
    repairing := true, syms := [{ va := sp 0x800, loc := .scr 5 0x800, size := 8, val := 9 }], elems := [sp 0x1000], used := 3
    sstores := [{ va := va, loc := .scr 5 0x808, size := size, sym := 0, c := 1 }]
    sspawns := [{ rec_ := child5, hint := 0, ts := .val 50, args := [.sym 0 0, .val 0, .val 0, .val 0], step := step }] }
  { ctxWith s fun c => { c with status := .halted } with specs := [(7, y)] }

/-- A task under repair with a value to rewrite and a child to send again, and the same with a command's range in the way of the
store, or with the key of the child still held. -/
theorem witness_rewrites :
    (let s := rewrites (sp 0x808) 8 .idle (ordered [])
     match s.specs.get? 7 with
     | none => false
     | some y => match (s.charge 3 1).reReads y y.syms with
       | .ok s1 vs => match (s1.killStale y [9] (vs.map (·.1))).reStores y (vs.map (·.1)) y.sstores with
         | .ok s2 _ => match s2.reSends y (vs.map (·.1)) (List.range 1) with
           | .ok s3 _ => s3.killsUp.length == 1 && s3.ctxOf 7 == some 0 && s3.cx.status == .halted && (s3.specs.get? 7).any (fun z => !z.pending)
           | _ => false
         | _ => false
       | _ => false) = true ∧
    (let s := rewrites (sp 0x808) 8 .killed (ordered [])
     match s.specs.get? 7 with
     | none => false
     | some y => match (s.charge 3 1).reReads y y.syms with
       | .ok s1 vs => match (s1.killStale y [9] [9]).reStores y (vs.map (·.1)) y.sstores with
         | .ok s2 _ => match s2.reSends y (vs.map (·.1)) (List.range 1) with
           | .ok s3 _ => s3.ctxOf 7 == some 0 && s3.cx.status == .halted && (s3.specs.get? 7).any (fun z => !z.pending)
           | _ => false
         | _ => false
       | _ => false) = true := by decide +kernel

theorem witness_rewritten_stores :
    ([(ordered [], sp 0x808, true), ({ dev (ordered []) with asidrtEn := true, asidrtBase := 0x8000000000000 / 2 ^ 19, mem := tables }, 0x10008, true), (locked (ordered []), sp 0x808, false)].all fun (s, va, free) =>
      let s := rewrites va 8 .idle s
      match s.specs.get? 7 with
      | none => false
      | some y => match s.repairAt y va .write with
        | .ok s1 loc => s1.locNat loc 8 == 0 && (s1.lockHit 0 9 va loc true).isNone == free
            && (match s1.resolve (.ordered 7) true loc 8 with
              | none => false
              | some (s2, _) => (s2.logWrite 7 va loc 8).isSome && s2.parts.isEmpty && Memory.wf s2.mem && Memory.wf s2.frames)
        | _ => false) = true := by decide +kernel

theorem witness_stale_children :
    (SymVal.sym 0 0).under [9] ≠ (SymVal.sym 0 0).under [5] ∧ (SymVal.val 50).under [9] = (SymVal.val 50).under [5] := by decide

theorem witness_sent_again :
    (let s := rewrites (sp 0x808) 8 .killed (ordered [])
     let k : KillKey := { lq := 3, ts := 40, tb := 4096, one := some (50, [9, 0, 0, 0]), used := false, before := 100, at_ := 900, only := none }
     (s.undoAppend 7 { kind := 2, place := 0, val := 50, va := 0 }).isSome = true ∧ s.keyHeld child5 = false ∧
      ({ s with killsUp := [k] }).keyHeld child5 = true) := by decide +kernel

/-- Block 5 is Moving to tile 1. -/
def moving (cs : List (Nat × Ctx)) : State :=
  { free [] with blocks := [(5, { block5 with st := .moving, target := 1 })], ctxs := cs }

theorem witness_moving :
    (∀ e ∈ (stopping [(0, { runs [] with status := .halted })]).blockCtxs 5, e.2.status = .halted) ∧
      (∀ e ∈ ((moving []).block 5).pages, e.2.lock = false) ∧ (moving []).storeTakes 1 0 = true ∧ (moving []).kept = [] ∧
      (moving [(0, { runs [] with status := .halted })]).storeTakes 1 1 = true ∧ (∀ e ∈ (moving []).tiles, e.2.cmds = []) ∧ (moving []).blockCtxs 5 = [] ∧
      (moving []).workHeld 5 = [] ∧
      (let s := moving [(0, { runs [] with status := .halted })]
       (s.blockCtxs 5).map (·.1) = [0] ∧ s.workHeld 5 = [60] ∧
        ((((s.storeLeft 5).onTile 0 fun y => { y with stlb := y.stlb.filter fun e => e.1 != 5 }).onBlock 5 fun y =>
          { y with tile := 1, st := .resident }).moveWork 5 (s.workHeld 5)).any (fun s2 => s2.slotFor 1 3 == some 0) = true) ∧
      (let c := { locking with op := .spmig, ranges := [] }
       let s := (moving []).setTile 0 { TileS.reset with cmds := [(0, c)] }
       (s.tile 0).cmds.get? 0 = some c ∧ c.op = .spmig ∧ c.blk = 5 ∧
        (∀ e ∈ s.tiles, ∀ d ∈ e.2.cmds, d.2.op = .spmig → d.2.blk = 5 → d = (0, c) ∧ e.1 = 0) ∧ (s.tiles.map (·.1)).Pairwise (· < ·)) := by
  decide +kernel

theorem witness_preemption_alone :
    (let s := ctxWith (free []) fun c => { c with preempt := true }
     s.cx.next ≤ s.cycle ∧ s.cx.busy = [] ∧ s.stores = [] ∧ (s.tile 0).spillWait = []) := by decide

theorem witness_system_page : State.hasPage (ctxKey 0 16) ((trapSent 3).ctx (ctxKey 0 16)) = false ∧
    State.hasPage 16 { runs [] with status := .ready } = true := by decide +kernel

theorem witness_gated : (((free []).setTile 0 { TileS.reset with gated := true }).tile 0).gated = true := by decide

/-- Queue 4, unmapped, its save area in host memory with a tail, and a notify that came in this cycle. -/
def saved (tail : Nat) (noted : Option (Nat × BitVec 16 × Word)) : State :=
  { State.reset with
    cycle := 1000, mem := Cells.writeN [] (0x8000000000000 + 24) (leBytes 8 tail)
    queues := [(4, { LaunchQ.reset with save := 0x8000000000000, noted := noted })] }

theorem witness_queue_maps :
    ((saved 1 none).queue 4).map = false ∧ ((saved 1 none).queue 4).noted = none ∧
      ((saved 1 (some (1000, 1, 0))).queue 4).noted = some (1000, 1, 0) ∧
      (bits ((saved 1 none).dwordAt 0x8000000000000) 0 4 = 0) ∧ ((saved 1 none).dwordAt (0x8000000000000 + 24)).toNat = 1 ∧
      2 ^ 0 < ((5 : BitVec 16) - 0).toNat ∧ (saved 1 none).absentMemory 0x8000000000000 = false ∧
      ({ saved 1 none with full := false }).absentMemory 0x20000 = true ∧ (saved 1 none).parts = [] ∧
      (launching 0x100 0 64).absentMemory 0x300000 = false ∧ (launching 0x100 0 64).parts = [] := by decide +kernel

theorem witness_refused_domains :
    (let r := firstRecord { launching 0x100 0 64 with mem := Cells.writeN [] 0x300000 (((recordBytes 0x100 0 64).set 0xC0 0xCA)) }
     bits (r.word 0xC0) 6 2 ≠ 0) ∧
    (let r := firstRecord (launching 0x100 0 64)
     ∀ j < 8, bits (r.word (0xC0 + 8 * j)) 6 2 = 0) := by decide +kernel

theorem witness_later_invalidations :
    (let s := { free [] with
       walk := [(2, { WalkWin.reset with done := false, count := 4, mark := 5, outMark := 12 })], remote := [request false (.load 8) [.w 6]] }
     (∃ r ∈ s.remote, r.id < (s.walkWin 2).outMark) ∧ (∀ p ∈ s.stores, ¬p.id < (s.walkWin 2).mark)) ∧
    (let s := { free [] with walk := [(2, { WalkWin.reset with done := false, count := 4, mark := 5, outMark := 2 })] }
     s.stores = [] ∧ s.remote = [] ∧ (s.walkWin 2).done = false) := by decide +kernel

theorem witness_line_at_rest :
    (let s := { State.reset with full := true }
     s.linksDown = [] ∧ s.l2 = [] ∧ s.lineBusy (0x20000 / 64) = false ∧ ∀ i < 16, (0x20000 + i) / 64 ∉ s.poison) ∧
    ({ State.reset with l2 := [(State.l2Key 0 5, .is_)] }).lineBusy 5 = true ∧ State.reset.full = false := by decide +kernel

theorem witness_noted_answers :
    (let s := asked true (.atomic 0 8 5) [.w 6]
     (s.remote.find? fun r => r.id == 9 && r.toHost) = some (request true (.atomic 0 8 5) [.w 6])) ∧
    (let s := asked false (.load 8) [.w 6]
     (s.remote.find? fun r => r.id == 9 && !r.toHost) = some (request false (.load 8) [.w 6])) ∧
    (let q := { request false (.load 8) [.w 6] with sym := some 0x10000 }
     let s := { asked false (.load 8) [.w 6] with remote := [q] }
     (s.remote.find? fun r => r.uid == 7 && !r.toHost) = some q ∧ q.sym = some 0x10000) ∧
    Memory.wf (free []).mem = true ∧ (leBytes 8 0).length = (leBytes 8 5).length ∧
    (∀ i < 8, (free []).byteAt (0x8000000000000 + i) = (leBytes 8 0).getD i 0) := by decide +kernel

theorem witness_arriving_spawn : (free []).full = true ∧ ((free []).tile 0).spillWait = [] ∧ ((free []).tile 0).inbound = [] ∧
    ((free []).tile 0).spilled = [] ∧ ((free []).launches.get? 3) = some { launch3 with asid := 9 } ∧ State.reset.full = false := by
  decide +kernel

theorem witness_writebacks :
    ([(busyHome .reads [] true false .x []), (busyHome .readx [3] true false .x []), (busyHome .reads [] true false .o [])].all fun h =>
      let x := (homed h).homeLine 5
      x.owner == 2 && (x.st == .x || x.st == .o) && x.queue.isEmpty
        && x.busy.any fun b => b.needData && !b.absent && !b.served && (b.acks.isEmpty || b.req == .readx)) = true ∧
    (let x := (homed (busyHome .upgrade [3] false true .s [])).homeLine 5
     x.busy.any fun b => b.retry && b.acks == [3]) = true := by decide +kernel

theorem witness_failures :
    State.cutOff (free []) = false ∧
      (let s := { free [] with linksDown := [(0, 1)] }
       s.cutOff = false ∧ (s.failLink 2 3).cutOff = true) ∧
      (let s := (free []).setTile 0 { TileS.reset with tcs := [(20, 3)] }
       (s.tile 0).tcs[0]? = some (20, 3)) := by decide +kernel

theorem witness_descriptor_read : ((describing 0 []).readClaim (.mem 0x20000) 64).isSome = true ∧
    ((describing 3 [region2]).readClaim (.mem 0x20000) 64).isSome = true ∧ (describing 0 []).parts = [] ∧
    (closing.specs = [] ∧ closing.parts = [] ∧ ∀ p ∈ closing.priv, closing.lineBusy p.line = false) ∧
    (∃ s3 old, (describing 0 []).Updates 0x10000 64 (.mem 0x20000) (fun old => some (old.take 16 ++ leBytes 8 1 ++ old.drop 24)) s3 old) :=
  ⟨by decide +kernel, by decide +kernel, rfl, ⟨rfl, rfl, by decide +kernel⟩, _, _, fun _ => rfl⟩

theorem witness_uncached_store :
    (let s := { hostMem (free []) with stores := [pend 1 .uncached 0x8000000000000] }
     (s.stores.find? fun q => q.id == 1) = some (pend 1 .uncached 0x8000000000000) ∧ (pend 1 .uncached 0x8000000000000).lost = false ∧
      isRegister 0x8000000000000 = false ∧ isCauseway 0x8000000000000 = false ∧
      s.lockHit 0 9 0x10000 (.mem 0x8000000000000) true = none ∧ s.specs = []) := by decide +kernel

/-! ## Decoding: one word of every instruction, from the encoding tables (R89..R114) with distinct operands -/

/-- Each word decodes to the instruction it stands for, and encodes it. -/
def agrees (l : List (BitVec 32 × Instr)) : Bool :=
  l.all fun p => (decodeWord p.1).toOption == some p.2 && encode p.2 == some p.1

theorem decodes_integer : agrees [
    (0x04328C02, .add 3 10 12 2), (0x04328C06, .sub 3 10 12 2), (0x04328C0A, .and 3 10 12 2),
    (0x04328C0E, .or 3 10 12 2), (0x04328C12, .xor 3 10 12 2), (0x04328C16, .sll 3 10 12 2),
    (0x04328C1A, .srl 3 10 12 2), (0x04328C1E, .sra 3 10 12 2), (0x04328C22, .rol 3 10 12 2),
    (0x04328C26, .ror 3 10 12 2), (0x04328C2A, .slt 3 10 12 2), (0x04328C2E, .sltu 3 10 12 2),
    (0x04328C32, .min 3 10 12 2), (0x04328C36, .max 3 10 12 2), (0x04328C3A, .minu 3 10 12 2),
    (0x04328C3E, .maxu 3 10 12 2), (0x04328C42, .mul 3 10 12 2), (0x04328C46, .mulh 3 10 12 2),
    (0x04328C4A, .mulhu 3 10 12 2), (0x04328C4E, .div 3 10 12 2), (0x04328C52, .divu 3 10 12 2),
    (0x04328C56, .rem 3 10 12 2), (0x04328C5A, .remu 3 10 12 2), (0x0432805E, .clz 3 10 2), (0x04328062, .ctz 3 10 2),
    (0x04328066, .cpop 3 10 2), (0x0432806A, .sextB 3 10 2), (0x0432806E, .sextH 3 10 2), (0x04328072, .sextW 3 10 2),
    (0x04328076, .zextB 3 10 2), (0x0432807A, .zextH 3 10 2), (0x0432807E, .zextW 3 10 2),
    (0x0832BFEE, .addi 3 10 (-5) 2), (0x0C32BFEE, .andi 3 10 (-5) 2), (0x1032BFEE, .ori 3 10 (-5) 2),
    (0x1432BFEE, .xori 3 10 (-5) 2), (0x1832BFEE, .slti 3 10 (-5) 2), (0x1C32BFEE, .sltiu 3 10 (-5) 2),
    (0x20328016, .slli 3 10 5 2), (0x24328016, .srli 3 10 5 2), (0x28328016, .srai 3 10 5 2),
    (0x2C328726, .ext 3 10 7 9 2), (0x30328726, .exts 3 10 7 9 2), (0x34328726, .ins 3 10 7 9 2),
    (0x383FFFEE, .lui 3 (-5) 2), (0x3C33FFEE, .lsi 3 65531 2)] = true := by decide +kernel

theorem decodes_memory : agrees [
    (0x48328502, .ld .w 3 10 5 2), (0x48328506, .ldU .w 3 10 5 2), (0x4832858A, .ldAcq .w 3 10 5 .pkg 2),
    (0x4C32850E, .ldS .d 3 10 5 2), (0x5432BFEE, .ldDLong 3 10 (-5) 2), (0x48328512, .st .w 3 10 5 2),
    (0x48328596, .stRel .w 3 10 5 .pkg 2), (0x4832851A, .stClr .w 3 10 5 2), (0x5832BFEE, .stDLong 3 10 (-5) 2)] = true := by decide +kernel

theorem decodes_atomics : agrees [
    (0x64328C82, .aadd .w 3 10 12 .pkg 2), (0x64328C86, .aswap .w 3 10 12 .pkg 2),
    (0x64328C8A, .aand .w 3 10 12 .pkg 2), (0x64328C8E, .aor .w 3 10 12 .pkg 2), (0x64328C92, .axor .w 3 10 12 .pkg 2),
    (0x64328C96, .amax .w 3 10 12 .pkg 2), (0x64328C9A, .amin .w 3 10 12 .pkg 2),
    (0x64328C9E, .amaxu .w 3 10 12 .pkg 2), (0x68328C82, .casD 3 10 12 .pkg 2), (0x6C828C82, .casQ 8 10 12 .pkg 2)] = true := by decide +kernel

theorem decodes_control : agrees [
    (0x70A33FE6, .beq 10 12 (-7) 2), (0x74A33FE6, .bne 10 12 (-7) 2), (0x78A33FE6, .blt 10 12 (-7) 2),
    (0x7CA33FE6, .bge 10 12 (-7) 2), (0x83FFFFE6, .j (-7) 2), (0x87FFFFE6, .jal (-7) 2),
    (0x8832BFEE, .jalr 3 10 (-5) 2), (0x8C3FFFEE, .spawn 3 (-5) 2)] = true := by decide +kernel

theorem decodes_tasks_and_pools : agrees [
    (0x900FFFEE, .spawnf (-5) 2), (0x94000002, .tdone 2), (0x94000006, .tabort 2), (0x9400000A, .tyield 2),
    (0x94028C0E, .spawnr 10 12 2), (0x94028012, .spawnfr 10 2), (0x98028C02, .crdeclD 10 12 2),
    (0x98028C06, .crdeclF32 10 12 2), (0x98028C0A, .crdeclF64 10 12 2), (0x98028C0E, .cradd 10 12 2),
    (0x98328012, .poolget 3 10 2), (0x98328016, .poolgetNf 3 10 2), (0x98028C1A, .poolput 10 12 2)] = true := by decide +kernel

theorem decodes_floating_point : agrees [
    (0xA4328C02, .fadd .f32 3 10 12 2), (0xA4328C06, .fsub .f32 3 10 12 2), (0xA4328C0A, .fmul .f32 3 10 12 2),
    (0xA4328C0E, .fdiv .f32 3 10 12 2), (0xA4328012, .fsqrt .f32 3 10 2), (0xA4328C16, .fmin .f32 3 10 12 2),
    (0xA4328C1A, .fmax .f32 3 10 12 2), (0xA4328C1E, .fmadd .f32 3 10 12 2), (0xA4328C22, .fmsub .f32 3 10 12 2),
    (0xA4328C26, .fnmadd .f32 3 10 12 2), (0xA4328C2A, .feq .f32 3 10 12 2), (0xA4328C2E, .flt .f32 3 10 12 2),
    (0xA4328C32, .fle .f32 3 10 12 2), (0xA4328036, .fclass .f32 3 10 2), (0xA432803A, .fneg .f32 3 10 2),
    (0xA432803E, .fabs .f32 3 10 2), (0xA8328032, .fcvt 1 4 3 10 2), (0xAC300002, .waclr 3 2),
    (0xAC328C06, .wadd 3 10 12 2), (0xAC328C0A, .waddv 3 10 12 2), (0xAC32800E, .wsgn 3 10 2),
    (0xAC328012, .wrnd 3 10 2)] = true := by decide +kernel

theorem decodes_vector_A : agrees [
    (0xC8EB0282, .vaddFp .bf16 3 10 12 5 2), (0xC8EB0286, .vsubFp .bf16 3 10 12 5 2),
    (0xC8EB028A, .vmulFp .bf16 3 10 12 5 2), (0xC8EB2E8E, .vfma .bf16 3 10 12 11 5 2),
    (0xC8EB2E92, .vfms .bf16 3 10 12 11 5 2), (0xC8EB0296, .vdiv .bf16 3 10 12 5 2),
    (0xC8E8029A, .vsqrt .bf16 3 10 5 2), (0xC8EB029E, .vminFp .bf16 3 10 12 5 2),
    (0xC8EB02A2, .vmaxFp .bf16 3 10 12 5 2), (0xC8E802A6, .vabsFp .bf16 3 10 5 2),
    (0xC8E802AA, .vnegFp .bf16 3 10 5 2), (0xC9AB02AE, .vcmpeqFp .bf16 6 10 12 5 2),
    (0xC9AB02B2, .vcmpltFp .bf16 6 10 12 5 2), (0xC9AB02B6, .vcmple .bf16 6 10 12 5 2),
    (0xC8E802BA, .vredsumFp .bf16 3 10 5 2), (0xC8E802BE, .vredmin .bf16 3 10 5 2),
    (0xC8E802C2, .vredmax .bf16 3 10 5 2)] = true := by decide +kernel

theorem decodes_vector_B_to_D : agrees [
    (0xD0EB0A82, .vaddInt .w 3 10 12 5 2), (0xD0EB0A86, .vsubInt .w 3 10 12 5 2),
    (0xD0EB0A8A, .vmulInt .w 3 10 12 5 2), (0xD0EB0A8E, .vminInt .w 3 10 12 5 2),
    (0xD0EB0A92, .vmaxInt .w 3 10 12 5 2), (0xD0EB0A96, .vminu .w 3 10 12 5 2), (0xD0EB0A9A, .vmaxu .w 3 10 12 5 2),
    (0xD0EB0A9E, .vand .w 3 10 12 5 2), (0xD0EB0AA2, .vor .w 3 10 12 5 2), (0xD0EB0AA6, .vxor .w 3 10 12 5 2),
    (0xD0EB0AAA, .vsll .w 3 10 12 5 2), (0xD0EB0AAE, .vsrl .w 3 10 12 5 2), (0xD0EB0AB2, .vsra .w 3 10 12 5 2),
    (0xD1AB0AB6, .vcmpeqInt .w 6 10 12 5 2), (0xD1AB0ABA, .vcmpltInt .w 6 10 12 5 2),
    (0xD1AB0ABE, .vcmpltu .w 6 10 12 5 2), (0xD0E80AC2, .vredsumInt .w 3 10 5 2), (0xD0E80AC6, .vabsInt .w 3 10 5 2),
    (0xD0E80ACA, .vnegInt .w 3 10 5 2), (0xD4E85286, .vcvt 1 4 0 true 3 10 5 2), (0xD8EB0282, .vshufD 3 10 12 5 2),
    (0xD8EB0286, .vshufW 3 10 12 5 2), (0xD8EB028A, .vshufB 3 10 12 5 2), (0xD8EB028E, .vselD 3 10 12 5 2),
    (0xD8EB0292, .vselW 3 10 12 5 2), (0xD8C08696, .vbcastD 3 33 5 2), (0xD8C0869A, .vbcastW 3 33 5 2),
    (0xD9A8841E, .vextD 33 10 6 2), (0xD9A88422, .vextW 33 10 6 2), (0xD8D88426, .vinsD 3 33 6 2),
    (0xD8D8842A, .vinsW 3 33 6 2), (0xD98C402E, .vmand 6 3 1 2), (0xD98C4032, .vmor 6 3 1 2),
    (0xD98C4036, .vmxor 6 3 1 2), (0xD98C003A, .vmnot 6 3 2), (0xD980843E, .vmput 6 33 2), (0xD80C8442, .vmget 33 3 2),
    (0xD8E802C6, .vmov 3 10 5 2), (0xDCC08402, .vld 3 33 2), (0xDCC08686, .vstD 3 33 5 2),
    (0xDCC0868A, .vstW 3 33 5 2), (0xDCC0868E, .vstB 3 33 5 2)] = true := by decide +kernel

theorem decodes_engines_and_system : agrees [
    (0xE2800002, .mlease 5 2), (0xE2840002, .mrel 5 2), (0xE288A31A, .mfmt 5 10 12 6 2), (0xE28CA01A, .mgeo 5 10 6 2),
    (0xE290A31A, .mloadw 5 10 12 6 2), (0xE2940002, .mswap 5 2), (0xE298A31A, .mstream 5 10 12 (.set 6) 2),
    (0xE29C0002, .mdrain 5 2), (0xE680A326, .gather 5 10 12 (.handle 1) 2), (0xE684A31A, .scatter 5 10 12 (.set 6) 2),
    (0xE688A31A, .scatterAdd 5 10 12 (.set 6) 2), (0xE40CA02A, .hset 10 2 2), (0xE410A02A, .hget 10 2 2),
    (0xE694A32A, .hld 5 10 12 2 2), (0xE698A32A, .hst 5 10 12 2 2), (0xEA80A31A, .cpy 5 10 12 6 2),
    (0xEA84A31A, .cpy2 5 10 12 6 2), (0xEA88A31A, .cpy3 5 10 12 6 2), (0xEAA00002, .fwait 5 2),
    (0xEAA4A002, .ftest 5 10 2), (0xEAA80002, .fcancel 5 2), (0xEAACA002, .fpassRead 5 10 2),
    (0xEAB0A002, .fpassWrite 5 10 2), (0xEE80A302, .spmap 5 10 12 2), (0xEE84A302, .spfree 5 10 12 2),
    (0xEE88A302, .sppin 5 10 12 2), (0xEE8CA002, .spmig 5 10 2), (0xEE90A302, .spflush 5 10 12 2),
    (0xED20A302, .sbind 2 10 12 2), (0xED240002, .sfree 2 2), (0xEC28A002, .qbind 10 2), (0xF0000082, .fence .pkg 2),
    (0xF0000086, .fenceX .pkg 2), (0xF002808A, .bar .pkg 10 2), (0xF002808E, .barjoin .pkg 10 2),
    (0xF0028092, .barleave .pkg 10 2), (0xF0028C96, .wait .pkg 10 12 2), (0xF002809A, .publish .pkg 10 2),
    (0xF4300402, .csrr 3 256 2), (0xF4029402, .csrw 256 10 2), (0xF402A402, .csrs 256 10 2),
    (0xF402B402, .csrc 256 10 2), (0xF8000002, .nop 2), (0xF8000006, .eret 2), (0xF802800A, .trap 10 2),
    (0xF832800E, .wpsw 3 10 2), (0xF8000012, .sleep 2), (0xF8000016, .brk 2)] = true := by decide +kernel


/-! ## Decoding: the words that the spec itself works out -/

/-- The worked examples of R115, R217, R253, R259, R268 and of the entries R344..R402. -/
theorem worked_examples_integer : agrees [
    (0x04304200, .add 3 1 2 0), (0x0492_7800, .add 9 9 56 0), (0x0871_BFFC, .addi 7 6 (-1) 0), (0x0451_8708, .and 5 6 7 0),
    (0x0C20_C3FC, .andi 2 3 0xFF 0), (0x0420_C05C, .clz 2 3 0), (0x0431_054F, .div 3 4 5 3), (0x2C10_880C, .ext 1 2 8 3 0),
    (0x3010_880C, .exts 1 2 8 3 0), (0x3451_901C, .ins 5 6 16 7 0), (0x0431_0534, .max 3 4 5 0), (0x0431_0541, .mul 3 4 5 1),
    (0x0431_0520, .rol 3 4 5 0), (0x0431_0524, .ror 3 4 5 0), (0x0420_C070, .sextW 2 3 0), (0x0431_0514, .sll 3 4 5 0),
    (0x201E_0018, .slli 1 56 6 0), (0x0410_8328, .slt 1 2 3 0), (0x1810_BFFC, .slti 1 2 (-1) 0), (0x1C10_8004, .sltiu 1 2 1 0),
    (0x0410_832C, .sltu 1 2 3 0), (0x0431_051C, .sra 3 4 5 0), (0x2820_C0FC, .srai 2 3 63 0), (0x0431_0518, .srl 3 4 5 0),
    (0x0503_3804, .sub 16 12 56 0), (0x0440_C204, .sub 4 3 2 0), (0x0420_C07C, .zextW 2 3 0)] = true := by decide +kernel

theorem worked_examples_memory : agrees [
    (0x4875_020C, .ldS .w 7 20 2 0), (0x4C90_800C, .ldS .d 9 2 0 0), (0x602E_3980, .aadd .d 2 56 57 .pkg 0),
    (0x6451_C644, .aswap .w 5 7 6 .clu 0), (0x6841_8560, .casD 4 6 5 .die 0), (0x6C80_CAA0, .casQ 8 3 10 .sys 0),
    (0x7842_7FF4, .blt 4 9 (-3) 0), (0x7010_0014, .beq 1 0 5 0), (0x9800_C40C, .cradd 3 4 0), (0x9801_4600, .crdeclD 5 6 0),
    (0x9801_4608, .crdeclF64 5 6 0), (0x9852_4010, .poolget 5 9 0)] = true := by decide +kernel

theorem worked_examples_floating_point : agrees [
    (0xA470_803D, .fabs .f32 7 2 1), (0xA031_0501, .fadd .f64 3 4 5 1), (0xA020_C035, .fclass .f64 2 3 1),
    (0xA841_4081, .fcvt 4 0 4 5 1), (0xA820_C021, .fcvt 1 0 2 3 1), (0xA431_050F, .fdiv .f32 3 4 5 3), (0xA061_C829, .feq .f64 6 7 8 1),
    (0xA051_871D, .fmadd .f64 5 6 7 1), (0xA010_8315, .fmin .f64 1 2 3 1), (0xA030_4121, .fmsub .f64 3 1 1 1),
    (0xA070_8039, .fneg .f64 7 2 1), (0xA020_C013, .fsqrt .f64 2 3 3)] = true := by decide +kernel

theorem worked_examples_vectors : agrees [
    (0xC0C4_8001, .vaddFp .f64 3 1 2 0 1), (0xD0C4_8801, .vaddInt .w 3 1 2 0 1), (0xD048_C01D, .vand .b 1 2 3 0 1),
    (0xD940_2415, .vbcastD 5 9 0 1), (0xC048_C031, .vcmpltFp .f64 1 2 3 0 1), (0xD048_C83D, .vcmpltu .w 1 2 3 0 1),
    (0xD484_5005, .vcvt 1 4 0 true 2 1 0 1), (0xC048_C014, .vdiv .f64 1 2 3 0 0), (0xD8C8_141D, .vextD 5 2 3 1),
    (0xC448_D00D, .vfma .f32 1 2 3 4 0 1), (0xD848_2425, .vinsD 1 9 2 1), (0xDC40_2400, .vld 1 9 0), (0xD848_C02D, .vmand 1 2 3 1),
    (0xD115_8D19, .vmaxu .d 4 5 6 2 1), (0xD808_1C41, .vmget 7 2 1), (0xD848_0045, .vmov 1 2 0 1), (0xD840_043D, .vmput 1 1 1),
    (0xC048_0038, .vredsumFp .f64 1 2 0 0), (0xD848_C20D, .vselD 1 2 3 4 1), (0xD848_C001, .vshufD 1 2 3 0 1),
    (0xD048_CC29, .vsll .d 1 2 3 0 1), (0xC448_0018, .vsqrt .f32 1 2 0 0), (0xDCC0_1004, .vstD 3 4 0 0), (0xDC40_0488, .vstW 1 1 1 0)] = true := by
  decide +kernel

theorem worked_examples_engines : agrees [
    (0xE000_0000, .mlease 0 0), (0xE304_0000, .mrel 6 0), (0xE088_3000, .mfmt 1 3 0 0 0), (0xE10C_4000, .mgeo 2 4 0 0),
    (0xE190_5000, .mloadw 3 5 0 0 0), (0xE214_0000, .mswap 4 0), (0xE298_6040, .mstream 5 6 1 (.set 0) 0),
    (0xE018_20E4, .mstream 0 2 3 (.handle 1) 0), (0xE01C_0000, .mdrain 0 0), (0xE500_7220, .gather 2 7 8 (.handle 0) 0),
    (0xE400_3104, .gather 0 3 4 (.set 1) 0), (0xE504_720C, .scatter 2 7 8 (.set 3) 0), (0xE488_3104, .scatterAdd 1 3 4 (.set 1) 0),
    (0xE40C_3024, .hset 3 1 0), (0xE414_2268, .hld 0 2 9 2 0), (0xE498_4160, .hst 1 4 5 0 0), (0xE984_A2C8, .cpy2 3 10 11 2 0),
    (0xE980_A2C8, .cpy 3 10 11 2 0), (0xEB88_1094, .cpy3 7 1 2 5 0), (0xE9A0_0000, .fwait 3 0), (0xE9A4_5000, .ftest 3 5 0),
    (0xE9A8_0000, .fcancel 3 0), (0xE92C_6000, .fpassRead 2 6 0), (0xE930_6000, .fpassWrite 2 6 0), (0xED00_4140, .spmap 2 4 5 0),
    (0xEC8C_7000, .spmig 1 7 0), (0xEC28_4000, .qbind 4 0)] = true := by decide +kernel

theorem worked_examples_system : agrees [
    (0xF000_0080, .fence .pkg 0), (0xF000_0064, .fenceX .die 0), (0xF001_4088, .bar .pkg 5 0), (0xF003_4068, .bar .die 13 0),
    (0xF001_404C, .barjoin .clu 5 0), (0xF001_4050, .barleave .clu 5 0), (0xF001_8794, .wait .pkg 6 7 0), (0xF002_40B8, .publish .sys 9 0),
    (0xF002_4098, .publish .pkg 9 0), (0xF570_0018, .csrr 23 6 0), (0xF400_5400, .csrw 0x100 1 0), (0xF400_6000, .csrs 0 1 0),
    (0xF400_7000, .csrc 0 1 0), (0xF801_4008, .trap 5 0), (0xF800_0014, .brk 0), (0xF841_400C, .wpsw 4 5 0)] = true := by decide +kernel

/-! ## Ill-formed terms, one for each check -/

theorem refuses_ill_formed : ([
    .ext 1 2 60 4 0, .exts 1 2 63 1 0, .ins 1 2 1 63 0,
    .ld .q 3 1 0 0, .ld .q 48 1 0 0, .ldU .d 2 1 0 0, .ldAcq .q 5 1 0 .pkg 0, .ldS .b 2 1 0 0, .ldS .q 2 1 0 0, .st .q 7 1 0 0,
    .stRel .q 47 1 0 .pkg 0, .stClr .q 50 1 0 0, .casD 48 1 2 .pkg 0, .casD 54 1 2 .pkg 0, .casQ 3 1 2 .pkg 0, .casQ 4 1 3 .pkg 0,
    .fcvt 1 1 2 3 0, .fcvt 4 6 2 3 0, .vcvt 11 1 0 false 1 2 0 0, .vcvt 1 12 0 false 1 2 0 0, .vcvt 1 7 0 false 1 2 0 0,
    .vcvt 1 1 0 false 1 2 0 0, .vcvt 1 4 4 false 1 2 0 0, .vcvt 0 2 4 false 1 2 0 0, .vcvt 1 9 0 true 1 2 0 0, .vextD 1 2 8 0, .vinsD 1 2 8 0,
    .publish .die 9 0, .csrr 3 0x00A 0, .csrw 0x020 3 0, .csrs 0x0FF 3 0, .csrc 0x200 3 0] : List Instr).all
      (fun i => !i.wellFormed && (encode i).all fun w => (decodeWord w).toOption != some i) = true := by decide +kernel

theorem accepts_boundaries : ([
    .ext 1 2 60 3 0, .ins 1 2 0 63 0, .ld .q 46 1 0 0, .ldU .w 2 1 0 0, .casD 47 1 2 .pkg 0, .casD 55 1 2 .pkg 0, .casQ 46 1 0 .pkg 0,
    .fcvt 3 6 2 3 0, .vcvt 10 6 0 false 1 2 0 0, .vcvt 1 4 3 true 1 2 0 0, .vcvt 7 1 1 false 1 2 0 0, .vcvt 8 9 0 true 1 2 0 0,
    .vextD 1 2 7 0, .vextW 1 2 15 0, .publish .sys 9 0, .csrr 3 9 0, .csrw 0x1FF 3 0] : List Instr).all
      (fun i => i.wellFormed && (encode i).isSome) = true := by decide +kernel

/-- Words that decode to nothing (R94): major 0, a nonzero reserved field, a scope of 6, an unlisted CSR, an operation that is none. -/
theorem refuses_words : ([0x00000000, 0x0431_0580, 0x0420C15C, 0x40800C0C, 0x6C80_CAC0, 0xF40000_28, 0xF800_0018, 0xE03C_0000, 0x5C000000,
    0xFC000000, 0xF0000018, 0xA8000000] : List (BitVec 32)).all (fun w => (decodeWord w).toOption == none) = true := by decide +kernel

/-! ## One step: the values that the spec works out -/

/-- What an instruction leaves in a register. -/
def leaves (s : State) (i : Instr) (d : Fin 64) : Word := (after (exec i s)).cx.w[d]

/-- What it sends to a register later. -/
def sends (s : State) (i : Instr) (r : RegRef) : Option Nat :=
  ((after (exec i s)).cx.results.find? fun p => p.reg == r).map fun p => p.val.toNat

/-- R8, R348..R350, R406, R376, R380, R446: wraps, signs and the corners of division. -/
theorem test_integer :
    leaves (free [(1, 0xFFFFFFFFFFFFFFFF), (2, 2)]) (.add 3 1 2 0) 3 = 1 ∧ leaves (free [(1, 1), (2, 2)]) (.sub 1 1 2 0) 1 = 0xFFFFFFFFFFFFFFFF ∧
      leaves (free [(1, 0x8000000000000000), (2, 0xFFFFFFFFFFFFFFFF)]) (.div 3 1 2 0) 3 = 0x8000000000000000 ∧
      leaves (free [(1, 0x8000000000000000), (2, 0xFFFFFFFFFFFFFFFF)]) (.rem 3 1 2 0) 3 = 0 ∧
      leaves (free [(1, 7)]) (.div 3 1 2 0) 3 = 0xFFFFFFFFFFFFFFFF ∧ leaves (free [(1, 7)]) (.remu 3 1 2 0) 3 = 7 ∧
      leaves (free [(1, 0xFFFFFFFFFFFFFFF9), (2, 2)]) (.div 3 1 2 0) 3 = 0xFFFFFFFFFFFFFFFD ∧
      leaves (free [(1, 0xFFFFFFFFFFFFFFF9), (2, 2)]) (.rem 3 1 2 0) 3 = 0xFFFFFFFFFFFFFFFF ∧
      leaves (free [(1, 0x8000000000000000), (2, 65)]) (.sra 3 1 2 0) 3 = 0xC000000000000000 ∧
      leaves (free [(1, 0x8000000000000001), (2, 1)]) (.rol 3 1 2 0) 3 = 3 ∧ leaves (free []) (.clz 3 1 0) 3 = 64 ∧
      leaves (free [(1, 0xFFFFFFFFFFFFFFFF), (2, 0xFFFFFFFFFFFFFFFF)]) (.mulh 3 1 2 0) 3 = 0 ∧
      leaves (free [(1, 0xFFFFFFFFFFFFFFFF), (2, 0xFFFFFFFFFFFFFFFF)]) (.mulhu 3 1 2 0) 3 = 0xFFFFFFFFFFFFFFFE ∧
      leaves (free [(2, 0xF00)]) (.exts 1 2 8 3 0) 1 = 0xFFFFFFFFFFFFFFFF ∧
      leaves (free [(5, 0xFFFFFFFFFFFFFFFF), (6, 0x12)]) (.ins 5 6 16 7 0) 5 = 0xFFFFFFFFFF12FFFF ∧
      leaves (free []) (.lui 3 0x20000 0) 3 = 0xFFFFFFFFE0000000 ∧ leaves (free [(3, 0x1234)]) (.lsi 3 0xABCD 0) 3 = 0x1234ABCD ∧
      leaves (free [(1, 5)]) (.add 0 1 1 0) 0 = 0 := by decide +kernel

/-- R101, R356, R407, R408. -/
theorem test_control_flow :
    (after (exec (.beq 1 0 5 0) (free []))).cx.pc = 20 ∧ (after (exec (.bne 1 0 5 0) (free []))).cx.pc = 4 ∧
      (after (exec (.j (-7) 0) (free []))).cx.pc = 0xFFFFE4 ∧ leaves (free []) (.jal 3 0) 61 = 4 ∧
      (after (exec (.jalr 0 61 0 0) (free [(61, 0x40)]))).cx.pc = 0x40 := by decide +kernel

/-- R395's worked example, R389's, R383, R394 and R396. -/
theorem test_floating_point :
    leaves (free [(1, 0x3FF0000002000000), (3, 0x3FF0000004000000)]) (.fmsub .f64 3 1 1 0) 3 = 0x3C90000000000000 ∧
      leaves (free [(1, 0x3FF0000002000000)]) (.fmul .f64 4 1 1 0) 4 = 0x3FF0000004000000 ∧
      leaves (free [(1, 0x7F800001)]) (.fclass .f32 2 1 0) 2 = 0x100 ∧ leaves (free [(1, 0x80000001)]) (.fclass .f32 2 1 0) 2 = 0x004 ∧
      leaves (free []) (.fclass .f32 2 1 0) 2 = 0x010 ∧
      leaves (free [(1, 0x3FF0000000000000), (2, 0x3CB0000000000000)]) (.fadd .f64 3 1 2 0) 3 = 0x3FF0000000000001 ∧
      leaves (free [(1, 0x3FF0000000000000)]) (.fdiv .f64 3 1 2 0) 3 = 0x7FF0000000000000 ∧
      leaves (free [(1, 0x8000000000000000)]) (.feq .f64 3 1 2 0) 3 = 1 ∧
      leaves (free [(1, 0x4000000000000000)]) (.fsqrt .f64 3 1 0) 3 = 0x3FF6A09E667F3BCD ∧
      leaves (free [(1, 0x40400000)]) (.fneg .f32 3 1 0) 3 = 0xC0400000 := by decide +kernel

/-- R138's and R391's tables of conversions: 2.5 to INT32 ties to even; −3.5 under psw.rm = 2 gives −3. -/
theorem test_conversions :
    leaves (free [(1, 0x4004000000000000)]) (.fcvt 6 0 2 1 0) 2 = 2 ∧
      leaves (ctxWith (free [(1, 0xC00C000000000000)]) fun c => { c with psw := 4 }) (.fcvt 6 0 2 1 0) 2 = 0xFFFFFFFFFFFFFFFD ∧
      leaves (free [(1, 0xC00C000000000000)]) (.fcvt 6 0 2 1 0) 2 = 0xFFFFFFFFFFFFFFFC ∧
      leaves (free [(1, 0x3FF0000010000000)]) (.fcvt 1 0 2 1 0) 2 = 0x3F800000 ∧ leaves (free [(1, 0x4788B800)]) (.fcvt 3 1 2 1 0) 2 = 0x7C00 ∧
      leaves (free [(1, 0x7FF8000000000000)]) (.fcvt 4 0 2 1 0) 2 = 0 ∧ leaves (free [(1, 0x20000000000001)]) (.fcvt 0 4 2 1 0) 2 = 0x4340000000000000 := by decide +kernel

/-- R479: E(v1, 0..2) = 500.0, 460.0 and −7.0 become 0x7E, 0x7E and 0xCE; R138: without .sat the first is 0x7F. -/
def converting : State :=
  ctxWith (free []) fun c => { c with v := (c.v.set 1 0xC0E0000043E6000043FA0000).set 2 0x8000000000000000000000000000000000000000 }

theorem test_vcvt :
    ((after (exec (.vcvt 1 4 0 true 2 1 0 0) converting)).cx.v[2]).toNat % 2 ^ 24 = 0xCE7E7E ∧
      ((after (exec (.vcvt 1 4 0 false 2 1 0 0) converting)).cx.v[2]).toNat % 2 ^ 8 = 0x7F ∧
      ((after (exec (.vcvt 1 4 0 true 2 1 0 0) converting)).cx.v[2]).toNat / 2 ^ 128 = 0x80000000 := by decide +kernel

/-- R488's worked example: 2^24, 1, 1, 1 in the pairwise tree give 2^24 + 2. -/
theorem test_reduction :
    (let s := ctxWith (free []) fun c => { c with v := c.v.set 2 0x3F8000003F8000003F8000004B800000, m := c.m.set 1 0xF }
     sends s (.vredsumFp .f32 1 2 1 0) (.v 1)) = some 0x4B800001 := by decide +kernel

/-- R346's worked example: 0xFFFF_FFF0 and 5. -/
theorem test_atomics :
    (let s := (free [(6, sp 0x800), (5, 5)]).frameWrite 5 0x800 (leBytes 8 0xFFFFFFF0)
     sends s (.amax .w 4 6 5 .die 0) (.w 4) = some 0xFFFFFFFFFFFFFFF0 ∧
      (after (exec (.amax .w 4 6 5 .die 0) s)).frameRead 5 0x800 4 = leBytes 4 5 ∧
      sends s (.amaxu .w 4 6 5 .die 0) (.w 4) = some 0xFFFFFFFFFFFFFFF0 ∧
      (after (exec (.amaxu .w 4 6 5 .die 0) s)).frameRead 5 0x800 4 = leBytes 4 0xFFFFFFF0) := by decide +kernel

/-- The two-by-two product of R253's chapter: TW8 weights, E4M3 activations, the window words of R424. -/
theorem test_reedbed :
    (([[(0x38, 0x12), (0x40, 0x00)], [(0x38, 0x1A), (0x40, 0x71)], [(0x30, 0x12), (0xB8, 0x00)], [(0x30, 0x1A), (0xB8, 0x71)]] :
        List (List (Nat × Nat))).map fun l => columnSum 4 7 (l.map fun p => (p.1, p.2, none, none)) none)
      = [0x40980000, 0x3FA00000, 0xBFD00000, 0xBEC00000] := by decide +kernel

/-- R410: a byte is sign-extended and LD.u's is not, little-endian (R4); R460: ST sends the low bytes. -/
theorem test_loads_and_stores :
    (let s := (free [(4, sp 0x800), (6, 0x1122334455667788)]).frameWrite 5 0x800 (leBytes 8 0x80FF7F)
     sends s (.ld .b 5 4 2 0) (.w 5) = some 0xFFFFFFFFFFFFFF80 ∧ sends s (.ldU .b 5 4 2 0) (.w 5) = some 0x80 ∧
      sends s (.ld .h 5 4 0 0) (.w 5) = some 0xFFFFFFFFFFFFFF7F ∧
      ((after (exec (.st .h 6 4 0 0) s)).stores.map fun p => p.bytes) = [[(0x800, 0x88), (0x801, 0x77)]] ∧
      (after (exec (.ld .d 5 4 1 0) (free [(4, sp 0x801)]))).cx.status ≠ .ready) := by decide +kernel

/-- R281: the trap's cause, pc, word and mode; R282: ERET goes back. -/
theorem test_traps :
    (let s := ctxWith { free [(5, 0x99)] with launches := [(3, { launch3 with uvec := (List.replicate 16 0).set 14 0x400 })] } fun c => { c with pc := 0x20 }
     let t := after (exec (.trap 5 0) s)
     t.cx.user.cause = 0x0E ∧ t.cx.user.epc = 0x24 ∧ t.cx.user.word = 0x99 ∧ t.cx.psw = 0x400 ∧ t.cx.pc = 0x400 ∧
      (let u := after (exec (.eret 0) { t with cycle := 1100 })
       u.cx.pc = 0x24 ∧ u.cx.psw = 0)) := by decide +kernel

/-- R175's worked sequence: the first get of a fresh pool gives its base, the next one the element after it. -/
theorem test_pools : sends (pooled 0 0) (.poolget 6 4 0) (.w 6) = some 0x10040 ∧ sends (pooled 1 0) (.poolget 6 4 0) (.w 6) = some 0x10050 ∧
    sends (pooled 1 0x10070) (.poolget 6 4 0) (.w 6) = some 0x10070 ∧ sends (pooled 4 0) (.poolgetNf 6 4 0) (.w 6) = some 0 := by decide +kernel

/-- R113's worked example: csrs psw with 6 sets psw.rm to 3 and leaves the rest. -/
theorem test_csr : (after (exec (.csrs 0 1 0) (ctxWith (free [(1, 6)]) fun c => { c with psw := 0x8 }))).cx.psw = 0xE := by decide +kernel

/-- R432's worked example: 0x65 binds qin to the east queue and qout toward the south neighbour. -/
theorem test_qbind :
    (let t := after (exec (.qbind 4 0) (free [(4, 0x65)]))
     qinBound t.cx = true ∧ qinDir t.cx = 1 ∧ qoutBound t.cx = true ∧ qoutDir t.cx = 2) := by decide +kernel

/-- R405's worked pitches: 6 columns of .e4m3 give 8, of .f32 24. -/
theorem test_pitch : handlePitch (BitVec.ofNat 512 (4 * 2 ^ 8 + 6 * 2 ^ 96)) = 8 ∧ handlePitch (BitVec.ofNat 512 (2 ^ 8 + 6 * 2 ^ 96)) = 24 := by
  decide +kernel

/-- R14's worked tile number: 0x6B5 stands on die 3. -/
theorem test_tiles : dieOf 0x6B5 = 3 ∧ isTile 0x6B5 = true := by decide +kernel

end Sys2Proof.Tests
end

section
/-!
SUPPORT. Folds that reach every element, finite maps without a key, the number of a dword's bytes.
-/
namespace Sys2Proof.Machine

/-! ## Folds, maps, bytes, lists -/

theorem foldl_reaches {σ α : Type} {f : σ → α → σ} {P : α → σ → Prop} {as : List α}
    (hhit : ∀ s, ∀ a ∈ as, P a (f s a)) (hkeep : ∀ s a b, P a s → P a (f s b)) (s : σ) : ∀ a ∈ as, P a (as.foldl f s) := by
  induction as generalizing s with
  | nil => exact fun a ha => absurd ha List.not_mem_nil
  | cons b bs ih =>
    intro a ha
    obtain rfl | ha := List.mem_cons.1 ha
    · exact List.foldlRecOn bs f (hhit s a List.mem_cons_self) fun s h c _ => hkeep s a c h
    · exact ih (fun s a ha => hhit s a (List.mem_cons_of_mem b ha)) _ a ha

namespace AMap

theorem get?_eq_none {α : Type} {m : AMap α} {k : Nat} (h : ∀ e ∈ m, e.1 ≠ k) : m.get? k = none := by
  induction m with
  | nil => rfl
  | cons e m ih =>
    obtain ⟨x, v⟩ := e
    have hx : k ≠ x := fun hk => h (x, v) List.mem_cons_self hk.symm
    simp [get?, hx, ih fun e he => h e (List.mem_cons_of_mem _ he)]

theorem get?_erase_self {α : Type} {m : AMap α} (k : Nat) (h : (m.map (·.1)).Pairwise (· < ·)) : (m.erase k).get? k = none := by
  induction m with
  | nil => rfl
  | cons e m ih =>
    obtain ⟨x, v⟩ := e
    obtain ⟨hlt, hm⟩ := List.pairwise_cons.1 h
    by_cases hk : k = x
    · subst hk
      have herase : AMap.erase ((k, v) :: m) k = m := by simp [erase]
      rw [herase]
      exact get?_eq_none fun e he => Nat.ne_of_gt (hlt e.1 (List.mem_map_of_mem he))
    · simp [erase, get?, hk, ih hm]

end AMap

theorem leNat_leBytes (k n : Nat) : leNat (leBytes k n) = n % 256 ^ k := by
  induction k generalizing n with
  | zero => simp [leBytes, leNat, Nat.mod_one]
  | succ k ih =>
    rw [leBytes, leNat, ih, BitVec.toNat_ofNat]
    change n % 256 + 256 * (n / 256 % 256 ^ k) = n % 256 ^ (k + 1)
    rw [Nat.pow_succ', Nat.mod_mul]

theorem mem_insertNat_self (x : Nat) (xs : List Nat) : x ∈ insertNat x xs := by
  induction xs with
  | nil => simp [insertNat]
  | cons y ys ih =>
    simp only [insertNat]
    split
    · exact List.mem_cons_self
    · split
      case isTrue h => exact (beq_iff_eq.1 h) ▸ List.mem_cons_self
      case isFalse => exact List.mem_cons_of_mem y ih

end Sys2Proof.Machine
end

section
/-!
PROOFS. The register windows: what a read and a write at each offset is (R293, R295), the values after reset (O43), and the actions
that the host's registers start (O53).
-/
namespace Sys2Proof.Machine

namespace State

/-! ## The register windows by offset (R293) -/

theorem regRead_queue (s : State) {q off : Nat} (hq : q < 64) (hoff : off < 0x40) (hal : off % 8 = 0) :
    s.regRead (0x40 * q + off) = s.queueRead q off := by
  have ho : (0x40 * q + off) / 8 * 8 = 0x40 * q + off := by omega
  have hlt : 0x40 * q + off < 0x1000 := by omega
  have hd : (0x40 * q + off) / 0x40 = q := by omega
  have hm : (0x40 * q + off) % 0x40 = off := by omega
  simp only [regRead, ho, hlt, hd, hm, if_true]

theorem regWrite_queue (s : State) {q off : Nat} (v : Word) (hq : q < 64) (hoff : off < 0x40) (hal : off % 8 = 0) :
    s.regWrite (0x40 * q + off) v = s.queueWrite q off v := by
  have ho : (0x40 * q + off) / 8 * 8 = 0x40 * q + off := by omega
  have hlt : 0x40 * q + off < 0x1000 := by omega
  have hd : (0x40 * q + off) / 0x40 = q := by omega
  have hm : (0x40 * q + off) % 0x40 = off := by omega
  simp only [regWrite, ho, hlt, hd, hm, if_true]

theorem regRead_spcfg (s : State) {t : Nat} (ht : isTile t = true) (hr : t ∉ s.retired) :
    s.regRead (0x100000 + 0x100 * t) =
      BitVec.ofNat 64 ((s.tile t).spReq.toNat * 2 ^ 16 + (s.tile t).spCur.toNat * 2 ^ 14 + frameCode (s.tile t).spCur) := by
  have hlt : t < 4096 := by simp [isTile] at ht; omega
  have ho : (0x100000 + 0x100 * t) / 8 * 8 = 0x100000 + 0x100 * t := by omega
  have hd : (0x100000 + 0x100 * t - 0x100000) / 0x100 = t := by omega
  have hm : (0x100000 + 0x100 * t) % 0x100 = 0 := by omega
  simp only [regRead, ho]
  rw [if_neg (by omega), if_neg (by omega), if_neg (by omega), if_neg (by simp; omega), if_pos (by simp; omega)]
  simp [hm, ht, hr]

theorem regWrite_spcfg (s : State) {t : Nat} (v : Word) (ht : isTile t = true) (hr : t ∉ s.retired) :
    s.regWrite (0x100000 + 0x100 * t) v = s.onTile t fun x => { x with spReq := BitVec.ofNat 2 (bits v 16 2) } := by
  have hlt : t < 4096 := by simp [isTile] at ht; omega
  have ho : (0x100000 + 0x100 * t) / 8 * 8 = 0x100000 + 0x100 * t := by omega
  have hd : (0x100000 + 0x100 * t - 0x100000) / 0x100 = t := by omega
  have hm : (0x100000 + 0x100 * t) % 0x100 = 0 := by omega
  simp only [regWrite, ho]
  rw [if_neg (by omega), if_neg (by omega), if_neg (by omega), if_neg (by simp; omega), if_pos (by simp; omega)]
  simp [hm, ht, hr]

theorem regWrite_walk (s : State) {d off : Nat} (v : Word) (hd : d < 8) (hoff : off = 0 ∨ off = 8) :
    s.regWrite (0x8000 + 0x1000 * d + off) v =
      if off = 0 then s.xinvWrite d v else s.setWalk d { s.walkWin d with count := bits v 41 23, first := bits v 0 41 } := by
  have ho : (0x8000 + 0x1000 * d + off) / 8 * 8 = 0x8000 + 0x1000 * d + off := by omega
  have hq : (0x8000 + 0x1000 * d + off - 0x8000) / 0x1000 = d := by omega
  have hm : (0x8000 + 0x1000 * d + off) % 0x1000 = off := by omega
  simp only [regWrite, ho]
  rw [if_neg (by omega), if_neg (by omega), if_neg (by omega), if_pos (by simp; omega), hq, hm]
  obtain rfl | rfl := hoff <;> rfl

/-- A write of a whole register at an aligned offset. -/
theorem exec_registerWrite_aligned (s : State) {off : Nat} (v : Word) (hal : off % 8 = 0) :
    exec (.registerWrite off v) s = .next (s.regWrite off v) := by
  simp [execRegisterWrite, windowWrite, hal]

theorem exec_registerWrite_queue (s : State) {q off : Nat} (v : Word) (hq : q < 64) (hoff : off < 0x40) (hal : off % 8 = 0) :
    exec (.registerWrite (0x40 * q + off) v) s = .next (s.queueWrite q off v) := by
  rw [exec_registerWrite_aligned s v (by omega), regWrite_queue s v hq hoff hal]

end State

/-- Settles O43: every register and field is read off the reset state. -/
theorem resetValues : Obligations.ResetValues := by
  refine ⟨rfl, rfl, rfl, rfl, rfl, rfl, rfl, rfl, ?tiles, ?queues, rfl, rfl, rfl, rfl, rfl, fun _ => ⟨rfl, rfl, rfl, rfl, rfl⟩,
    fun _ _ => rfl, rfl, rfl⟩
  case tiles =>
    intro t ht
    have htile : State.reset.tile t = TileS.reset := rfl
    rw [State.regRead_spcfg _ ht List.not_mem_nil, htile]
    rfl
  case queues =>
    intro q hq
    have hqueue : State.reset.queue q = LaunchQ.reset := rfl
    have hread : ∀ off < 0x40, off % 8 = 0 → State.reset.regRead (0x40 * q + off) = State.reset.queueRead q off :=
      fun off hoff hal => State.regRead_queue _ hq hoff hal
    have hring := hread 0 (by decide) rfl
    rw [Nat.add_zero] at hring
    rw [hring, hread 0x08 (by decide) rfl, hread 0x10 (by decide) rfl, hread 0x20 (by decide) rfl, hread 0x28 (by decide) rfl]
    simp only [State.queueRead, hqueue]
    decide

namespace State

/-! ## Host fences (R243) and reports (R307) -/

theorem later_eq (s : State) (e : Event) :
    s.later e = { s with agenda := insertDue (s.cycle + 1 + Config.latency s.fresh) e s.agenda, fresh := s.fresh + 1 } := rfl

theorem fenceGo_busy {s : State} (h : s.fences ≠ []) : s.fenceGo = { s with fences := s.fences ++ [s.nextReq] } := by
  simp [fenceGo, h]

theorem fenceGo_idle {s : State} (h : s.fences = []) :
    s.fenceGo = ({ s with fences := [s.nextReq] } : State).later .hostFenceDone := by
  simp [fenceGo, h]

theorem fenceDone_waits {s : State} {mark : Nat} {rest : List Nat} (h : s.fences = mark :: rest)
    (hq : ∃ r ∈ s.hostQ, r.id < mark) : s.fenceDone = s.later .hostFenceDone := by
  simp [fenceDone, h, hq]

theorem fenceDone_completes {s : State} {mark : Nat} {rest : List Nat} (h : s.fences = mark :: rest)
    (hq : ∀ r ∈ s.hostQ, mark ≤ r.id) :
    s.fenceDone = if rest = [] then { s with seq := s.seq + 1, fences := rest }
      else ({ s with seq := s.seq + 1, fences := rest } : State).later .hostFenceDone := by
  have hnone : ¬∃ r ∈ s.hostQ, r.id < mark := fun ⟨r, hr, hlt⟩ => absurd (hq r hr) (by omega)
  simp [fenceDone, h, hnone]

theorem reportGo_busy {s : State} (h : s.atreqBusy ≠ []) : s.reportGo = { s with atreqBusy := s.atreqBusy ++ [s.atreqAddr] } := by
  simp [reportGo, h]

theorem reportGo_idle {s : State} (h : s.atreqBusy = []) :
    s.reportGo = ({ s with atreqBusy := [s.atreqAddr] } : State).later .attestDone := by
  simp [reportGo, h]

/-- The last report under way, once its bytes are written behind the nonce. -/
theorem reportDone_written {s s2 : State} {addr : Nat} (hbusy : s.atreqBusy = [addr])
    (hthere : (s.full = true ∧ isDevice (addr * 256) = true) ∨ isHostMem (addr * 256) = true)
    (hw : s.hostWriteAll (addr * 256 + 0x20) (s.report (s.bytesAt (addr * 256) 32)) = some s2) :
    s.reportDone = { s2 with atdone := true, atreqBusy := [], reportCount := s2.reportCount + 1, fresh := s2.fresh + 1 } := by
  have hmem : ((isDevice (addr * 256) && !s.absentMemory (addr * 256)) || isHostMem (addr * 256)) = true := by
    obtain ⟨hf, hd⟩ | hh := hthere
    · simp [absentMemory, hf, hd]
    · simp [hh]
  simp [reportDone, hbusy, hmem, hw, tick]

end State

namespace State

/-! ## Translation invalidation (R159, R296) -/

theorem bit_eq_getLsbD {k : Nat} (x : BitVec k) (i : Nat) : bit x i = x.getLsbD i := rfl

@[simp] theorem walkWin_setWalk (s : State) (die : Nat) (w : WalkWin) : (s.setWalk die w).walkWin die = w := by
  simp [walkWin, setWalk]

@[simp] theorem setWalk_setWalk (s : State) (die : Nat) (w w' : WalkWin) :
    (s.setWalk die w).setWalk die w' = s.setWalk die w' := by
  simp [setWalk]

/-- An invalidation starts from the range alone: what else the window held before is replaced. -/
theorem xinvStart_setWalk (s : State) (die : Nat) (w : WalkWin) (q : Inval) (rest : List Inval)
    (hcount : w.count = (s.walkWin die).count) (hfirst : w.first = (s.walkWin die).first) :
    (s.setWalk die w).xinvStart die q rest = s.xinvStart die q rest := by
  simp only [xinvStart, walkWin_setWalk, setWalk_setWalk, hcount, hfirst]
  split
  · rfl
  · simp [setWalk]

theorem xinvRun_setWalk (s : State) (die : Nat) (w : WalkWin) (q : Inval) (rest : List Inval)
    (hcount : w.count = (s.walkWin die).count) (hfirst : w.first = (s.walkWin die).first) :
    (s.setWalk die w).xinvRun die (q :: rest) = s.xinvRun die (q :: rest) := by
  simp only [xinvRun, xinvStart_setWalk s die w q rest hcount hfirst]

theorem xinvWrite_running {s : State} {die : Nat} (v : Word) (h : (s.walkWin die).done = false) :
    s.xinvWrite die v = s.setWalk die { s.walkWin die with
      held := (s.walkWin die).held ++ [⟨v, (s.walkWin die).count, (s.walkWin die).first⟩] } := by
  simp [xinvWrite, h]

theorem xinvWrite_done {s : State} {die : Nat} (v : Word) (h : (s.walkWin die).done = true) :
    s.xinvWrite die v = s.xinvRun die (⟨v, (s.walkWin die).count, (s.walkWin die).first⟩ :: (s.walkWin die).held) := by
  simp [xinvWrite, h]

/-- An invalidation of no page is done at once. -/
theorem xinvRun_empty (s : State) (die : Nat) (v : Word) (first : Nat) :
    s.xinvRun die [⟨v, 0, first⟩] = s.setWalk die { s.walkWin die with
      all := v.getLsbD 16, asid := bits v 0 16, done := true, held := [], mark := s.nextStore, outMark := s.nextReq } := by
  simp [xinvRun, xinvStart, State.bit_eq_getLsbD]

theorem xinvRun_pages (s : State) (die : Nat) {q : Inval} (rest : List Inval) (h : q.count ≠ 0) :
    s.xinvRun die (q :: rest) = s.xinvStart die q rest := by
  simp [xinvRun, h]

section
variable (s : State) (die : Nat) {q : Inval} (rest : List Inval) (h : q.count ≠ 0)
include h

theorem xinvStart_walk : (s.xinvStart die q rest).walk = s.walk.set die { s.walkWin die with
    all := q.value.getLsbD 16, asid := bits q.value 0 16, done := false, held := rest, mark := s.nextStore, outMark := s.nextReq } := by
  have hq : (q.count == 0) = false := by simpa using h
  simp [xinvStart, hq, setWalk, walkWin, State.bit_eq_getLsbD]

theorem xinvStart_agenda : (s.xinvStart die q rest).agenda =
    insertDue (s.cycle + 1 + Config.latency s.fresh) (.xinvDone die) s.agenda := by
  simp [xinvStart, h, setWalk]

theorem xinvStart_mem : (s.xinvStart die q rest).mem = s.mem := by
  simp [xinvStart, h, setWalk]

theorem xinvStart_ctxs : (s.xinvStart die q rest).ctxs = s.ctxs := by
  simp [xinvStart, h, setWalk]

theorem xinvStart_tlb : (s.xinvStart die q rest).tlb = s.tlb.filter fun e =>
    !((q.value.getLsbD 16 || e.asid == bits q.value 0 16 || e.pte.getLsbD 7)
      && e.vpn * 2 ^ 16 / 2 ^ e.size * 2 ^ e.size < (q.first + q.count) * 2 ^ 16
      && q.first * 2 ^ 16 < (e.vpn * 2 ^ 16 / 2 ^ e.size + 1) * 2 ^ e.size) := by
  simp [xinvStart, h, setWalk, pteG, State.bit_eq_getLsbD]

/-- The buffer entries that overlap the range, of the ASID, of every ASID, or global, are gone. -/
theorem mem_xinvStart_tlb (e : TlbEntry) : e ∈ (s.xinvStart die q rest).tlb ↔ e ∈ s.tlb ∧
    ¬((q.value.getLsbD 16 = true ∨ e.asid = bits q.value 0 16 ∨ e.pte.getLsbD 7 = true) ∧
      e.vpn * 2 ^ 16 / 2 ^ e.size * 2 ^ e.size < (q.first + q.count) * 2 ^ 16 ∧
      q.first * 2 ^ 16 < (e.vpn * 2 ^ 16 / 2 ^ e.size + 1) * 2 ^ e.size) := by
  rw [xinvStart_tlb s die rest h, List.mem_filter]
  simp only [Bool.not_eq_true', ← Bool.not_eq_true, Bool.and_eq_true, Bool.or_eq_true, decide_eq_true_eq, beq_iff_eq,
    or_assoc, and_assoc]

theorem xinvStart_tiles : (s.xinvStart die q rest).tiles = s.tiles.map fun x => (x.1, { x.2 with l1 := x.2.l1.filter fun e =>
    !((q.value.getLsbD 16 || e.asid == bits q.value 0 16) && q.first * 2 ^ 16 ≤ e.vline * 64
      && e.vline * 64 < (q.first + q.count) * 2 ^ 16) }) := by
  simp [xinvStart, h, setWalk, AMap.mapVals, State.bit_eq_getLsbD]

/-- No L1 line of the ASIDs in the range is left. -/
theorem xinvStart_l1 : ∀ x ∈ (s.xinvStart die q rest).tiles, ∀ e ∈ x.2.l1, q.value.getLsbD 16 = true ∨ e.asid = bits q.value 0 16 →
    e.vline * 64 < q.first * 2 ^ 16 ∨ (q.first + q.count) * 2 ^ 16 ≤ e.vline * 64 := by
  intro x hx e he hof
  rw [xinvStart_tiles s die rest h] at hx
  obtain ⟨y, -, rfl⟩ := List.mem_map.1 hx
  have hkept := (List.mem_filter.1 he).2
  simp only [Bool.not_eq_true', ← Bool.not_eq_true, Bool.and_eq_true, Bool.or_eq_true, decide_eq_true_eq, beq_iff_eq] at hkept
  have hout : ¬(q.first * 2 ^ 16 ≤ e.vline * 64 ∧ e.vline * 64 < (q.first + q.count) * 2 ^ 16) :=
    fun hin => hkept ⟨⟨hof, hin.1⟩, hin.2⟩
  omega

end

theorem xinvEnds_done {s : State} {die : Nat} (h : (s.walkWin die).done = true) : s.xinvEnds die = s := by
  simp [xinvEnds, h]

theorem xinvEnds_waits {s : State} {die : Nat} (h : (s.walkWin die).done = false)
    (he : (∃ p ∈ s.stores, p.id < (s.walkWin die).mark) ∨ ∃ r ∈ s.remote, r.id < (s.walkWin die).outMark) :
    s.xinvEnds die = s.later (.xinvDone die) := by
  simp [xinvEnds, h, he]

theorem xinvEnds_completes {s : State} {die : Nat} (h : (s.walkWin die).done = false)
    (he : ¬((∃ p ∈ s.stores, p.id < (s.walkWin die).mark) ∨ ∃ r ∈ s.remote, r.id < (s.walkWin die).outMark)) :
    s.xinvEnds die = (s.setWalk die { s.walkWin die with done := true }).xinvRun die (s.walkWin die).held := by
  simp [xinvEnds, h, he]

theorem xinvEnds_last {s : State} {die : Nat} (h : (s.walkWin die).done = false)
    (he : ¬((∃ p ∈ s.stores, p.id < (s.walkWin die).mark) ∨ ∃ r ∈ s.remote, r.id < (s.walkWin die).outMark))
    (hheld : (s.walkWin die).held = []) : s.xinvEnds die = s.setWalk die { s.walkWin die with done := true } := by
  rw [xinvEnds_completes h he, hheld]
  rfl

/-- The first write held back starts as one made when the invalidation is done. -/
theorem xinvEnds_held {s : State} {die : Nat} {v : Word} {rest : List Inval} (h : (s.walkWin die).done = false)
    (he : ¬((∃ p ∈ s.stores, p.id < (s.walkWin die).mark) ∨ ∃ r ∈ s.remote, r.id < (s.walkWin die).outMark))
    (hheld : (s.walkWin die).held = ⟨v, (s.walkWin die).count, (s.walkWin die).first⟩ :: rest) :
    s.xinvEnds die = (s.setWalk die { s.walkWin die with done := true, held := rest }).xinvWrite die v := by
  rw [xinvEnds_completes h he, hheld, xinvRun_setWalk, xinvWrite_done v (by simp), walkWin_setWalk, xinvRun_setWalk] <;> rfl

/-! ## The SRAM split (R152) -/

theorem splitDue_iff (s : State) (t : Nat) : s.splitDue t = true ↔
    (s.tile t).spReq ≠ (s.tile t).spCur ∧ (∀ e ∈ s.blocks, e.2.tile ≠ t) ∧ s.framedOn t = [] := by
  simp [splitDue, and_assoc]

/-! ## Written values (R5, R37) -/

theorem lqCtl_map {s : State} {q : Nat} {v : Word} (hm : (s.queue q).map = false) (hv : v.getLsbD 15 = true) :
    s.lqCtl q v = s.lqMap q := by
  rw [← bit_eq_getLsbD] at hv
  simp [lqCtl, hm, hv]

theorem lqCtl_unmap {s : State} {q : Nat} {v : Word} (hm : (s.queue q).map = true) (hv : v.getLsbD 15 = false) :
    s.lqCtl q v = s.lqUnmap q := by
  rw [← bit_eq_getLsbD] at hv
  simp [lqCtl, hm, hv]

theorem lqCtl_mapped {s : State} {q : Nat} {v : Word} (hm : (s.queue q).map = true) (hv : v.getLsbD 15 = true) :
    s.lqCtl q v = s.onQueue q fun x => { x with en := v.getLsbD 14, prio := bits v 8 5 } := by
  rw [← bit_eq_getLsbD] at hv
  simp only [lqCtl, hm, hv]
  rfl

theorem lqCtl_unmapped {s : State} {q : Nat} {v : Word} (hm : (s.queue q).map = false) (hv : v.getLsbD 15 = false) :
    s.lqCtl q v = s := by
  rw [← bit_eq_getLsbD] at hv
  simp [lqCtl, hm, hv]

theorem clampBudget_eq (n : Nat) : clampBudget n = max 600 (min 2400 n) := by
  unfold clampBudget
  split
  · omega
  · split <;> omega

end State

/-- Settles O53: the fences and reports, the invalidations, the split, and the windows register by register. -/
theorem hostRegisters : Obligations.HostRegisters := by
  refine ⟨fun s => ⟨?goBusy, ?goIdle, ?fenceDone, ?reportBusy, ?reportIdle, ?written⟩,
    fun s die v => ⟨?held, ?empty, ?starts, ?ended, ?early, ?completes⟩, fun s tile => ⟨?split, ?noSplit⟩,
    fun s v => ⟨?devstat, ?asidrt, ?cwbase, ?pctl, ?atreq, ?hfgo, ?hfence, fun d hd => ⟨?xinvc, ?xinvr⟩, fun t ht hr => ?spcfg,
      fun q hq => ⟨?ring, ?map, ?unmap, ?ctl, ?stays, ?head, ?notify, ?save, ?stat⟩⟩⟩
  case goBusy => exact fun h => congrArg _ (State.fenceGo_busy h)
  case goIdle => exact fun h => congrArg _ (State.fenceGo_idle h)
  case fenceDone =>
    refine fun mark rest hf => ⟨fun hq => congrArg _ (State.fenceDone_waits hf hq), fun hq => ⟨fun hr => ?_, fun hr => ?_⟩⟩
    · simp [execHostFenceDone, State.fenceDone_completes hf hq, hr]
    · simp [execHostFenceDone, State.fenceDone_completes hf hq, hr, State.later_eq]
  case reportBusy => exact fun h => congrArg _ (State.reportGo_busy h)
  case reportIdle => exact fun h => congrArg _ (State.reportGo_idle h)
  case written =>
    intro s2 addr hbusy hthere body signed hw hcount
    rw [exec_attestDone, execAttestDone, State.reportDone_written hbusy hthere hw, hcount]
  case held => exact fun h => congrArg _ (State.xinvWrite_running v h)
  case empty =>
    intro hdone hheld hcount
    rw [exec_xinvc, execXinvc, State.xinvWrite_done v hdone, hheld, hcount, State.xinvRun_empty]
    simp [hcount, State.setWalk]
  case starts =>
    intro hdone hcount
    have hc : (⟨v, (s.walkWin die).count, (s.walkWin die).first⟩ : Inval).count ≠ 0 := hcount
    refine ⟨s.xinvStart die ⟨v, (s.walkWin die).count, (s.walkWin die).first⟩ (s.walkWin die).held, ?_,
      State.xinvStart_walk s die _ hc, State.xinvStart_agenda s die _ hc, State.xinvStart_mem s die _ hc,
      State.xinvStart_ctxs s die _ hc, State.mem_xinvStart_tlb s die _ hc, State.xinvStart_l1 s die _ hc⟩
    rw [exec_xinvc, execXinvc, State.xinvWrite_done v hdone, State.xinvRun_pages s die _ hc]
  case ended => exact fun h => congrArg _ (State.xinvEnds_done h)
  case early => exact fun h he => congrArg _ (State.xinvEnds_waits h he)
  case completes =>
    exact fun h he => ⟨fun hheld => congrArg _ (State.xinvEnds_last h he hheld),
      fun rest hheld => congrArg _ (State.xinvEnds_held h he hheld)⟩
  case split => exact fun h => congrArg _ (if_pos ((State.splitDue_iff s tile).2 h))
  case noSplit => exact fun h => congrArg _ (if_neg fun hd => h ((State.splitDue_iff s tile).1 hd))
  case devstat => exact State.exec_registerWrite_aligned s v rfl
  case asidrt => exact State.exec_registerWrite_aligned s v rfl
  case cwbase => exact State.exec_registerWrite_aligned s v rfl
  case pctl =>
    rw [State.exec_registerWrite_aligned s v rfl, ← State.clampBudget_eq]
    rfl
  case atreq =>
    rw [State.exec_registerWrite_aligned s v rfl, ← State.bit_eq_getLsbD]
    cases h : bit v 0 <;> simp [State.regWrite, State.globalWrite, h, execAtreqGo]
  case hfgo =>
    rw [State.exec_registerWrite_aligned s v rfl, ← State.bit_eq_getLsbD]
    cases h : bit v 0 <;> simp [State.regWrite, h, execHfgo]
  case hfence => exact State.exec_registerWrite_aligned s v rfl
  case xinvc =>
    have hw := State.regWrite_walk s v hd (.inl rfl)
    rw [Nat.add_zero] at hw
    rw [State.exec_registerWrite_aligned s v (by omega), hw]
    rfl
  case xinvr =>
    rw [show 0x8008 + 0x1000 * d = 0x8000 + 0x1000 * d + 8 by omega, State.exec_registerWrite_aligned s v (by omega),
      State.regWrite_walk s v hd (.inr rfl)]
    rfl
  case spcfg => rw [State.exec_registerWrite_aligned s v (by omega), State.regWrite_spcfg s v ht hr]; rfl
  case ring =>
    have hw := State.exec_registerWrite_queue s v hq (off := 0) (by decide) rfl
    rwa [Nat.add_zero] at hw
  case map =>
    intro hm hv
    rw [State.exec_registerWrite_queue s v hq (by decide) rfl, exec_lqctlMap, execLqctlMap, hm]
    exact congrArg _ (State.lqCtl_map hm hv)
  case unmap =>
    intro hm hv
    rw [State.exec_registerWrite_queue s v hq (by decide) rfl, exec_lqctlUnmap, execLqctlUnmap, hm]
    exact congrArg _ (State.lqCtl_unmap hm hv)
  case ctl =>
    intro hm hv
    rw [State.exec_registerWrite_queue s v hq (by decide) rfl]
    exact congrArg _ (State.lqCtl_mapped hm hv)
  case stays =>
    intro hm hv
    rw [State.exec_registerWrite_queue s v hq (by decide) rfl]
    exact congrArg _ (State.lqCtl_unmapped hm hv)
  case head => exact State.exec_registerWrite_queue s v hq (by decide) rfl
  case notify => exact State.exec_registerWrite_queue s v hq (by decide) rfl
  case save => exact State.exec_registerWrite_queue s v hq (by decide) rfl
  case stat => exact State.exec_registerWrite_queue s v hq (by decide) rfl

end Sys2Proof.Machine
end

section
/-!
PROOFS. Resets and failures of the hardware (O58): what work on lines leaves alone, the end of a launch by machine check, routes that
fail, poisoned and clean lines.
-/
namespace Sys2Proof.Machine

namespace State

/-- What work on lines, leaves and links does not touch: the launches with their queues, blocks and tasks, what was sent outside, and
the canonical form of memory. -/
structure SameLaunches (s t : State) : Prop where
  cycle : t.cycle = s.cycle := by rfl
  full : t.full = s.full := by rfl
  queues : t.queues = s.queues := by rfl
  launches : t.launches = s.launches := by rfl
  blocks : t.blocks = s.blocks := by rfl
  specs : t.specs = s.specs := by rfl
  stores : t.stores = s.stores := by rfl
  outbox : t.outbox = s.outbox := by rfl
  wf : Memory.wf s.mem = true → Memory.wf t.mem = true := by exact id

namespace SameLaunches

theorem refl (s : State) : SameLaunches s s := ⟨rfl, rfl, rfl, rfl, rfl, rfl, rfl, rfl, id⟩

theorem trans {s t u : State} (h : SameLaunches s t) (k : SameLaunches t u) : SameLaunches s u :=
  ⟨k.cycle.trans h.cycle, k.full.trans h.full, k.queues.trans h.queues, k.launches.trans h.launches, k.blocks.trans h.blocks,
    k.specs.trans h.specs, k.stores.trans h.stores, k.outbox.trans h.outbox, fun w => k.wf (h.wf w)⟩

theorem foldl {α : Type} {f : State → α → State} (hf : ∀ s a, SameLaunches s (f s a)) (as : List α) (s : State) :
    SameLaunches s (as.foldl f s) :=
  List.foldlRecOn as f (refl s) fun t h a _ => h.trans (hf t a)

theorem ite {c : Prop} [Decidable c] {s t u : State} (ht : c → SameLaunches s t) (hu : ¬c → SameLaunches s u) :
    SameLaunches s (if c then t else u) := by
  split
  · exact ht ‹_›
  · exact hu ‹_›

end SameLaunches

theorem sameLaunches_writeAt (s : State) (w : Option Nat) (pa : Nat) (bs : List Byte) : SameLaunches s (s.writeAt w pa bs) :=
  { wf := Cells.wf_writeN bs s.mem pa }

theorem sameLaunches_setL2 (s : State) (die line : Nat) (x : L2St) : SameLaunches s (s.setL2 die line x) := by
  cases x <;> exact {}

theorem sameLaunches_setHome (s : State) (line : Nat) (h : HomeLine) : SameLaunches s (s.setHome line h) := {}

theorem sameLaunches_after (s : State) (d : Nat) (e : Event) : SameLaunches s (s.after d e) := {}

theorem sameLaunches_later (s : State) (e : Event) : SameLaunches s (s.later e) := {}

theorem sameLaunches_l1Drop (s : State) (line : Nat) (on : Nat → Bool) : SameLaunches s (s.l1Drop line on) := {}

theorem sameLaunches_leave (s : State) (die line : Nat) (x : L2St) : SameLaunches s (s.leave die line x) :=
  (sameLaunches_l1Drop s line _).trans (sameLaunches_setL2 _ die line x)

theorem sameLaunches_combine (s : State) (line : Nat) : SameLaunches s (s.combine line) := by
  unfold combine
  split
  · exact .refl s
  · extract_lets n key mine s1 s2 s3 h
    have h1 : SameLaunches s s1 := .foldl (fun s i => sameLaunches_writeAt s _ _ _) _ s
    have h2 : SameLaunches s1 s2 := {}
    have h3 : SameLaunches s2 s3 := .foldl (fun s d => .ite (fun _ => sameLaunches_setL2 s d line .i) fun _ => .refl s) _ s2
    exact ((h1.trans h2).trans h3).trans (.ite (fun _ => sameLaunches_setHome s3 line _) fun _ => .refl s3)

theorem sameLaunches_invalidateOthers (s : State) (line : Nat) (but : Option Nat) : SameLaunches s (s.invalidateOthers line but) :=
  .foldl (fun s d => .ite (fun _ => .refl s) fun _ => sameLaunches_leave s d line .i) _ s

theorem sameLaunches_homeWrite {s t : State} {line : Nat} (h : s.homeWrite line = some t) : SameLaunches s t := by
  unfold homeWrite at h
  split at h
  · cases h
  · rw [← Option.some.inj h]
    exact ((sameLaunches_combine s line).trans (sameLaunches_invalidateOthers _ line none)).trans (sameLaunches_setHome _ line _)

theorem sameLaunches_enterF (s : State) (line : Nat) (but : Option Nat) : SameLaunches s (s.enterF line but) := by
  unfold enterF
  extract_lets lost h near s1 b
  refine .ite (fun _ => .refl s) fun _ => ?_
  have h1 : SameLaunches s s1 := .foldl (fun s d => sameLaunches_leave s d line .i) near s
  exact (h1.trans (sameLaunches_setHome s1 line _)).trans (sameLaunches_after _ _ _)

theorem sameLaunches_deviceAt (s : State) (pa : Nat) : SameLaunches s (s.deviceAt pa) := by
  unfold deviceAt
  refine .ite (fun _ => ?_) fun _ => .refl s
  cases h : s.homeWrite (pa / 64) with
  | none => exact sameLaunches_enterF s (pa / 64) none
  | some t => exact sameLaunches_homeWrite h

theorem sameLaunches_leaveSlot (s : State) (k : Nat) : SameLaunches s (s.leaveSlot k) := {}

theorem sameLaunches_flushStores (s : State) (lq : Nat) (h : s.stores = []) : SameLaunches s (s.flushStores lq) := by
  unfold flushStores
  rw [h]
  exact { stores := by simp [h] }

theorem wf_foldl_writeN {α : Type} (at_ : α → Nat) (bs : α → List Byte) (as : List α) (m : List Host.Cell) (h : Memory.wf m = true) :
    Memory.wf (as.foldl (fun m a => Cells.writeN m (at_ a) (bs a)) m) = true :=
  List.foldlRecOn (motive := fun m => Memory.wf m = true) as _ h fun m hm a _ => Cells.wf_writeN (bs a) m (at_ a) hm

theorem sameLaunches_flushTables (s : State) (l : Launch) : SameLaunches s (s.flushTables l) :=
  .foldl (fun s _ => { wf := wf_foldl_writeN _ _ _ s.mem }) l.blocks s

theorem sameLaunches_failRoutes (s : State) (a b : Nat) : SameLaunches s (s.failRoutes a b) := by
  unfold failRoutes
  refine .ite (fun _ => .refl s) fun _ => .foldl (fun s r => ?_) _ s
  split
  · exact {}
  · exact .refl s

/-- A write of the device's own to memory that is present leaves its bytes there. -/
theorem readN_ownWrite {s : State} {pa : Nat} {bs : List Byte} (hthere : s.absentMemory pa = false) (hwf : Memory.wf s.mem = true) :
    Cells.readN (s.ownWrite pa bs).mem pa bs.length = bs := by
  have heq : s.ownWrite pa bs = (s.deviceAt pa).writeAt none pa bs := by simp [ownWrite, deviceWrite, hthere]
  rw [heq]
  exact Cells.readN_writeN bs _ pa ((sameLaunches_deviceAt s pa).wf hwf)

theorem sameLaunches_ownWrite (s : State) (pa : Nat) (bs : List Byte) : SameLaunches s (s.ownWrite pa bs) :=
  .ite (fun _ => .refl s) fun _ => (sameLaunches_deviceAt s pa).trans (sameLaunches_writeAt _ none pa bs)

/-! ## The end of the only launch (R40, R279, R291) -/

/-- The launch is the only one; no ordered task and no store of it is under way, its queue is mapped, and its status dword stands
in memory that is present and is the only word it reports to. -/
structure OnlyLaunch (s : State) (q : Nat) (l : Launch) : Prop where
  launches : s.launches = [(q, l)]
  specs : s.specs = []
  stores : s.stores = []
  wf : Memory.wf s.mem = true
  there : s.absentMemory l.statusAt = false
  done : l.done = 0
  mapped : (s.queue q).map = true

theorem OnlyLaunch.of_same {s t : State} {q : Nat} {l : Launch} (h : OnlyLaunch s q l) (k : SameLaunches s t) : OnlyLaunch t q l where
  launches := k.launches.trans h.launches
  specs := k.specs.trans h.specs
  stores := k.stores.trans h.stores
  wf := k.wf h.wf
  there := by rw [← h.there, absentMemory, absentMemory, k.full]
  done := h.done
  mapped := by rw [← h.mapped, queue, queue, k.queues]

/-- The launch has ended: what is left of it, its status word, and what was sent outside. -/
structure Ended (q : Nat) (l : Launch) (word : Nat) (sent : List Out) (t : State) : Prop where
  launches : t.launches = []
  run : (t.queue q).run = false
  blocks : ∀ e ∈ t.blocks, e.2.lq ≠ q
  status : Cells.readN t.mem l.statusAt 8 = leBytes 8 word
  outbox : t.outbox = sent

theorem finishLaunch_ended {s : State} {q : Nat} {l : Launch} (h : OnlyLaunch s q l) (state kind code : Nat) :
    Ended q l (s.statusWord state kind code).toNat (s.outbox ++ [.msix q]) (s.finishLaunch q state kind code) := by
  have hget : s.launches.get? q = some l := by simp [h.launches, AMap.get?]
  unfold finishLaunch
  rw [hget]
  dsimp -zeta only
  extract_lets s1 out s2 clusters specs tiles s3 word bad s4 s5 s6 x s7 s8 at_
  have hpre : SameLaunches s s3 :=
    (((sameLaunches_flushStores s q h.stores).trans (sameLaunches_flushTables _ l)).trans
      (.foldl (fun s e => sameLaunches_leaveSlot s e.1) out s1)).trans
      (.foldl (fun s c => .ite (fun _ => sameLaunches_later s _) fun _ => .refl s) clusters s2)
  have hword : word = s.statusWord state kind code := by simp only [word, statusWord, hpre.cycle]
  have h45 : SameLaunches s4 s5 := sameLaunches_ownWrite s4 _ _
  have h56 : s6 = s5 := if_pos (by simp [h.done])
  have hqueue : s6.queue q = s.queue q := by
    rw [h56, queue, queue, h45.queues]
    exact congrArg (fun m : AMap LaunchQ => (m.get? q).getD LaunchQ.reset) hpre.queues
  have hmap : x.map = true := by rw [show x = s.queue q from hqueue, h.mapped]
  rw [if_pos hmap]
  have hmem : s8.mem = s5.mem := show s6.mem = s5.mem by rw [h56]
  have houtbox : s6.outbox = s.outbox := by rw [h56, h45.outbox]; exact hpre.outbox
  have hlaunches : s6.launches = [] := by
    have h4 : s4.launches = s.launches.erase q := congrArg (AMap.erase · q) hpre.launches
    rw [h56, h45.launches, h4, h.launches]
    simp [AMap.erase]
  have hthere : s4.absentMemory l.statusAt = false := by
    rw [← h.there, absentMemory, absentMemory, ← hpre.full]
  refine ⟨hlaunches, ?_, fun e he => ?_, ?_, congrArg (· ++ [Out.msix q]) houtbox⟩
  · have hrun : s8.queue q = { s6.queue q with run := false } := by
      show ((s6.queues.set q _).get? q).getD _ = _
      rw [AMap.get?_set_self]
      rfl
    rw [hrun]
  · have he4 : e ∈ s4.blocks := by rw [← h45.blocks, ← h56]; exact he
    simpa using (List.mem_filter.1 he4).2
  · rw [hmem, ← hword]
    exact readN_ownWrite hthere (hpre.wf h.wf)

theorem statusWord_toNat (s : State) {state kind code : Nat} (hs : state < 16) (hk : kind < 16) (hc : code < 256) :
    (s.statusWord state kind code).toNat = state + kind * 16 + code * 256 + s.cycle / 65536 % 2 ^ 48 * 65536 := by
  rw [statusWord, BitVec.toNat_ofNat, Nat.mod_eq_of_lt (by omega)]

theorem abortAll_nil (s : State) (n : Nat) : abortRun n [] [] s = s := by
  cases n <;> rfl

theorem endLaunch_eq {s : State} (h : s.specs = []) (q kind code : Nat) :
    s.endLaunch q kind code = if kind == 4 || kind == 5 then
      { s.finishLaunch q 4 kind code with outbox := (s.finishLaunch q 4 kind code).outbox ++ [.msix 64] }
    else s.finishLaunch q 4 kind code := by
  simp only [endLaunch, h, AMap.vals, List.map_nil, List.filter_nil, sortBy, abortAll, abortAll_nil]

/-- A machine check that ends the only launch: vector 64 follows the launch's own where the whole package has failed (R297). -/
theorem endLaunch_ended {s : State} {q kind : Nat} {l : Launch} (h : OnlyLaunch s q l) (hkind : kind = 3 ∨ kind = 4 ∨ kind = 5) :
    Ended q l (s.statusWord 4 kind 0x0F).toNat (s.outbox ++ [.msix q] ++ if kind = 3 then [] else [.msix 64])
      (s.endLaunch q kind 0x0F) := by
  obtain ⟨hlaunches, hrun, hblocks, hstatus, houtbox⟩ := finishLaunch_ended h 4 kind 0x0F
  rw [endLaunch_eq h.specs]
  obtain rfl | rfl | rfl := hkind
  · exact ⟨hlaunches, hrun, hblocks, hstatus, by simpa using houtbox⟩
  · exact ⟨hlaunches, hrun, hblocks, hstatus, congrArg (· ++ [Out.msix 64]) houtbox⟩
  · exact ⟨hlaunches, hrun, hblocks, hstatus, congrArg (· ++ [Out.msix 64]) houtbox⟩

/-- The same, where the failure has first changed what no launch depends on. -/
theorem endLaunch_ended_of_same {s t : State} {q kind : Nat} {l : Launch} (h : OnlyLaunch s q l) (k : SameLaunches s t)
    (hkind : kind = 3 ∨ kind = 4 ∨ kind = 5) :
    Ended q l (s.statusWord 4 kind 0x0F).toNat (s.outbox ++ [.msix q] ++ if kind = 3 then [] else [.msix 64])
      (t.endLaunch q kind 0x0F) := by
  have hword : s.statusWord 4 kind 0x0F = t.statusWord 4 kind 0x0F := by rw [statusWord, statusWord, k.cycle]
  rw [hword, ← k.outbox]
  exact endLaunch_ended (h.of_same k) hkind

/-- What the retirement of a tile takes away once the launches on it have ended (R32), and what it leaves. -/
structure WithoutTile (t : Nat) (u v : State) : Prop where
  retired : v.retired = insertNat t u.retired := by rfl
  tiles : v.tiles = u.tiles.erase t := by rfl
  ctxs : v.ctxs = u.ctxs.filter fun e => e.1 / 32 != t := by rfl
  launches : v.launches = u.launches := by rfl
  blocks : v.blocks = u.blocks := by rfl
  queues : v.queues = u.queues := by rfl
  mem : v.mem = u.mem := by rfl
  outbox : v.outbox = u.outbox := by rfl

theorem retireTile_withoutTile {s : State} {t : Nat} (ht : isTile t = true) (hr : t ∉ s.retired) :
    WithoutTile t (s.endLaunches ((s.launches.filter fun e => e.2.tiles.contains t).map (·.1)) 4) (s.retireTile t) := by
  rw [retireTile, if_neg (by simp [ht, hr])]
  exact {}

theorem Ended.of_withoutTile {q word t : Nat} {l : Launch} {sent : List Out} {u v : State} (h : Ended q l word sent u)
    (k : WithoutTile t u v) : Ended q l word sent v where
  launches := k.launches.trans h.launches
  run := by rw [← h.run, queue, queue, k.queues]
  blocks := by rw [k.blocks]; exact h.blocks
  status := by rw [k.mem]; exact h.status
  outbox := k.outbox.trans h.outbox

theorem entryOwner_slot {s : State} {t slot : Nat} (hs : slot ≤ 16) (hf : (s.ctx (ctxKey t slot)).status ≠ .free)
    (hrest : restingSys (s.ctx (ctxKey t slot)) = false) : s.entryOwner t slot = some (s.ctx (ctxKey t slot)).task.lq := by
  simp [entryOwner, hs, hf, hrest]

theorem entryOwner_kept {s : State} {t entry : Nat} {e : Nat × Nat} (h : (s.tile t).tcs[entry]? = some e) :
    s.entryOwner t (17 + entry) = some e.2 := by
  have hbig : ¬17 + entry ≤ 16 := by omega
  simp [entryOwner, hbig, h]

theorem entryOwner_none {s : State} {t slot : Nat}
    (h : (slot ≤ 16 ∧ (s.ctx (ctxKey t slot)).status ∈ [.free, .waiting .idle, .waiting .serving]) ∨ 17 + (s.tile t).tcs.length ≤ slot) :
    s.entryOwner t slot = none := by
  obtain ⟨hs, hst⟩ | hlen := h
  · simp only [List.mem_cons, List.not_mem_nil, or_false] at hst
    obtain hst | hst | hst := hst <;> simp [entryOwner, restingSys, hs, hst]
  · have hbig : ¬slot ≤ 16 := by omega
    have hout : (s.tile t).tcs[slot - 17]? = none := List.getElem?_eq_none (by omega)
    simp [entryOwner, hbig, hout]

/-! ## Failed routes (R11) -/

theorem mem_insertPair_self (x : Nat × Nat) (xs : List (Nat × Nat)) : x ∈ insertPair x xs := by
  unfold insertPair
  split
  case isTrue h => exact List.contains_iff_mem.1 h
  case isFalse => exact List.mem_cons_self

theorem mem_insertPair_of_mem {x y : Nat × Nat} {xs : List (Nat × Nat)} (h : y ∈ xs) : y ∈ insertPair x xs := by
  unfold insertPair
  split
  · exact h
  · exact List.mem_cons_of_mem x h

theorem mem_failLink_self (s : State) {x : Nat × Nat} (h : x.1 ≤ x.2) : x ∈ (s.failLink x.1 x.2).linksDown := by
  have hx : (min x.1 x.2, max x.1 x.2) = x := by rw [Nat.min_eq_left h, Nat.max_eq_right h]
  rw [failLink, hx]
  exact mem_insertPair_self x s.linksDown

/-- Two different base dies have routes of at least one bridge, each bridge named by its lower die first. -/
theorem routes_bridges : ∀ a < 4, ∀ b < 4, a ≠ b → ∀ r ∈ routes a b 0, r ≠ [] ∧ ∀ x ∈ r, x.1 ≤ x.2 := by decide

theorem cutOff_failRoutes (s : State) {a b : Nat} (ha : a < 4) (hb : b < 4) (hab : a ≠ b) : (s.failRoutes a b).cutOff = true := by
  have hdown : ∀ r ∈ routes a b 0, ∃ x ∈ r, x ∈ (s.failRoutes a b).linksDown := by
    unfold failRoutes
    rw [if_neg (by simpa using hab)]
    refine foldl_reaches (P := fun (r : List (Nat × Nat)) (s : State) => ∃ x ∈ r, x ∈ s.linksDown) (fun s r hr => ?hit) (fun s r q hx => ?keep) s
    case hit =>
      obtain ⟨hne, hle⟩ := routes_bridges a ha b hb hab r hr
      have hlt : s.choose r.length < r.length := Nat.mod_lt _ (List.length_pos_iff.2 hne)
      have hmem := List.getElem_mem hlt
      refine ⟨_, hmem, ?_⟩
      rw [List.getElem?_eq_getElem hlt]
      exact mem_failLink_self s.tick (hle _ hmem)
    case keep =>
      obtain ⟨x, hx, hdown⟩ := hx
      refine ⟨x, hx, ?_⟩
      split
      · exact mem_insertPair_of_mem hdown
      · exact hdown
  refine List.any_eq_true.2 ⟨a, List.mem_range.2 ha, List.any_eq_true.2 ⟨b, List.mem_range.2 hb, List.all_eq_true.2 fun r hr => ?_⟩⟩
  obtain ⟨x, hx, hd⟩ := hdown r hr
  have hany : r.any (s.failRoutes a b).linksDown.contains = true :=
    List.any_eq_true.2 ⟨x, hx, List.contains_iff_mem.2 hd⟩
  rw [routeUp, hany]
  rfl

/-! ## Poisoned lines (R154, R173) and clean ones (R290) -/

theorem poisonLine_eq (s : State) (line : Nat) : s.poisonLine line = { s with
    poison := insertNat line s.poison
    tiles := s.tiles.map fun e => (e.1, { e.2 with l1 := e.2.l1.filter fun c => c.pline != line }) } := by
  simp [poisonLine, l1Drop, AMap.mapVals]

/-- A clean line leaves a die's L2 silently. -/
theorem evictLine_clean {s : State} {die line : Nat} (h : s.l2St die line = .s ∨ s.l2St die line = .e) :
    (s.evictLine die line).l2 = s.l2.erase (l2Key die line) ∧ (s.evictLine die line).poison = s.poison ∧
      (s.evictLine die line).mem = s.mem := by
  unfold evictLine
  extract_lets s1 s2
  have hst : s2.l2St die line = s.l2St die line := rfl
  obtain h | h := h <;> rw [hst, h] <;> exact ⟨rfl, rfl, rfl⟩

theorem l2Error_dirty {s : State} {die line : Nat} (h : s.l2St die line ∈ [L2St.m, .o, .mi, .p] ∨
    s.l2St die line = .sm ∧ (s.homeLine line).owner = die ∧ (s.homeLine line).st = .o) : s.l2Error die line = s.poisonLine line := by
  simp only [List.mem_cons, List.not_mem_nil, or_false] at h
  obtain hdirty | ⟨h, howner, hst⟩ := h
  · obtain h | h | h | h := hdirty <;> simp [l2Error, h]
  · simp [l2Error, h, howner, hst]

theorem l2Error_clean {s : State} {die line : Nat} (h : s.l2St die line = .s ∨ s.l2St die line = .e) :
    s.l2Error die line = s.evictLine die line := by
  obtain h | h := h <;> simp [l2Error, h]

theorem l2Error_absent {s : State} {die line : Nat} (h : s.l2St die line ∈ [L2St.i, .is_, .im] ∨
    s.l2St die line = .sm ∧ ¬((s.homeLine line).owner = die ∧ (s.homeLine line).st = .o)) : s.l2Error die line = s := by
  simp only [List.mem_cons, List.not_mem_nil, or_false] at h
  obtain habsent | ⟨h, hno⟩ := h
  · obtain h | h | h := habsent <;> simp [l2Error, h]
  · simp [l2Error, h, hno]

end State

/-- The failures that end a launch, each with the kind of its machine check (R290). -/
theorem machineCheck_ends {s : State} {q kind : Nat} {l : Launch} {i : Instr} (h : State.OnlyLaunch s q l)
    (hi : (∃ t, i = .tileRetire t ∧ kind = 4 ∧ isTile t = true ∧ t ∉ s.retired ∧ t ∈ l.tiles) ∨
      (∃ a b, i = .bridgeFailure a b ∧ kind = 5) ∨
      (∃ a b, i = .dieLinkFailure a b ∧ kind = 5 ∧ s.cutOff = false ∧ (s.failLink a b).cutOff = true) ∨
      (∃ tile entry e, i = .tcsUncorrectable tile (17 + entry) ∧ kind = 3 ∧ (s.tile tile).tcs[entry]? = some e ∧ e.2 = q) ∨
      (∃ tile slot, i = .tcsUncorrectable tile slot ∧ kind = 3 ∧ slot ≤ 16 ∧ (s.ctx (ctxKey tile slot)).status ≠ .free ∧
        State.restingSys (s.ctx (ctxKey tile slot)) = false ∧ (s.ctx (ctxKey tile slot)).task.lq = q)) :
    ∃ t : State, exec i s = .next t ∧ State.Ended q l (s.statusWord 4 kind 0x0F).toNat
      (s.outbox ++ [.msix q] ++ if kind = 3 then [] else [.msix 64]) t := by
  obtain ⟨tile, rfl, rfl, ht, hr, hl⟩ | ⟨a, b, rfl, rfl⟩ | ⟨a, b, rfl, rfl, hup, hcut⟩ | ⟨tile, entry, e, rfl, rfl, he, rfl⟩ |
    ⟨tile, slot, rfl, rfl, hs, hf, hrest, rfl⟩ := hi
  · have hmine : (s.launches.filter fun e => e.2.tiles.contains tile).map (·.1) = [q] := by simp [h.launches, hl]
    have hgone := State.retireTile_withoutTile ht hr
    rw [hmine] at hgone
    exact ⟨_, rfl, (State.endLaunch_ended h (.inr (.inl rfl))).of_withoutTile hgone⟩
  · refine ⟨_, rfl, ?_⟩
    have hkeys : AMap.keys s.launches = [q] := by simp [h.launches, AMap.keys]
    rw [hkeys]
    exact State.endLaunch_ended_of_same h (State.sameLaunches_failRoutes s a b) (.inr (.inr rfl))
  · refine ⟨_, rfl, ?_⟩
    have hkeys : AMap.keys s.launches = [q] := by simp [h.launches, AMap.keys]
    have hcuts : ((s.failLink a b).cutOff && !s.cutOff) = true := by simp [hup, hcut]
    rw [if_pos hcuts, hkeys]
    exact State.endLaunch_ended_of_same h {} (.inr (.inr rfl))
  · refine ⟨_, rfl, ?_⟩
    rw [State.entryOwner_kept he]
    exact State.endLaunch_ended h (.inl rfl)
  · refine ⟨_, rfl, ?_⟩
    rw [State.entryOwner_slot hs hf hrest]
    exact State.endLaunch_ended h (.inl rfl)

/-- Settles O58: the resets by their definitions, each failure by what it does to launches, tiles, routes and lines. -/
theorem resetsAndFailures : Obligations.ResetsAndFailures := by
  refine ⟨fun s => ⟨rfl, rfl, ?starts, ?stays⟩, ?ends, ?retires, ?retired, ?routes, ?noOwner, ?lines, ?tiles⟩
  case starts =>
    intro hfw hl
    simp [execFullServiceStart, State.fullService, hfw, hl]
  case stays =>
    intro h
    have hoff : (s.fwRun && s.launches.isEmpty) = false := by
      obtain h | h := h <;> simp [h]
    simp [execFullServiceStart, State.fullService, hoff]
  case ends =>
    intro s q kind l i hl hlq hspecs hstores hwf hthere hdone hmap hi
    obtain ⟨t, hexec, hend⟩ := machineCheck_ends ⟨hl, hspecs, hstores, hwf, hthere, hdone, hmap⟩ hi
    have hkind : kind < 16 := by
      obtain ⟨_, _, rfl, _⟩ | ⟨_, _, _, rfl⟩ | ⟨_, _, _, rfl, _⟩ | ⟨_, _, _, _, rfl, _⟩ | ⟨_, _, _, rfl, _⟩ := hi <;> decide
    refine ⟨t, hexec, hend.launches, hend.run, hend.blocks, ?_, hend.outbox⟩
    rw [hend.status, leNat_leBytes, State.statusWord_toNat s (by decide) hkind (by decide), Nat.mod_eq_of_lt (by omega)]
  case retires =>
    intro s tile ht hr hfree hsorted
    have hnone : s.launches.filter (fun e => e.2.tiles.contains tile) = [] :=
      List.filter_eq_nil_iff.2 fun e he => by simpa using hfree e he
    have hgone := State.retireTile_withoutTile ht hr
    rw [hnone] at hgone
    refine ⟨_, rfl, hgone.retired, ?_, ?_, fun j hj => ?_, fun e he => ?_, hgone.launches, hgone.mem⟩
    · have hmem : tile ∈ (s.retireTile tile).retired := by rw [hgone.retired]; exact mem_insertNat_self tile _
      simp [State.live, hmem]
    · rw [hgone.tiles]
      exact AMap.get?_erase_self tile hsorted
    · rw [hgone.tiles]
      exact AMap.get?_erase_ne _ hj
    · rw [hgone.ctxs] at he
      simpa using (List.mem_filter.1 he).2
  case retired =>
    intro s tile h
    have hno : (!isTile tile || s.retired.contains tile) = true := by
      obtain h | h := h <;> simp [h]
    rw [exec_tileRetire, execTileRetire, State.retireTile, if_pos hno]
  case routes =>
    refine fun s a b ha hb hab => ⟨State.cutOff_failRoutes s ha hb hab, fun hl => ?_⟩
    rw [exec_bridgeFailure, execBridgeFailure, hl]
    rfl
  case noOwner =>
    intro s tile slot h
    rw [exec_tcsUncorrectable, execTcsUncorrectable, State.entryOwner_none h]
  case lines =>
    intro s die line _ hsorted x dropped poisoned
    have hpoison : s.poisonLine line = poisoned := State.poisonLine_eq s line
    refine ⟨congrArg Host.Outcome.next hpoison, fun h => congrArg _ ((State.l2Error_dirty h).trans hpoison), fun h => ?_,
      fun h => congrArg _ (State.l2Error_absent h)⟩
    have hclean : s.l2St die line = .s ∨ s.l2St die line = .e := by simpa using h
    obtain ⟨hl2, hpoisoned, hmem⟩ := State.evictLine_clean hclean
    refine ⟨s.evictLine die line, congrArg _ (State.l2Error_clean hclean), ?_, hpoisoned, hmem, fun j hj => ?_⟩
    · rw [State.l2St, hl2, AMap.get?_erase_self _ hsorted]
      rfl
    · have hkey : State.l2Key die j ≠ State.l2Key die line := by simp only [State.l2Key]; omega
      rw [State.l2St, hl2, AMap.get?_erase_ne _ hkey]
      rfl
  case tiles =>
    refine fun s tile asid vline frame => ⟨rfl, fun h => ?_, fun h => ?_⟩
    · have hany : ((s.framedOn tile).any fun e => e.2.2.frame == frame) = false :=
        List.any_eq_false.2 fun e he => by simpa using h e he
      simp [execFrameUncorrectable, hany]
    · obtain ⟨e, he, hf⟩ := h
      have hany : ((s.framedOn tile).any fun e => e.2.2.frame == frame) = true :=
        List.any_eq_true.2 ⟨e, he, by simpa using hf⟩
      simp [execFrameUncorrectable, hany]

end Sys2Proof.Machine
end

section
/-!
PROOFS. Decoding and encoding agree (O40, O41). A word is the packing of its fields (R90), so each map is read off a packed word:
where a map names an instruction, the checks on the way have made the fields those that `encode` packs (R93, R94).
-/
namespace Sys2Proof

/-! ## What a result of decoding names -/

/-- Every instruction that a result of decoding names is well-formed and has this word as its encoding. -/
def NamesWord (x : BitVec 32) (r : Except Reject Instr) : Prop := ∀ i, r = .ok i → i.wellFormed = true ∧ encode i = some x

@[simp] theorem namesWord_ok (x : BitVec 32) (i : Instr) : NamesWord x (.ok i) ↔ i.wellFormed = true ∧ encode i = some x := by
  simp [NamesWord]

@[simp] theorem namesWord_error (x : BitVec 32) (why : Reject) : NamesWord x (.error why) := by
  simp [NamesWord]

@[simp] theorem namesWord_need (x : BitVec 32) (c : Bool) (why : Reject) (r : Except Reject Instr) :
    NamesWord x (need c why r) ↔ (c = true → NamesWord x r) := by
  cases c <;> simp [need]

/-- A scope field is legal when it holds the code of a scope. -/
theorem scopeOfBits_eq_some (b : BitVec 3) (scope : Scope) : Scope.ofBits b = some scope ↔ b = scope.bits := by
  revert b; cases scope <;> decide

@[simp] theorem namesWord_withScope (x : BitVec 32) (k : Scope → Except Reject Instr) :
    NamesWord x (withScope x k) ↔ ∀ scope : Scope, fScopeBits x = scope.bits → NamesWord x (k scope) := by
  simp only [withScope, ← scopeOfBits_eq_some]
  split
  case h_1 scope hs => simp [hs]
  case h_2 hn => simp [hn]

/-! ## Words and their fields (R90) -/

theorem packR_fields (x : BitVec 32) : packR (fOp x) (fD x) (fA x) (fB x) (fFn x) (fSc x) = x := by
  show (x.extractLsb' 26 6 ++ x.extractLsb' 20 6 ++ x.extractLsb' 14 6 ++ x.extractLsb' 8 6 ++ x.extractLsb' 2 6
    ++ x.extractLsb' 0 2 : BitVec (6 + 6 + 6 + 6 + 6 + 2)) = x
  simp only [BitVec.extractLsb'_append_extractLsb'_eq_extractLsb', BitVec.extractLsb'_eq_self]

theorem packI_fields (x : BitVec 32) : packI (fOp x) (fD x) (fA x) (fImm12 x) (fSc x) = x := by
  show (x.extractLsb' 26 6 ++ x.extractLsb' 20 6 ++ x.extractLsb' 14 6 ++ x.extractLsb' 2 12
    ++ x.extractLsb' 0 2 : BitVec (6 + 6 + 6 + 12 + 2)) = x
  simp only [BitVec.extractLsb'_append_extractLsb'_eq_extractLsb', BitVec.extractLsb'_eq_self]

theorem packL_fields (x : BitVec 32) : packL (fOp x) (fD x) (fImm18 x) (fSc x) = x := by
  show (x.extractLsb' 26 6 ++ x.extractLsb' 20 6 ++ x.extractLsb' 2 18 ++ x.extractLsb' 0 2 : BitVec (6 + 6 + 18 + 2)) = x
  simp only [BitVec.extractLsb'_append_extractLsb'_eq_extractLsb', BitVec.extractLsb'_eq_self]

theorem packJ_fields (x : BitVec 32) : packJ (fOp x) (fOff24 x) (fSc x) = x := by
  show (x.extractLsb' 26 6 ++ x.extractLsb' 2 24 ++ x.extractLsb' 0 2 : BitVec (6 + 24 + 2)) = x
  simp only [BitVec.extractLsb'_append_extractLsb'_eq_extractLsb', BitVec.extractLsb'_eq_self]

theorem packM_fields (x : BitVec 32) : packM (fOp x) (fD x) (fA x) (fB x) (fScopeBits x) (fOrder x) (fSc x) = x := by
  show (x.extractLsb' 26 6 ++ x.extractLsb' 20 6 ++ x.extractLsb' 14 6 ++ x.extractLsb' 8 6 ++ x.extractLsb' 5 3
    ++ x.extractLsb' 2 3 ++ x.extractLsb' 0 2 : BitVec (6 + 6 + 6 + 6 + 3 + 3 + 2)) = x
  simp only [BitVec.extractLsb'_append_extractLsb'_eq_extractLsb', BitVec.extractLsb'_eq_self]

theorem packV_fields (x : BitVec 32) : packV (fOp x) (fVd x) (fVa x) (fVb x) (fVc x) (fM x) (fVfn x) (fSc x) = x := by
  show (x.extractLsb' 26 6 ++ x.extractLsb' 22 4 ++ x.extractLsb' 18 4 ++ x.extractLsb' 14 4 ++ x.extractLsb' 10 4
    ++ x.extractLsb' 7 3 ++ x.extractLsb' 2 5 ++ x.extractLsb' 0 2 : BitVec (6 + 4 + 4 + 4 + 4 + 3 + 5 + 2)) = x
  simp only [BitVec.extractLsb'_append_extractLsb'_eq_extractLsb', BitVec.extractLsb'_eq_self]

theorem packC_fields (x : BitVec 32) : packC (fOp x) (fE x) (fCmd x) (fCa x) (fCb x) (fEng x) (fSc x) = x := by
  show (x.extractLsb' 26 6 ++ x.extractLsb' 23 3 ++ x.extractLsb' 18 5 ++ x.extractLsb' 12 6 ++ x.extractLsb' 6 6
    ++ x.extractLsb' 2 4 ++ x.extractLsb' 0 2 : BitVec (6 + 3 + 5 + 6 + 6 + 4 + 2)) = x
  simp only [BitVec.extractLsb'_append_extractLsb'_eq_extractLsb', BitVec.extractLsb'_eq_self]

theorem packS_fields (x : BitVec 32) : packS (fOp x) (fD x) (fA x) (fCsrOp x) (fCsr x) (fSc x) = x := by
  show (x.extractLsb' 26 6 ++ x.extractLsb' 20 6 ++ x.extractLsb' 14 6 ++ x.extractLsb' 12 2 ++ x.extractLsb' 2 10
    ++ x.extractLsb' 0 2 : BitVec (6 + 6 + 6 + 2 + 10 + 2)) = x
  simp only [BitVec.extractLsb'_append_extractLsb'_eq_extractLsb', BitVec.extractLsb'_eq_self]

/-! ## Words of a major opcode -/

theorem opcode_of_toNat {x : BitVec 32} {n : Nat} (h : (fOp x).toNat = n) : fOp x = BitVec.ofNat 6 n := by
  rw [← h, BitVec.ofNat_toNat, BitVec.setWidth_eq]

theorem exists_packR {op : BitVec 6} {x : BitVec 32} (h : fOp x = op) : ∃ d a b fn sc, x = packR op d a b fn sc :=
  ⟨_, _, _, _, _, h ▸ (packR_fields x).symm⟩

theorem exists_packL {op : BitVec 6} {x : BitVec 32} (h : fOp x = op) : ∃ d imm sc, x = packL op d imm sc :=
  ⟨_, _, _, h ▸ (packL_fields x).symm⟩

theorem exists_packM {op : BitVec 6} {x : BitVec 32} (h : fOp x = op) : ∃ d a b scope order sc, x = packM op d a b scope order sc :=
  ⟨_, _, _, _, _, _, h ▸ (packM_fields x).symm⟩

theorem exists_packV {op : BitVec 6} {x : BitVec 32} (h : fOp x = op) : ∃ vd va vb vc m fn sc, x = packV op vd va vb vc m fn sc :=
  ⟨_, _, _, _, _, _, _, h ▸ (packV_fields x).symm⟩

theorem exists_packC {op : BitVec 6} {x : BitVec 32} (h : fOp x = op) : ∃ e cmd a b eng sc, x = packC op e cmd a b eng sc :=
  ⟨_, _, _, _, _, _, h ▸ (packC_fields x).symm⟩

theorem exists_packS {op : BitVec 6} {x : BitVec 32} (h : fOp x = op) : ∃ d a csrOp csr sc, x = packS op d a csrOp csr sc :=
  ⟨_, _, _, _, _, h ▸ (packS_fields x).symm⟩

/-- A field, as the number that the maps match on. -/
theorem exists_ofNat {k : Nat} (v : BitVec k) : ∃ n < 2 ^ k, v = BitVec.ofNat k n := ⟨v.toNat, v.isLt, by simp⟩

theorem namesWord_packI {x : BitVec 32} {op : BitVec 6} {i : Instr} (h : fOp x = op) (hw : i.wellFormed = true)
    (he : encode i = some (packI op (fD x) (fA x) (fImm12 x) (fSc x))) : NamesWord x (.ok i) :=
  (namesWord_ok x i).2 ⟨hw, by rw [he, ← h, packI_fields]⟩

theorem namesWord_packL {x : BitVec 32} {op : BitVec 6} {i : Instr} (h : fOp x = op) (hw : i.wellFormed = true)
    (he : encode i = some (packL op (fD x) (fImm18 x) (fSc x))) : NamesWord x (.ok i) :=
  (namesWord_ok x i).2 ⟨hw, by rw [he, ← h, packL_fields]⟩

theorem namesWord_packJ {x : BitVec 32} {op : BitVec 6} {i : Instr} (h : fOp x = op) (hw : i.wellFormed = true)
    (he : encode i = some (packJ op (fOff24 x) (fSc x))) : NamesWord x (.ok i) :=
  (namesWord_ok x i).2 ⟨hw, by rw [he, ← h, packJ_fields]⟩

/-! ## Fields within fields: what is left of a field whose reserved bits are zero -/

theorem setWidth_low2 (v : BitVec 3) : v.extractLsb' 2 1 = 0 → (v.extractLsb' 0 2).setWidth 3 = v := by revert v; decide
theorem setWidth_low3 (v : BitVec 4) : v.extractLsb' 3 1 = 0 → (v.extractLsb' 0 3).setWidth 4 = v := by revert v; decide
theorem setWidth_low16 (v : BitVec 18) (h : v.extractLsb' 16 2 = 0#2) : (v.extractLsb' 0 16).setWidth 18 = v := by
  have hn := congrArg BitVec.toNat h
  simp only [BitVec.extractLsb'_toNat, Nat.shiftRight_eq_div_pow, BitVec.toNat_ofNat] at hn
  apply BitVec.eq_of_toNat_eq
  simp only [BitVec.toNat_setWidth, BitVec.extractLsb'_toNat, Nat.shiftRight_zero]
  omega

theorem setWidth_of_vecNum (v : Reg) : vecNum v = true → (v.setWidth 4).setWidth 6 = v := by revert v; decide
theorem append_low2 (v : BitVec 4) : v.extractLsb' 2 2 = 2 → 2#2 ++ v.extractLsb' 0 2 = v := by revert v; decide
theorem append_fn (fn : BitVec 6) : fn.extractLsb' 3 3 ++ fn.extractLsb' 0 3 = fn := by revert fn; decide
theorem append_vfn (fn : BitVec 5) : fn.extractLsb' 4 1 = 0 → 0#1 ++ fn.extractLsb' 1 3 ++ BitVec.ofBool fn[0] = fn := by
  revert fn; decide
theorem bits_ofBits (v : BitVec 4) : v.extractLsb' 2 2 = 0 → (ISize.ofBits (v.extractLsb' 0 2)).bits = v := by revert v; decide
theorem wsHi_append (vb vc : BitVec 4) : vb.extractLsb' 2 2 = 0 → wsHi (vb.extractLsb' 0 2 ++ vc) = vb := by revert vb vc; decide
theorem wsLo_append (hi : BitVec 2) (vc : BitVec 4) : wsLo (hi ++ vc) = vc := by revert hi vc; decide

theorem fWs_packV_append (op : BitVec 6) (vd va vb vc : BitVec 4) (m : BitVec 3) (fn : BitVec 5) (sc : BitVec 2)
    (h : vb.extractLsb' 2 2 = 0) : fWs (packV op vd va vb vc m fn sc) = vb.extractLsb' 0 2 ++ vc := by
  have hws := fWs_packV op vd va (vb.extractLsb' 0 2 ++ vc) m fn sc
  rwa [wsHi_append vb vc h, wsLo_append] at hws

theorem bits_fSrc (op : BitVec 6) (e : BitVec 3) (cmd : BitVec 5) (a b : BitVec 6) (eng : BitVec 4) (sc : BitVec 2)
    (h : srcLegal (packC op e cmd a b eng sc) = true) : (fSrc (packC op e cmd a b eng sc)).bits = eng := by
  simp only [srcLegal, fSrc, fEngHi_packC, fEngH_packC, fSet_packC, fH_packC] at h ⊢
  revert h; revert eng; decide

theorem publishes_of_bits (scope : Scope) : publishScope scope.bits = scope.publishes := by cases scope <;> rfl

/-! ## The maps, major by major -/

theorem namesWord_decodeInt {x : BitVec 32} (h : fOp x = 1) : NamesWord x (decodeInt x) := by
  obtain ⟨d, a, b, fn, sc, rfl⟩ := exists_packR h
  obtain ⟨n, hn, rfl⟩ := exists_ofNat fn
  simp only [decodeInt, fFn_packR, fD_packR, fA_packR, fB_packR, fSc_packR, BitVec.toNat_ofNat, Nat.mod_eq_of_lt hn]
  split <;> simp +contextual [Instr.wellFormed, encode]

theorem namesWord_decodeMem {z : MSize} {x : BitVec 32} (h : fOp x = 16 + z.code) : NamesWord x (decodeMem z x) := by
  obtain ⟨d, a, b, scope, order, sc, rfl⟩ := exists_packM h
  obtain ⟨n, hn, rfl⟩ := exists_ofNat order
  simp only [decodeMem, fOrder_packM, fScopeBits_packM, fD_packM, fA_packM, fB_packM, fSc_packM,
    BitVec.toNat_ofNat, Nat.mod_eq_of_lt hn]
  split <;> simp +contextual [Instr.wellFormed, encode, pairOk, fScopeBits_packM]

theorem namesWord_decodeAtomic {z : ASize} {x : BitVec 32} (h : fOp x = 24 + z.code) : NamesWord x (decodeAtomic z x) := by
  obtain ⟨d, a, b, scope, order, sc, rfl⟩ := exists_packM h
  obtain ⟨n, hn, rfl⟩ := exists_ofNat order
  simp only [decodeAtomic, fOrder_packM, fD_packM, fA_packM, fB_packM, fSc_packM, BitVec.toNat_ofNat, Nat.mod_eq_of_lt hn]
  split <;> simp +contextual [Instr.wellFormed, encode, fScopeBits_packM]

theorem namesWord_decodeTask {x : BitVec 32} (h : fOp x = 37) : NamesWord x (decodeTask x) := by
  obtain ⟨d, a, b, fn, sc, rfl⟩ := exists_packR h
  obtain ⟨n, hn, rfl⟩ := exists_ofNat fn
  simp only [decodeTask, fFn_packR, fD_packR, fA_packR, fB_packR, fSc_packR, BitVec.toNat_ofNat, Nat.mod_eq_of_lt hn]
  split <;> simp +contextual [Instr.wellFormed, encode]

theorem namesWord_decodePool {x : BitVec 32} (h : fOp x = 38) : NamesWord x (decodePool x) := by
  obtain ⟨d, a, b, fn, sc, rfl⟩ := exists_packR h
  obtain ⟨n, hn, rfl⟩ := exists_ofNat fn
  simp only [decodePool, fFn_packR, fD_packR, fA_packR, fB_packR, fSc_packR, BitVec.toNat_ofNat, Nat.mod_eq_of_lt hn]
  split <;> simp +contextual [Instr.wellFormed, encode]

theorem namesWord_decodeFp {f : FSize} {x : BitVec 32} (h : fOp x = 40 + f.code) : NamesWord x (decodeFp f x) := by
  obtain ⟨d, a, b, fn, sc, rfl⟩ := exists_packR h
  obtain ⟨n, hn, rfl⟩ := exists_ofNat fn
  simp only [decodeFp, fFn_packR, fD_packR, fA_packR, fB_packR, fSc_packR, BitVec.toNat_ofNat, Nat.mod_eq_of_lt hn]
  split <;> simp +contextual [Instr.wellFormed, encode]

theorem namesWord_decodeWide {x : BitVec 32} (h : fOp x = 43) : NamesWord x (decodeWide x) := by
  obtain ⟨d, a, b, fn, sc, rfl⟩ := exists_packR h
  obtain ⟨n, hn, rfl⟩ := exists_ofNat fn
  simp only [decodeWide, fFn_packR, fD_packR, fA_packR, fB_packR, fSc_packR, BitVec.toNat_ofNat, Nat.mod_eq_of_lt hn]
  split <;> simp +contextual [-BitVec.setWidth_setWidth_of_le, Instr.wellFormed, encode, setWidth_of_vecNum]

theorem namesWord_decodeMapA {f : VFmt} {x : BitVec 32} (h : fOp x = 48 + f.code) : NamesWord x (decodeMapA f x) := by
  obtain ⟨vd, va, vb, vc, m, fn, sc, rfl⟩ := exists_packV h
  obtain ⟨n, hn, rfl⟩ := exists_ofNat fn
  simp only [decodeMapA, fVfn_packV, fVd_packV, fVa_packV, fVb_packV, fVc_packV, fM_packV, fVd3_packV, fMd_packV, fSc_packV,
    BitVec.toNat_ofNat, Nat.mod_eq_of_lt hn]
  split <;> simp +contextual [Instr.wellFormed, encode, setWidth_low3]

theorem namesWord_decodeMapB {x : BitVec 32} (h : fOp x = 52) : NamesWord x (decodeMapB x) := by
  obtain ⟨vd, va, vb, vc, m, fn, sc, rfl⟩ := exists_packV h
  obtain ⟨n, hn, rfl⟩ := exists_ofNat fn
  simp only [decodeMapB, fVfn_packV, fVd_packV, fVa_packV, fVb_packV, fVcHi_packV, isz_packV, fM_packV, fVd3_packV, fMd_packV, fSc_packV,
    BitVec.toNat_ofNat, Nat.mod_eq_of_lt hn]
  split <;> simp +contextual [Instr.wellFormed, encode, setWidth_low3, bits_ofBits]

theorem namesWord_decodeMapC {x : BitVec 32} (h : fOp x = 54) : NamesWord x (decodeMapC x) := by
  obtain ⟨vd, va, vb, vc, m, fn, sc, rfl⟩ := exists_packV h
  obtain ⟨n, hn, rfl⟩ := exists_ofNat fn
  simp only [decodeMapC, fVfn_packV, fVd_packV, fVa_packV, fVb_packV, fVc_packV, fVbHi_packV, fM_packV,
    fVd3_packV, fVa3_packV, fVb3_packV, fMd_packV, fMa_packV, fMb_packV, fSc_packV, BitVec.toNat_ofNat, Nat.mod_eq_of_lt hn]
  split <;> simp +contextual [Instr.wellFormed, encode, setWidth_low3, fWs_packV_append, wsHi_append, wsLo_append, kd8]

theorem namesWord_decodeVecMem {x : BitVec 32} (h : fOp x = 55) : NamesWord x (decodeVecMem x) := by
  obtain ⟨vd, va, vb, vc, m, fn, sc, rfl⟩ := exists_packV h
  obtain ⟨n, hn, rfl⟩ := exists_ofNat fn
  simp only [decodeVecMem, fVfn_packV, fVd_packV, fVa_packV, fVbHi_packV, fM_packV, fSc_packV,
    BitVec.toNat_ofNat, Nat.mod_eq_of_lt hn]
  split <;> simp +contextual [Instr.wellFormed, encode, fWs_packV_append, wsHi_append, wsLo_append]

theorem namesWord_decodeReedbed {x : BitVec 32} (h : fOp x = 56) : NamesWord x (decodeReedbed x) := by
  obtain ⟨e, cmd, a, b, eng, sc, rfl⟩ := exists_packC h
  obtain ⟨n, hn, rfl⟩ := exists_ofNat cmd
  simp only [decodeReedbed, fCmd_packC, fE_packC, fCa_packC, fCb_packC, fEng_packC, fEngHi_packC, fSet_packC, fSc_packC,
    BitVec.toNat_ofNat, Nat.mod_eq_of_lt hn]
  split <;> simp +contextual [Instr.wellFormed, encode, setWidth_low3, bits_fSrc]

theorem namesWord_decodeHeron {x : BitVec 32} (h : fOp x = 57) : NamesWord x (decodeHeron x) := by
  obtain ⟨e, cmd, a, b, eng, sc, rfl⟩ := exists_packC h
  obtain ⟨n, hn, rfl⟩ := exists_ofNat cmd
  simp only [decodeHeron, fCmd_packC, fE_packC, fCa_packC, fCb_packC, fEngH_packC, fH_packC, fSc_packC, BitVec.toNat_ofNat,
    Nat.mod_eq_of_lt hn]
  split <;> simp +contextual [Instr.wellFormed, encode, append_low2, bits_fSrc]

theorem namesWord_decodeLode {x : BitVec 32} (h : fOp x = 58) : NamesWord x (decodeLode x) := by
  obtain ⟨e, cmd, a, b, eng, sc, rfl⟩ := exists_packC h
  obtain ⟨n, hn, rfl⟩ := exists_ofNat cmd
  simp only [decodeLode, fCmd_packC, fE_packC, fCa_packC, fCb_packC, fEng_packC, fEngHi_packC, fSet_packC, fSc_packC,
    BitVec.toNat_ofNat, Nat.mod_eq_of_lt hn]
  split <;> simp +contextual [Instr.wellFormed, encode, setWidth_low3]

theorem namesWord_decodePage {x : BitVec 32} (h : fOp x = 59) : NamesWord x (decodePage x) := by
  obtain ⟨e, cmd, a, b, eng, sc, rfl⟩ := exists_packC h
  obtain ⟨n, hn, rfl⟩ := exists_ofNat cmd
  simp only [decodePage, fCmd_packC, fE_packC, fEHi_packC, fPort_packC, fCa_packC, fCb_packC, fEng_packC, fSc_packC,
    BitVec.toNat_ofNat, Nat.mod_eq_of_lt hn]
  split <;> simp +contextual [Instr.wellFormed, encode, setWidth_low2]

theorem namesWord_decodeFence {x : BitVec 32} (h : fOp x = 60) : NamesWord x (decodeFence x) := by
  obtain ⟨d, a, b, scope, order, sc, rfl⟩ := exists_packM h
  obtain ⟨n, hn, rfl⟩ := exists_ofNat order
  simp only [decodeFence, fOrder_packM, fScopeBits_packM, fD_packM, fA_packM, fB_packM, fSc_packM,
    BitVec.toNat_ofNat, Nat.mod_eq_of_lt hn]
  split
  case h_7 =>
    simp only [namesWord_need, namesWord_withScope, namesWord_ok, fScopeBits_packM, beq_iff_eq]
    rintro rfl rfl hpub scope rfl
    exact ⟨(publishes_of_bits scope).symm.trans hpub, rfl⟩
  all_goals simp +contextual [Instr.wellFormed, encode, fScopeBits_packM]

theorem namesWord_decodeCsr {x : BitVec 32} (h : fOp x = 61) : NamesWord x (decodeCsr x) := by
  obtain ⟨d, a, csrOp, csr, sc, rfl⟩ := exists_packS h
  obtain ⟨n, hn, rfl⟩ := exists_ofNat csrOp
  simp only [decodeCsr, fCsrOp_packS, fD_packS, fA_packS, fCsr_packS, fSc_packS, BitVec.toNat_ofNat, Nat.mod_eq_of_lt hn]
  split <;> simp +contextual [Instr.wellFormed, encode]

theorem namesWord_decodeSystem {x : BitVec 32} (h : fOp x = 62) : NamesWord x (decodeSystem x) := by
  obtain ⟨d, a, b, fn, sc, rfl⟩ := exists_packR h
  obtain ⟨n, hn, rfl⟩ := exists_ofNat fn
  simp only [decodeSystem, fFn_packR, fD_packR, fA_packR, fB_packR, fSc_packR, BitVec.toNat_ofNat, Nat.mod_eq_of_lt hn]
  split <;> simp +contextual [Instr.wellFormed, encode]

/-- Whatever a word decodes to is well-formed and has the word as its encoding. -/
theorem namesWord_decodeWord (x : BitVec 32) : NamesWord x (decodeWord x) := by
  unfold decodeWord
  split
  case h_1 h => exact namesWord_decodeInt (opcode_of_toNat h)
  case h_2 h | h_3 h | h_4 h | h_5 h | h_6 h | h_7 h | h_21 h | h_22 h | h_27 h | h_28 h | h_29 h | h_30 h | h_33 h =>
    exact namesWord_packI (opcode_of_toNat h) rfl rfl
  case h_8 h | h_9 h | h_10 h | h_11 h | h_12 h | h_13 h | h_40 h =>
    obtain ⟨d, a, b, fn, sc, rfl⟩ := exists_packR (opcode_of_toNat h)
    simp +contextual [Instr.wellFormed, encode, fD_packR, fA_packR, fB_packR, fLo6_packR, fFnHi_packR, fFnLo_packR, fSc_packR, append_fn]
  case h_14 h | h_34 h => exact namesWord_packL (opcode_of_toNat h) rfl rfl
  case h_15 h =>
    obtain ⟨d, imm, sc, rfl⟩ := exists_packL (opcode_of_toNat h)
    simp +contextual [Instr.wellFormed, encode, fD_packL, fImm18Hi_packL, fImm16_packL, fSc_packL, setWidth_low16]
  case h_35 h =>
    obtain ⟨d, imm, sc, rfl⟩ := exists_packL (opcode_of_toNat h)
    simp +contextual [Instr.wellFormed, encode, fD_packL, fImm18_packL, fSc_packL]
  case h_31 h | h_32 h => exact namesWord_packJ (opcode_of_toNat h) rfl rfl
  case h_16 h | h_17 h | h_18 h | h_19 h | h_20 h => exact namesWord_decodeMem (opcode_of_toNat h)
  case h_23 h | h_24 h => exact namesWord_decodeAtomic (opcode_of_toNat h)
  case h_25 h | h_26 h =>
    obtain ⟨d, a, b, scope, order, sc, rfl⟩ := exists_packM (opcode_of_toNat h)
    simp +contextual [Instr.wellFormed, encode, isPort, isPair, fOrder_packM, fScopeBits_packM, fD_packM, fA_packM, fB_packM, fSc_packM]
  case h_36 h => exact namesWord_decodeTask (opcode_of_toNat h)
  case h_37 h => exact namesWord_decodePool (opcode_of_toNat h)
  case h_38 h | h_39 h => exact namesWord_decodeFp (opcode_of_toNat h)
  case h_41 h => exact namesWord_decodeWide (opcode_of_toNat h)
  case h_42 h | h_43 h | h_44 h | h_45 h => exact namesWord_decodeMapA (opcode_of_toNat h)
  case h_46 h => exact namesWord_decodeMapB (opcode_of_toNat h)
  case h_47 h =>
    obtain ⟨vd, va, vb, vc, m, fn, sc, rfl⟩ := exists_packV (opcode_of_toNat h)
    simp +contextual [Instr.wellFormed, encode, fVd_packV, fVa_packV, fVb_packV, fVc_packV, fM_packV, fVfn4_packV, fPart_packV, fSc_packV,
      append_vfn]
  case h_48 h => exact namesWord_decodeMapC (opcode_of_toNat h)
  case h_49 h => exact namesWord_decodeVecMem (opcode_of_toNat h)
  case h_50 h => exact namesWord_decodeReedbed (opcode_of_toNat h)
  case h_51 h => exact namesWord_decodeHeron (opcode_of_toNat h)
  case h_52 h => exact namesWord_decodeLode (opcode_of_toNat h)
  case h_53 h => exact namesWord_decodePage (opcode_of_toNat h)
  case h_54 h => exact namesWord_decodeFence (opcode_of_toNat h)
  case h_55 h => exact namesWord_decodeCsr (opcode_of_toNat h)
  case h_56 h => exact namesWord_decodeSystem (opcode_of_toNat h)
  case h_57 => exact namesWord_error x _

/-! ## Both directions -/

namespace Laws.Encoding

/-- Decoding the encoding of a well-formed instruction gives the instruction: one lemma for each that has a word. -/
theorem decodeWord_encode (i : Instr) : Statement i := by
  cases i with
  | add => apply add | sub => apply sub | and => apply and | or => apply or | xor => apply xor | sll => apply sll
  | srl => apply srl | sra => apply sra | rol => apply rol | ror => apply ror | slt => apply slt | sltu => apply sltu
  | min => apply min | max => apply max | minu => apply minu | maxu => apply maxu | mul => apply mul | mulh => apply mulh
  | mulhu => apply mulhu | div => apply div | divu => apply divu | rem => apply rem | remu => apply remu | clz => apply clz
  | ctz => apply ctz | cpop => apply cpop | sextB => apply sextB | sextH => apply sextH | sextW => apply sextW
  | zextB => apply zextB | zextH => apply zextH | zextW => apply zextW | addi => apply addi | andi => apply andi
  | ori => apply ori | xori => apply xori | slti => apply slti | sltiu => apply sltiu | slli => apply slli | srli => apply srli
  | srai => apply srai | ext => apply ext | exts => apply exts | ins => apply ins | lui => apply lui | lsi => apply lsi
  | ld => apply ld | ldU => apply ldU | ldAcq => apply ldAcq | ldS => apply ldS | ldDLong => apply ldDLong | st => apply st
  | stRel => apply stRel | stClr => apply stClr | stDLong => apply stDLong | aadd => apply aadd | aswap => apply aswap
  | aand => apply aand | aor => apply aor | axor => apply axor | amax => apply amax | amin => apply amin | amaxu => apply amaxu
  | casD => apply casD | casQ => apply casQ | beq => apply beq | bne => apply bne | blt => apply blt | bge => apply bge
  | j => apply j | jal => apply jal | jalr => apply jalr | spawn => apply spawn | spawnf => apply spawnf | tdone => apply tdone
  | tabort => apply tabort | tyield => apply tyield | spawnr => apply spawnr | spawnfr => apply spawnfr
  | crdeclD => apply crdeclD | crdeclF32 => apply crdeclF32 | crdeclF64 => apply crdeclF64 | cradd => apply cradd
  | poolget => apply poolget | poolgetNf => apply poolgetNf | poolput => apply poolput | fadd => apply fadd | fsub => apply fsub
  | fmul => apply fmul | fdiv => apply fdiv | fsqrt => apply fsqrt | fmin => apply fmin | fmax => apply fmax
  | fmadd => apply fmadd | fmsub => apply fmsub | fnmadd => apply fnmadd | feq => apply feq | flt => apply flt
  | fle => apply fle | fclass => apply fclass | fneg => apply fneg | fabs => apply fabs | fcvt => apply fcvt
  | waclr => apply waclr | wadd => apply wadd | waddv => apply waddv | wsgn => apply wsgn | wrnd => apply wrnd
  | vaddFp => apply vaddFp | vsubFp => apply vsubFp | vmulFp => apply vmulFp | vfma => apply vfma | vfms => apply vfms
  | vdiv => apply vdiv | vsqrt => apply vsqrt | vminFp => apply vminFp | vmaxFp => apply vmaxFp | vabsFp => apply vabsFp
  | vnegFp => apply vnegFp | vcmpeqFp => apply vcmpeqFp | vcmpltFp => apply vcmpltFp | vcmple => apply vcmple
  | vredsumFp => apply vredsumFp | vredmin => apply vredmin | vredmax => apply vredmax | vaddInt => apply vaddInt
  | vsubInt => apply vsubInt | vmulInt => apply vmulInt | vminInt => apply vminInt | vmaxInt => apply vmaxInt
  | vminu => apply vminu | vmaxu => apply vmaxu | vand => apply vand | vor => apply vor | vxor => apply vxor
  | vsll => apply vsll | vsrl => apply vsrl | vsra => apply vsra | vcmpeqInt => apply vcmpeqInt | vcmpltInt => apply vcmpltInt
  | vcmpltu => apply vcmpltu | vredsumInt => apply vredsumInt | vabsInt => apply vabsInt | vnegInt => apply vnegInt
  | vcvt => apply vcvt | vshufD => apply vshufD | vshufW => apply vshufW | vshufB => apply vshufB | vselD => apply vselD
  | vselW => apply vselW | vbcastD => apply vbcastD | vbcastW => apply vbcastW | vextD => apply vextD | vextW => apply vextW
  | vinsD => apply vinsD | vinsW => apply vinsW | vmand => apply vmand | vmor => apply vmor | vmxor => apply vmxor
  | vmnot => apply vmnot | vmput => apply vmput | vmget => apply vmget | vmov => apply vmov | vld => apply vld
  | vstD => apply vstD | vstW => apply vstW | vstB => apply vstB | mlease => apply mlease | mrel => apply mrel
  | mfmt => apply mfmt | mgeo => apply mgeo | mloadw => apply mloadw | mswap => apply mswap | mstream => apply mstream
  | mdrain => apply mdrain | gather => apply gather | scatter => apply scatter | scatterAdd => apply scatterAdd
  | hset => apply hset | hget => apply hget | hld => apply hld | hst => apply hst | cpy => apply cpy | cpy2 => apply cpy2
  | cpy3 => apply cpy3 | fwait => apply fwait | ftest => apply ftest | fcancel => apply fcancel | fpassRead => apply fpassRead
  | fpassWrite => apply fpassWrite | spmap => apply spmap | spfree => apply spfree | sppin => apply sppin | spmig => apply spmig
  | spflush => apply spflush | sbind => apply sbind | sfree => apply sfree | qbind => apply qbind | fence => apply fence
  | fenceX => apply fenceX | bar => apply bar | barjoin => apply barjoin | barleave => apply barleave | wait => apply wait
  | publish => apply publish | csrr => apply csrr | csrw => apply csrw | csrs => apply csrs | csrc => apply csrc
  | nop => apply nop | eret => apply eret | trap => apply trap | wpsw => apply wpsw | sleep => apply sleep | brk => apply brk
  | _ => exact fun _ _ h => nomatch h

end Laws.Encoding

/-- Settles O41: `namesWord_decodeWord` is one direction, `decodeWord_encode` the other. -/
theorem decodeEncodeAgree : Obligations.DecodeEncodeAgree := by
  unfold Obligations.DecodeEncodeAgree
  exact fun w i => ⟨namesWord_decodeWord w i, fun ⟨hwf, henc⟩ => Laws.Encoding.decodeWord_encode i w hwf henc⟩

/-- Settles O40: each word is the encoding of its instruction. -/
theorem decodeWords : Obligations.DecodeWords := by
  unfold Obligations.DecodeWords
  refine ⟨?_, ?_, ?_, ?_, ?_, ?_, ?_, ?_, ?_, ?_, ?_, ?_, ?_, ?_, ?_, ?_, ?_, ?_, ?_, ?_⟩
  all_goals exact (decodeEncodeAgree _ _).2 ⟨rfl, rfl⟩

end Sys2Proof
end

section
/-!
PROOFS. The branches (O5, R101, R356): target, next issue and recorded constraint; and the alignment test, which stands before every
other check of an access (O15, R98, R275).
-/
namespace Sys2Proof.Machine


theorem signedField_eq_toInt (x : Nat) {n : Nat} (hn : 0 < n) : signedField x n = (BitVec.ofNat n x).toInt := by
  obtain ⟨m, rfl⟩ : ∃ m, n = m + 1 := ⟨n - 1, by omega⟩
  rw [signedField, BitVec.toInt_eq_toNat_cond, BitVec.toNat_ofNat, Nat.add_sub_cancel, Nat.pow_succ']
  split <;> split <;> omega

/-- SignExtend of R8 is the signed reading of the low bits. -/
theorem signExtend_eq_lowWord {k : Nat} (x : BitVec k) {n : Nat} (hn : 0 < n) : signExtend x n = lowWord (signedField x.toNat n) := by
  rw [signExtend, lowWord, signedField_eq_toInt _ hn]

/-- Target of R101: the word offset counts from the instruction, modulo 2^24. -/
theorem target_eq {n : Nat} (pc : BitVec 24) (off : BitVec n) (hn : 0 < n) :
    target pc off = BitVec.ofInt 24 (pc.toNat + 4 * signedField off.toNat n) := by
  rw [target, signExtend_eq_lowWord _ hn, lowWord]
  apply BitVec.eq_of_toNat_eq
  simp only [BitVec.toNat_add, BitVec.toNat_setWidth, BitVec.toNat_shiftLeft, BitVec.toNat_ofInt, Nat.shiftLeft_eq]
  omega

namespace State

theorem jumpTo_eq (s : State) (pc : BitVec 24) (sc : Stall) : s.jumpTo pc sc = s.jumped pc sc := by
  rw [jumpTo, goTo_eq, jumped, issuedCtx, onCx, onCtx]
  simp [cx]

/-- A branch that issues records its constraint, pops its operands and goes on at its target or at NextPc. -/
theorem branch_issues {s : State} {a b : Reg} (off : BitVec 12) (cmp : SymCmp) (sc : Stall) {f g : Word → Word → Bool}
    (hfg : ∀ x y, f x y = g x y) (h : s.issues [.w a, .w b] [] = true) : s.branch a b off cmp sc f =
      (let t := (s.constrain2 cmp a b (g (s.rd a) (s.rd b))).popPorts [a, b]
       if g (s.rd a) (s.rd b) then t.jumped (BitVec.ofInt 24 (s.cx.pc.toNat + 4 * signedField off.toNat 12)) sc
       else t.goTo (t.cx.pc + 4) sc) := by
  simp only [branch, gate_issues s _ _ _ h, jumpTo_eq, target_eq _ _ (show 0 < 12 by decide), hfg]
  rfl

end State

/-- Settles O5: each branch is the shared operation with its comparison. -/
theorem branches : Obligations.Branches := by
  unfold Obligations.Branches
  intro p hp s a b off sc h
  simp only [branchOps, List.mem_cons, List.not_mem_nil, or_false] at hp
  obtain rfl | rfl | rfl | rfl := hp
  · exact congrArg Host.Outcome.next (State.branch_issues off .eq sc (fun x y => rfl) h)
  · exact congrArg Host.Outcome.next (State.branch_issues off .ne sc (fun x y => by simp [bne, BEq.beq]) h)
  · exact congrArg Host.Outcome.next (State.branch_issues off .lt sc (fun x y => rfl) h)
  · exact congrArg Host.Outcome.next (State.branch_issues off .ge sc (fun x y => by simp [Word.slt, ← decide_not]) h)

namespace State

/-- The offset of M format counts elements (R410). -/
theorem elemOff_eq (n : Nat) (i : BitVec 6) : elemOff n i = lowWord (n * signedField i.toNat 6) := by
  rw [elemOff, signExtend_eq_lowWord _ (by decide), lowWord, lowWord, BitVec.ofInt_mul, BitVec.ofInt_natCast]

theorem checkAligned_misaligned {s : State} {va : Word} {n : Nat} (h : va.toNat % n ≠ 0) (m : Mode) (k : State → Loc → Nat → State) :
    s.checkAligned .run va n m k = s.trap 0x02 va (BitVec.ofNat 64 n) := by
  simp only [checkAligned, bne_iff_ne.2 h, if_true]
  rfl

theorem loadOp_misaligned {s : State} {n : Nat} {d a : Reg} {off : Word} (unsigned acquire symbolic : Bool) (sc : Stall)
    (h : s.issues [.w a] ((sizeRegs n d).map .w) = true) (hn : (s.rd a + off).toNat % n ≠ 0) :
    s.loadOp n unsigned acquire symbolic d a off sc = s.trap 0x02 (s.rd a + off) (BitVec.ofNat 64 n) := by
  simp only [loadOp, gate_issues s _ _ _ h, checkAligned_misaligned hn]

theorem storeOp_misaligned {s : State} {n : Nat} {d a : Reg} {off : Word} (sc : Stall)
    (h : s.issues ((a :: sizeRegs n d).map .w) [] = true) (hn : (s.rd a + off).toNat % n ≠ 0) :
    s.storeOp n d a off .ctx sc = s.trap 0x02 (s.rd a + off) (BitVec.ofNat 64 n) := by
  simp only [storeOp, gate_issues s _ _ _ h, release, checkAligned_misaligned hn]
  rfl

theorem atomic_misaligned {s : State} {z : ASize} {d a b : Reg} (order : Nat) (sc : Stall)
    (h : s.issues [.w a, .w b] [.w d] = true) (hn : (s.rd a).toNat % ASize.bytes z ≠ 0) :
    s.atomic z order d a b sc = s.trap 0x02 (s.rd a) (BitVec.ofNat 64 (ASize.bytes z)) := by
  simp only [atomic, atomicOp, gate_issues s _ _ _ h, checkAligned_misaligned hn, List.map_cons, List.map_nil]

theorem vloadOp_misaligned {s : State} {v : BitVec 4} {a : Reg} (sc : Stall) (h : s.vissues [.w a] [.v v] = true)
    (hn : (s.rd a).toNat % 64 ≠ 0) : s.vloadOp v a sc = s.trap 0x02 (s.rd a) 64 := by
  simp only [vloadOp, vgate_vissues s _ _ _ h, checkAligned_misaligned hn]
  rfl

theorem execWaclr_misaligned {s : State} {d : Reg} (sc : Stall) (h : s.issues [.w d] [] = true) (hn : (s.rd d).toNat % 8 ≠ 0) :
    execWaclr d sc s = .next (s.trap 0x02 (s.rd d) 8) := by
  simp only [execWaclr, gate_issues s _ _ _ h, bne_iff_ne.2 hn, if_true]
  rfl

theorem accAdd_misaligned {s : State} {d : Reg} {reads : List Reg} {regs : List RegRef} (sc : Stall) (n : Nat) (carries : Bool)
    (addend : State → Int) (h : s.issues regs [] = true) (hn : (s.rd d).toNat % 8 ≠ 0) :
    s.accAdd d reads regs sc n carries addend = s.trap 0x02 (s.rd d) 8 := by
  simp only [accAdd, gate_issues s _ _ _ h, bne_iff_ne.2 hn, if_true]
  rfl

end State

/-- LD, LD.u and LD.ACQ are the shared load, with the address offset in elements. -/
theorem exec_loadOps {p : (MSize → Reg → Reg → BitVec 6 → Scope → Stall → Instr) × Bool × Bool} (hp : p ∈ loadOps) (s : State)
    (z : MSize) (d a : Reg) (i : BitVec 6) (c : Scope) (sc : Stall) : exec (p.1 z d a i c sc) s =
      .next (s.loadOp (MSize.bytes z) p.2.1 p.2.2 false d a (lowWord (MSize.bytes z * signedField i.toNat 6)) sc) := by
  rw [← State.elemOff_eq]
  simp only [loadOps, List.mem_cons, List.not_mem_nil, or_false] at hp
  obtain rfl | rfl | rfl := hp
  · rfl
  · rfl
  · rfl

/-- Each atomic is the shared operation with its own order. -/
theorem exec_atomicOps {p : (ASize → Reg → Reg → Reg → Scope → Stall → Instr) × Bool × (Nat → Nat → Nat → Nat)} (hp : p ∈ atomicOps) :
    ∃ order, ∀ (s : State) (z : ASize) (d a b : Reg) (c : Scope) (sc : Stall),
      exec (p.1 z d a b c sc) s = .next (s.atomic z order d a b sc) := by
  simp only [atomicOps, List.mem_cons, List.not_mem_nil, or_false] at hp
  obtain rfl | rfl | rfl | rfl | rfl | rfl | rfl | rfl := hp
  all_goals exact ⟨_, fun s z d a b c sc => rfl⟩

/-- Settles O15: in each operation the alignment test stands before every other check. -/
theorem alignmentFirst : Obligations.AlignmentFirst := by
  unfold Obligations.AlignmentFirst
  refine ⟨?loads, ?stores, ?atomics, ?line, ?accumulators⟩
  case loads =>
    intro p hp s z d a i c sc n va h hn
    rw [exec_loadOps hp, State.loadOp_misaligned _ _ _ sc h hn]
  case stores =>
    intro s z d a i sc n va h hn
    rw [exec_st, execSt, State.elemOff_eq, State.storeOp_misaligned sc h hn]
  case atomics =>
    intro p hp s z d a b c sc h hn
    obtain ⟨order, hexec⟩ := exec_atomicOps hp
    rw [hexec, State.atomic_misaligned order sc h hn]
  case line =>
    intro s v a sc h hn
    rw [exec_vld, execVld, State.vloadOp_misaligned sc h hn]
  case accumulators =>
    refine fun s d a b sc hn => ⟨fun h => ?_, fun h => ?_⟩
    · rw [exec_waclr, State.execWaclr_misaligned sc h hn]
    · rw [exec_wadd, execWadd, State.accAdd_misaligned sc _ _ _ h hn]

end Sys2Proof.Machine
end

section
/-!
PROOFS. Loads (O19): when a load at a checked place is performed, its bytes (R210, R213, R234, R237), and what the loading
instructions leave (R187, R190, R410, R411).
-/
namespace Sys2Proof.Machine

@[simp] theorem locAdd_zero (loc : Loc) : locAdd loc 0 = loc := by cases loc <;> rfl

/-- A store that overlaps a part of an access overlaps the whole. -/
theorem State.storeOverlaps_le {p : PendStore} {loc : Loc} {n m : Nat} (hnm : n ≤ m) (h : State.storeOverlaps p loc n = true) :
    State.storeOverlaps p loc m = true := by
  have widen : ∀ a : Nat, (p.bytes.any fun x => a ≤ x.1 && x.1 < a + n) = true →
      (p.bytes.any fun x => a ≤ x.1 && x.1 < a + m) = true := by
    intro a ha
    simp only [List.any_eq_true, Bool.and_eq_true, decide_eq_true_eq] at ha ⊢
    obtain ⟨x, hx, hlo, hhi⟩ := ha
    exact ⟨x, hx, hlo, by omega⟩
  unfold storeOverlaps at h ⊢
  split at h
  · rw [Bool.and_eq_true] at h ⊢
    exact ⟨h.1, widen _ h.2⟩
  · exact widen _ h
  · exact widen _ h
  · exact h

theorem State.ownOverlap_le {s : State} {loc : Loc} {n m : Nat} (hnm : n ≤ m) (h : s.ownOverlap loc m = false) :
    s.ownOverlap loc n = false := by
  simp only [ownOverlap, List.any_eq_false, Bool.and_eq_true, not_and] at h ⊢
  exact fun p hp hu hn => h p hp hu (storeOverlaps_le hnm hn)

namespace State

/-! ## Elements held ahead -/

/-- Ageing changes contexts only. -/
theorem ageElements_eq (s : State) (loc : Loc) (n : Nat) (port : Option Nat) :
    ∃ m, s.ageElements loc n port = { s with ctxs := m } := by
  simp only [ageElements]
  split
  · exact ⟨_, rfl⟩
  · exact ⟨_, rfl⟩

/-- Of the running context, ageing changes the elements held ahead only. -/
theorem ageElements_cx (s : State) (loc : Loc) (n : Nat) (port : Option Nat) :
    ∃ es, (s.ageElements loc n port).cx = { s.cx with ahead := es } := by
  simp only [ageElements]
  split
  · exact ⟨_, cx_setCtx_cur _ _⟩
  · exact ⟨_, rfl⟩

theorem ageElements_ctxs_congr {s t : State} (hctxs : t.ctxs = s.ctxs) (hcur : t.cur = s.cur) (loc : Loc) (n : Nat) (port : Option Nat) :
    (t.ageElements loc n port).ctxs = (s.ageElements loc n port).ctxs := by
  have hctx : ∀ k, t.ctx k = s.ctx k := fun k => by simp only [ctx, hctxs]
  have hcx : t.cx = s.cx := by rw [cx, hcur, hctx, cx]
  simp only [ageElements, hcx]
  split
  case isTrue => simp only [onCx, onCtx, setCtx_ctxs, hctxs, hcur, hctx]
  case isFalse => exact hctxs

/-! ## What the bytes that a die reads depend on -/

theorem tableEntryAt_congr {s t : State} (hblocks : t.blocks = s.blocks) (pa : Nat) (ls : List (Nat × Launch)) :
    t.tableEntryAt pa ls = s.tableEntryAt pa ls := by
  induction ls with
  | nil => rfl
  | cons l ls ih => simp only [tableEntryAt, ih, page, block, hblocks]

theorem byteAt_congr {s t : State} (hmem : t.mem = s.mem) (hblocks : t.blocks = s.blocks) (hlaunches : t.launches = s.launches) (pa : Nat) :
    t.byteAt pa = s.byteAt pa := by
  simp only [byteAt, tableEntryAt_congr hblocks, hlaunches, hmem]

theorem bytesAt_congr {s t : State} (hmem : t.mem = s.mem) (hblocks : t.blocks = s.blocks) (hlaunches : t.launches = s.launches)
    (pa n : Nat) : t.bytesAt pa n = s.bytesAt pa n := by
  induction n generalizing pa with
  | zero => rfl
  | succ n ih => simp only [bytesAt, byteAt_congr hmem hblocks hlaunches, ih]

theorem dieBytes_congr {s t : State} (hmem : t.mem = s.mem) (hblocks : t.blocks = s.blocks) (hlaunches : t.launches = s.launches)
    (hpriv : t.priv = s.priv) (die pa n : Nat) : t.dieBytes die pa n = s.dieBytes die pa n := by
  simp only [dieBytes, hpriv, bytesAt_congr hmem hblocks hlaunches, byteAt_congr hmem hblocks hlaunches]

theorem window_congr {s t : State} (hmem : t.mem = s.mem) (hblocks : t.blocks = s.blocks) (hlaunches : t.launches = s.launches)
    (hbase : t.cwBase = s.cwBase) (hen : t.cwEn = s.cwEn) (hnode : t.node = s.node) (pa : Nat) : t.window pa = s.window pa := by
  simp only [window, dwordAt, bytesAt_congr hmem hblocks hlaunches, hbase, hen, hnode]
  rfl

/-! ## Claims -/

/-- A read's entry changes signatures and speculative-access vectors only. -/
theorem enterRead_eq (s : State) (u : Nat) (loc : Loc) : ∃ sp sv, s.enterRead u loc = { s with specs := sp, specVec := sv } := by
  have hon : ∃ sp, (s.onSpec u fun y => { y with rsig := insertR y.rsig (sigKey loc) }) = { s with specs := sp } := by
    unfold onSpec
    split
    · exact ⟨_, rfl⟩
    · exact ⟨_, rfl⟩
  obtain ⟨sp, hsp⟩ := hon
  simp only [enterRead, hsp]
  split
  · exact ⟨_, _, rfl⟩
  · exact ⟨_, _, rfl⟩

theorem enterRead_specs {s : State} {u : Nat} {loc : Loc} {y : Spec} (h : s.specs.get? u = some y) :
    (s.enterRead u loc).specs = s.specs.set u { y with rsig := insertR y.rsig (sigKey loc) } := by
  simp only [enterRead, onSpec, h]
  split
  · rfl
  · rfl

/-- What a read leaves once its conflicts are resolved, in `t`: an ordered task's read enters its signature. -/
def claimedRead (s t : State) (loc : Loc) : State := if s.ordered then t.enterRead s.cx.task.uid loc else t

theorem claimedRead_eq (s t : State) (loc : Loc) : ∃ sp sv, s.claimedRead t loc = { t with specs := sp, specVec := sv } := by
  unfold claimedRead
  split
  · exact enterRead_eq _ _ _
  · exact ⟨_, _, rfl⟩

theorem readClaim_of_resolve {s t : State} {loc : Loc} {n : Nat} {reps : List Nat}
    (h : s.resolve s.party false loc n = some (t, reps)) : s.readClaim loc n = some (s.claimedRead t loc) := by
  rw [readClaim, h]
  rfl

/-- A check of the line, as a free access with no ordered task uncommitted makes it. -/
def pruned (s : State) : Loc → State
  | .mem pa => s.specPrune (pa / 64)
  | .scr _ _ => s

theorem readClaim_alone {s : State} (hfree : s.ordered = false) (halone : s.specs = []) (loc : Loc) (n : Nat) :
    s.readClaim loc n = some (s.pruned loc) := by
  have hits : ∀ who h, s.hits who false loc n h = [] := fun who h => by simp only [hits, halone, List.filter_nil, List.map_nil]
  simp only [readClaim, resolve, hits, hfree, pruned]
  cases loc <;> rfl

/-! ## A load at its place -/

/-- A load's line enters L1 where it may (R154, R155). -/
def l1Loaded (s : State) (va : Word) (pa mt : Nat) : State :=
  if s.l1Allows va pa mt then s.l1Fill s.here s.asid (va.toNat % 2 ^ 57 / 64) (pa / 64) s.ordered else s

/-- A fill changes tiles only. -/
theorem l1Loaded_eq (s : State) (va : Word) (pa mt : Nat) : ∃ m, s.l1Loaded va pa mt = { s with tiles := m } := by
  unfold l1Loaded
  split
  · exact ⟨_, rfl⟩
  · exact ⟨_, rfl⟩

/-- What a load from L1 or the die's L2 leaves: its line in L1, the elements held of its bytes too old. -/
def cacheRead (s : State) (va : Word) (pa mt n : Nat) : State := (s.l1Loaded va pa mt).ageElements (.mem pa) n none

/-- A cached read changes tiles and contexts only. -/
theorem cacheRead_eq (s : State) (va : Word) (pa mt n : Nat) : ∃ ts cs, s.cacheRead va pa mt n = { s with tiles := ts, ctxs := cs } := by
  obtain ⟨ts, hfill⟩ := s.l1Loaded_eq va pa mt
  obtain ⟨cs, hage⟩ := (s.l1Loaded va pa mt).ageElements_eq (.mem pa) n none
  exact ⟨ts, cs, by rw [cacheRead, hage, hfill]⟩

theorem cacheRead_ctxs (s : State) (va : Word) (pa mt n : Nat) :
    (s.cacheRead va pa mt n).ctxs = (s.ageElements (.mem pa) n none).ctxs := by
  obtain ⟨ts, hfill⟩ := s.l1Loaded_eq va pa mt
  exact ageElements_ctxs_congr (by rw [hfill]) (by rw [hfill]) _ _ _

/-- The bytes that the die reads are those from before the fill. -/
theorem dieBytes_cacheRead (s : State) (va : Word) (pa mt n k : Nat) :
    (s.cacheRead va pa mt n).dieBytes (dieOf (s.cacheRead va pa mt n).here) pa k = s.dieBytes (dieOf s.here) pa k := by
  obtain ⟨ts, cs, hread⟩ := s.cacheRead_eq va pa mt n
  rw [show (s.cacheRead va pa mt n).here = s.here by rw [hread]; rfl]
  exact dieBytes_congr (by rw [hread]) (by rw [hread]) (by rw [hread]) (by rw [hread]) _ _ _

theorem l2Read_of_l2Holds {s : State} {pa : Nat} (h : s.l2Holds pa = true) : s.l2Read (dieOf s.here) (pa / 64) = (s, true) := by
  rw [l2Holds] at h
  rw [l2Read]
  cases hst : s.l2St (dieOf s.here) (pa / 64) with
  | s | e | o | m => rfl
  | i | is_ | im | sm | mi | p =>
    rw [hst] at h
    exact absurd h (by decide)

section
variable {s t : State} {x : Exits} {va : Word} {n : Nat} {mt : Nat} {k : State → List Byte → State}

theorem loadOnce_scr {b off : Nat} (hx : x.own = true) (hov : s.ownOverlap (.scr b off) n = false)
    (hc : s.readClaim (.scr b off) n = some t) :
    s.loadOnce x va n (.scr b off) mt k = k (t.ageElements (.scr b off) n none) (t.frameRead b off n) := by
  simp [loadOnce, hx, hov, hc]

theorem loadOnce_uncached {pa : Nat} (hx : x.own = true) (hov : s.ownOverlap (.mem pa) n = false)
    (hc : s.readClaim (.mem pa) n = some t) (hhost : isHostMem pa = false ∨ s.ownHost = false) :
    s.loadOnce x va n (.mem pa) 2 k = k (t.ageElements (.mem pa) n none) (t.bytesAt pa n) := by
  have hno : (isHostMem pa && s.ownHost) = false := by rwa [Bool.and_eq_false_iff]
  simp [loadOnce, hx, hov, hc, hno]

theorem loadOnce_register {pa : Nat} (hx : x.own = true) (hov : s.ownOverlap (.mem pa) n = false)
    (hc : s.readClaim (.mem pa) n = some t) (hown : s.ownUncached = false) :
    s.loadOnce x va n (.mem pa) 3 k = k (t.ageElements (.mem pa) n none) (t.windowBytes (pa - regBase) n) := by
  simp [loadOnce, hx, hov, hc, hown]

theorem loadOnce_cached {pa : Nat} (hx : x.own = true) (hov : s.ownOverlap (.mem pa) n = false)
    (hc : s.readClaim (.mem pa) n = some t) (hmt : mt < 2) (hput : s.ordered = false → s.heldPut pa = false)
    (hline : s.l1Hit va pa = true ∨ s.l2Holds pa = true) :
    s.loadOnce x va n (.mem pa) mt k =
      k (t.cacheRead va pa mt n) ((t.cacheRead va pa mt n).dieBytes (dieOf (t.cacheRead va pa mt n).here) pa n) := by
  obtain ⟨ts, hfill⟩ := t.l1Loaded_eq va pa mt
  have hbytes : (t.l1Loaded va pa mt).dieBytes (dieOf (t.l1Loaded va pa mt).here) pa n = t.dieBytes (dieOf t.here) pa n := by
    rw [show (t.l1Loaded va pa mt).here = t.here by rw [hfill]; rfl]
    exact dieBytes_congr (by rw [hfill]) (by rw [hfill]) (by rw [hfill]) (by rw [hfill]) _ _ _
  rw [dieBytes_cacheRead, ← hbytes]
  have h3 : (mt == 3) = false := by simp; omega
  have h2 : (mt == 2) = false := by simp; omega
  have hp : (!s.ordered && s.heldPut pa) = false := by
    cases ho : s.ordered with
    | true => rfl
    | false => simpa using hput ho
  by_cases hl : s.l1Hit va pa = true
  · simp [loadOnce, hx, hov, hc, h3, h2, hp, hl, cacheRead, l1Loaded]
  · have hr := l2Read_of_l2Holds (hline.resolve_left hl)
    simp [loadOnce, hx, hov, hc, h3, h2, hp, hl, hr, cacheRead, l1Loaded]

/-! ## One dword or all the rest -/

theorem loadAt_dword {loc : Loc} (hlong : 8 < n - s.cx.got.length) (hodd : Config.choice s.fresh % 2 = 1) :
    s.loadAt x va n loc mt k =
      s.loadOnce x (va + BitVec.ofNat 64 s.cx.got.length) 8 (locAdd loc s.cx.got.length) mt fun t bs =>
        x.busy (t.tick.onCx fun c => { c with got := s.cx.got ++ bs }) .line := by
  simp [loadAt, hlong, hodd]

theorem loadAt_rest {loc : Loc} (h : 8 < n - s.cx.got.length → Config.choice s.fresh % 2 ≠ 1) :
    s.loadAt x va n loc mt k =
      s.loadOnce x (va + BitVec.ofNat 64 s.cx.got.length) (n - s.cx.got.length) (locAdd loc s.cx.got.length) mt fun t bs =>
        k (if s.cx.got = [] then t else t.setCx { t.cx with got := [] }) (s.cx.got ++ bs) := by
  have hc : (decide (8 < n - s.cx.got.length) && Config.choice s.fresh % 2 == 1) = false := by
    simpa using h
  simp only [loadAt, hc, List.isEmpty_iff]
  rfl

/-- A load of up to a dword with none of its bytes read before is one access. -/
theorem loadAt_start {loc : Loc} (hgot : s.cx.got = []) (hn : n ≤ 8) : s.loadAt x va n loc mt k = s.loadOnce x va n loc mt k := by
  rw [loadAt_rest (fun h => absurd h (by omega))]
  simp [hgot]

end

/-! ## The first access of a load -/

section
variable {s s1 : State} {va : Word} {n mt : Nat} {reps : List Nat}

theorem loads_scr_start {b off : Nat} (hgot : s.cx.got = []) (hn : n ≤ 8) (hov : s.ownOverlap (.scr b off) n = false)
    (hres : s.resolve s.party false (.scr b off) n = some (s1, reps)) :
    s.Loads va n (.scr b off) mt ((s.claimedRead s1 (.scr b off)).ageElements (.scr b off) n none)
      ((s.claimedRead s1 (.scr b off)).frameRead b off n) := fun fail busy k => by
  rw [loadAt_start hgot hn, loadOnce_scr rfl hov (readClaim_of_resolve hres)]

theorem loads_cached_start {pa : Nat} (hgot : s.cx.got = []) (hn : n ≤ 8) (hov : s.ownOverlap (.mem pa) n = false)
    (hres : s.resolve s.party false (.mem pa) n = some (s1, reps)) (hmt : mt < 2) (hput : s.ordered = false → s.heldPut pa = false)
    (hline : s.l1Hit va pa = true ∨ s.l2Holds pa = true) :
    ∃ s3, s.Loads va n (.mem pa) mt s3 (s3.dieBytes (dieOf s3.here) pa n) ∧ s3.mem = s1.mem ∧ s3.priv = s1.priv ∧
      s3.frames = s1.frames ∧ s3.ctxs = (s1.ageElements (.mem pa) n none).ctxs ∧
      (s.ordered = true → ∀ y, s1.specs.get? s.cx.task.uid = some y →
        s3.specs = s1.specs.set s.cx.task.uid { y with rsig := insertR y.rsig (sigKey (.mem pa)) }) := by
  obtain ⟨sp, sv, hclaim⟩ := s.claimedRead_eq s1 (.mem pa)
  obtain ⟨ts, cs, hread⟩ := (s.claimedRead s1 (.mem pa)).cacheRead_eq va pa mt n
  refine ⟨(s.claimedRead s1 (.mem pa)).cacheRead va pa mt n, fun fail busy k => ?_, ?_, ?_, ?_, ?_, fun ho y hy => ?_⟩
  · rw [loadAt_start hgot hn, loadOnce_cached rfl hov (readClaim_of_resolve hres) hmt hput hline]
  · rw [hread, hclaim]
  · rw [hread, hclaim]
  · rw [hread, hclaim]
  · rw [cacheRead_ctxs]
    exact ageElements_ctxs_congr (by rw [hclaim]) (by rw [hclaim]) _ _ _
  · rw [hread, claimedRead, if_pos ho, enterRead_specs hy]

/-! ## The rest of a load, or one more dword of it -/

theorem loads_scr_alone {b off : Nat} (hov : s.ownOverlap (.scr b (off + s.cx.got.length)) (n - s.cx.got.length) = false)
    (hfree : s.ordered = false) (halone : s.specs = []) :
    let o := s.cx.got.length
    let aged := fun k => s.ageElements (.scr b (off + o)) k none
    s.Loads va n (.scr b off) mt (if s.cx.got = [] then aged (n - o) else (aged (n - o)).setCx { (aged (n - o)).cx with got := [] })
        (s.cx.got ++ s.frameRead b (off + o) (n - o)) ∨
      8 < n - o ∧ ∀ fail busy k, s.loadAt (State.exitsOf fail busy) va n (.scr b off) mt k = busy
        (({ aged 8 with fresh := s.fresh + 1 }).setCx { (aged 8).cx with got := s.cx.got ++ s.frameRead b (off + o) 8 }) .line := by
  intro o aged
  by_cases hpart : 8 < n - o ∧ Config.choice s.fresh % 2 = 1
  · refine .inr ⟨hpart.1, fun fail busy k => ?_⟩
    obtain ⟨m, hm⟩ := s.ageElements_eq (.scr b (off + o)) 8 none
    rw [loadAt_dword hpart.1 hpart.2, locAdd, loadOnce_scr rfl (ownOverlap_le (by omega) hov) (readClaim_alone hfree halone _ _)]
    simp only [aged, pruned, o, hm]
    rfl
  · refine .inl fun fail busy k => ?_
    rw [loadAt_rest (fun h hc => hpart ⟨h, hc⟩), locAdd, loadOnce_scr rfl hov (readClaim_alone hfree halone _ _)]
    rfl

theorem cacheRead_pruned (s : State) (va : Word) (pa mt k : Nat) :
    let t := (s.pruned (.mem pa)).cacheRead va pa mt k
    t.mem = s.mem ∧ t.frames = s.frames ∧ t.cx = (s.ageElements (.mem pa) k none).cx := by
  obtain ⟨ts, cs, hread⟩ := (s.pruned (.mem pa)).cacheRead_eq va pa mt k
  obtain ⟨as, hage⟩ := s.ageElements_eq (.mem pa) k none
  refine ⟨by rw [hread]; rfl, by rw [hread]; rfl, ?_⟩
  have hctxs : ((s.pruned (.mem pa)).cacheRead va pa mt k).ctxs = (s.ageElements (.mem pa) k none).ctxs :=
    (cacheRead_ctxs _ _ _ _ _).trans (ageElements_ctxs_congr (s := s) (t := s.pruned (.mem pa)) rfl rfl _ _ _)
  have hcur : ((s.pruned (.mem pa)).cacheRead va pa mt k).cur = (s.ageElements (.mem pa) k none).cur := by rw [hread, hage]; rfl
  rw [cx, cx, ctx, ctx, hctxs, hcur]

/-- What the context keeps of a load under way is not in what its die reads. -/
theorem dieBytes_got (s : State) (c : Ctx) (pa n : Nat) :
    (s.tick.setCx c).dieBytes (dieOf (s.tick.setCx c).here) pa n = s.dieBytes (dieOf s.here) pa n :=
  dieBytes_congr (s := s) (t := s.tick.setCx c) rfl rfl rfl rfl _ _ _

/-- The bytes read before go, once the load has all of its bytes. -/
def doneGot (t : State) (got : List Byte) : State := if got = [] then t else t.setCx { t.cx with got := [] }

theorem doneGot_eq (t : State) (got : List Byte) (hgot : t.cx.got = got) :
    ((t.doneGot got).mem = t.mem ∧ (t.doneGot got).frames = t.frames) ∧ (t.doneGot got).cx = { t.cx with got := [] } ∧
      ∀ pa n, (t.doneGot got).dieBytes (dieOf (t.doneGot got).here) pa n = t.dieBytes (dieOf t.here) pa n := by
  unfold doneGot
  split
  case isTrue h => exact ⟨⟨rfl, rfl⟩, by rw [← h, ← hgot], fun _ _ => rfl⟩
  case isFalse => exact ⟨⟨rfl, rfl⟩, cx_setCtx_cur _ _, fun _ _ => dieBytes_congr (s := t) (t := t.setCx _) rfl rfl rfl rfl _ _ _⟩

theorem loads_cached_alone {pa : Nat} (hmt : mt < 2) (hov : s.ownOverlap (.mem (pa + s.cx.got.length)) (n - s.cx.got.length) = false)
    (hfree : s.ordered = false) (halone : s.specs = []) (hput : s.heldPut (pa + s.cx.got.length) = false)
    (hline : s.l1Hit (va + BitVec.ofNat 64 s.cx.got.length) (pa + s.cx.got.length) = true ∨ s.l2Holds (pa + s.cx.got.length) = true) :
    let o := s.cx.got.length
    let aged := fun k => (s.ageElements (.mem (pa + o)) k none).cx
    ∃ s3 : State, s3.mem = s.mem ∧ s3.frames = s.frames ∧
      (s.Loads va n (.mem pa) mt s3 (s.cx.got ++ s3.dieBytes (dieOf s3.here) (pa + o) (n - o)) ∧
          s3.cx = { aged (n - o) with got := [] } ∨
        8 < n - o ∧ s3.cx = { aged 8 with got := s.cx.got ++ s3.dieBytes (dieOf s3.here) (pa + o) 8 } ∧
          ∀ fail busy k, s.loadAt (State.exitsOf fail busy) va n (.mem pa) mt k = busy s3 .line) := by
  have hclaim := readClaim_alone hfree halone (.mem (pa + s.cx.got.length))
  by_cases hpart : 8 < n - s.cx.got.length ∧ Config.choice s.fresh % 2 = 1
  · obtain ⟨hmem, hframes, hcx⟩ := cacheRead_pruned s (va + BitVec.ofNat 64 s.cx.got.length) (pa + s.cx.got.length) mt 8
    have hload := fun fail busy k => loadOnce_cached (x := exitsOf fail busy) (k := k) rfl (ownOverlap_le (by omega) hov) (hclaim 8) hmt
      (fun _ => hput) hline
    generalize (s.pruned _).cacheRead _ _ mt 8 = t at hmem hframes hcx hload
    refine ⟨t.tick.setCx { t.cx with got := s.cx.got ++ t.dieBytes (dieOf t.here) (pa + s.cx.got.length) 8 }, hmem, hframes,
      .inr ⟨hpart.1, ?_, fun fail busy k => ?_⟩⟩
    · rw [dieBytes_got]
      exact (cx_setCtx_cur _ _).trans (by rw [hcx])
    · rw [loadAt_dword hpart.1 hpart.2, locAdd, hload]
      rfl
  · obtain ⟨hmem, hframes, hcx⟩ :=
      cacheRead_pruned s (va + BitVec.ofNat 64 s.cx.got.length) (pa + s.cx.got.length) mt (n - s.cx.got.length)
    have hload := fun fail busy k => loadOnce_cached (x := exitsOf fail busy) (k := k) rfl hov (hclaim (n - s.cx.got.length)) hmt
      (fun _ => hput) hline
    generalize (s.pruned _).cacheRead _ _ mt _ = t at hmem hframes hcx hload
    obtain ⟨⟨hmem', hframes'⟩, hnone, hbytes⟩ := doneGot_eq t s.cx.got (by
      obtain ⟨es, hes⟩ := s.ageElements_cx (.mem (pa + s.cx.got.length)) (n - s.cx.got.length) none
      rw [hcx, hes])
    refine ⟨t.doneGot s.cx.got, hmem'.trans hmem, hframes'.trans hframes, .inl ⟨fun fail busy k => ?_, ?_⟩⟩
    · rw [loadAt_rest (fun h hc => hpart ⟨h, hc⟩), locAdd, hload, hbytes]
      rfl
    · exact hnone.trans (by rw [hcx])

end

end State

/-! ## The loaded value (R410) -/

theorem signedField_mod_word (x : Nat) {n : Nat} (hn : n ≤ 64) : signedField (x % 2 ^ 64) n = signedField x n := by
  simp only [signedField, Nat.mod_mod_of_dvd x (Nat.pow_dvd_pow 2 hn)]

/-- A dword is its own value, signed or not. -/
theorem loadedWord_dword (unsigned : Bool) (bs : List Byte) : loadedWord 8 unsigned bs = BitVec.ofNat 64 (leNat bs) := by
  cases unsigned with
  | false => rw [loadedWord, signedField_eq_toInt _ (by decide)]; exact BitVec.ofInt_toInt
  | true => exact BitVec.eq_of_toNat_eq (by simp [loadedWord])

theorem loadValue_eq {n : Nat} (hn : n ∈ [1, 2, 4, 8]) (unsigned : Bool) (bs : List Byte) :
    loadValue n unsigned bs = loadedWord n unsigned bs := by
  simp only [List.mem_cons, List.not_mem_nil, or_false] at hn
  by_cases h8 : n = 8
  · rw [h8, loadedWord_dword]
    rfl
  · have h8' : (n == 8) = false := by simpa using h8
    have hle : 8 * n ≤ 64 := by omega
    cases unsigned with
    | true =>
      simp only [loadValue, h8', loadedWord, zeroExtend, BitVec.toNat_ofNat, Nat.mod_mod_of_dvd _ (Nat.pow_dvd_pow 2 hle)]
      rfl
    | false =>
      simp only [loadValue, h8', loadedWord, signExtend_eq_lowWord _ (show 0 < 8 * n by omega), BitVec.toNat_ofNat,
        signedField_mod_word _ hle]
      rfl

theorem MSize.bytes_mem (z : MSize) : MSize.bytes z ∈ [1, 2, 4, 8, 16] := by
  cases z <;> decide

namespace State

/-- An aligned access that passes every other check goes on at its place. -/
theorem checkAligned_passes {s s1 : State} {va : Word} {n : Nat} {m : Mode} {loc : Loc} {mt : Nat} (haligned : va.toNat % n = 0)
    (hpass : s.Passes va m s1 loc mt) (k : State → Loc → Nat → State) : s.checkAligned .run va n m k = k s1 loc mt := by
  simp only [checkAligned, haligned, bne_self_eq_false, Bool.false_eq_true, if_false]
  exact hpass State.raise State.wait k

theorem loadOp_loads {s s1 s2 : State} {n : Nat} {d a : Reg} {off : Word} {loc : Loc} {mt : Nat} {bs : List Byte}
    (unsigned acquire symbolic : Bool) (sc : Stall)
    (hissue : s.issues [.w a] ((sizeRegs n d).map .w) = true) (haligned : (s.rd a + off).toNat % n = 0)
    (hpass : s.Passes (s.rd a + off) .load s1 loc mt) (hin : outside? loc = false) (hload : s1.Loads (s.rd a + off) n loc mt s2 bs) :
    s.loadOp n unsigned acquire symbolic d a off sc =
      (let r := (s2.useTagged [a]).record symbolic n d (s.rd a + off) loc bs
       let s3 := (r.1.popPorts [a]).putLoaded n unsigned d r.2 bs (s1.loadLatency (s.rd a + off) loc)
       (if acquire then s3.refetch else s3).retire sc) := by
  have hat := hload State.raise State.wait
  simp only [loadOp, gate_issues s _ _ _ hissue, checkAligned_passes haligned hpass]
  cases loc with
  | scr b o => exact hat _
  | mem pa =>
    have hpa : isCauseway pa = false := hin
    simp only [hpa, Bool.false_eq_true, if_false]
    exact hat _

theorem putLoaded_eq (s : State) {n : Nat} (hn : n ∈ [1, 2, 4, 8, 16]) (unsigned : Bool) (d : Reg) (tag : BitVec 3) (bs : List Byte)
    (least : Nat) : s.putLoaded n unsigned d tag bs least =
      if n = 16 then
        (s.putW d (loadedWord 8 false (bs.take 8)) 0 (.variable least)).putW (d + 1) (loadedWord 8 false (bs.drop 8)) 0 (.variable least)
      else s.putW d (loadedWord n unsigned bs) tag (.variable least) := by
  by_cases h16 : n = 16
  · subst h16
    simp only [putLoaded, loadValue_eq (show 8 ∈ [1, 2, 4, 8] by decide), loadedWord_dword, pairHigh, BEq.rfl, if_true]
  · have hn' : n ∈ [1, 2, 4, 8] := by
      simp only [List.mem_cons, List.not_mem_nil, or_false] at hn ⊢
      omega
    have h16' : (n == 16) = false := by simpa using h16
    simp only [putLoaded, h16', if_neg h16, loadValue_eq hn']
    rfl

/-! ## What LD.S records (R190, R411) -/

section
variable {s : State} {n : Nat} {d : Reg} {va : Word} {loc : Loc} {bs : List Byte} {y : Spec}

theorem recordSymbolic_none (h : (s.overlapsSym loc n).mySpec = none) : s.recordSymbolic n d va loc bs = (s.overlapsSym loc n, 0) := by
  simp only [recordSymbolic, h]

theorem recordSymbolic_ineligible (h : (s.overlapsSym loc n).mySpec = some y) (he : y.elig = false) :
    s.recordSymbolic n d va loc bs = (s.overlapsSym loc n, 0) := by
  simp [recordSymbolic, h, he]

theorem recordSymbolic_full (h : (s.overlapsSym loc n).mySpec = some y) (he : y.elig = true) (hfull : 4 ≤ y.syms.length) :
    s.recordSymbolic n d va loc bs = ((s.overlapsSym loc n).dropElig, 0) := by
  simp [recordSymbolic, h, he, hfull]

theorem recordSymbolic_plain (h : (s.overlapsSym loc n).mySpec = some y) (he : y.elig = true) (hroom : y.syms.length < 4)
    (hplain : d = 0 ∨ memberW y.wsig (sigKey loc) = true) :
    s.recordSymbolic n d va loc bs = ((s.overlapsSym loc n).plainRead loc, 0) := by
  have hact : (d == 0 || memberW y.wsig (sigKey loc)) = true := by simpa using hplain
  simp only [recordSymbolic, h, he, Bool.not_true, Bool.false_eq_true, if_false, if_neg (Nat.not_le.2 hroom), hact, if_true]

theorem recordSymbolic_symbol (hn : n ∈ [1, 2, 4, 8]) (h : (s.overlapsSym loc n).mySpec = some y) (he : y.elig = true)
    (hroom : y.syms.length < 4) (hd : d ≠ 0) (hown : memberW y.wsig (sigKey loc) = false) :
    s.recordSymbolic n d va loc bs =
      ((s.overlapsSym loc n).onSpec y.task.uid fun y =>
          { y with syms := y.syms ++ [{ va := va, loc := loc, size := n, val := loadedWord n false bs }] },
        BitVec.ofNat 3 (4 + y.syms.length)) := by
  rw [← loadValue_eq hn]
  have hact : (d == 0 || memberW y.wsig (sigKey loc)) = false := by simpa [hown] using hd
  simp only [recordSymbolic, h, he, Bool.not_true, Bool.false_eq_true, if_false, if_neg (Nat.not_le.2 hroom), hact]

end

/-! ## The load instructions -/

section
variable {s s1 s2 : State} {n : Nat} {d a : Reg} {off : Word} {loc : Loc} {mt : Nat} {bs : List Byte}

theorem loadOp_plain (hn : n ∈ [1, 2, 4, 8, 16]) (unsigned acquire : Bool) (sc : Stall)
    (hissue : s.issues [.w a] ((sizeRegs n d).map .w) = true) (haligned : (s.rd a + off).toNat % n = 0)
    (hpass : s.Passes (s.rd a + off) .load s1 loc mt) (hin : outside? loc = false) (hload : s1.Loads (s.rd a + off) n loc mt s2 bs) :
    let least := s1.loadLatency (s.rd a + off) loc
    let s3 := (s2.readRecorded a loc n).popPorts [a]
    let s4 := if n = 16 then
        (s3.putW d (loadedWord 8 false (bs.take 8)) 0 (.variable least)).putW (d + 1) (loadedWord 8 false (bs.drop 8)) 0 (.variable least)
      else s3.putW d (loadedWord n unsigned bs) 0 (.variable least)
    s.loadOp n unsigned acquire false d a off sc = (if acquire then s4.refetch else s4).retire sc := by
  rw [loadOp_loads _ _ _ sc hissue haligned hpass hin hload]
  simp only [putLoaded_eq _ hn]
  rfl

theorem loadOp_symbolic (hn : n = 4 ∨ n = 8) (sc : Stall) (hissue : s.issues [.w a] ((sizeRegs n d).map .w) = true)
    (haligned : (s.rd a + off).toNat % n = 0) (hpass : s.Passes (s.rd a + off) .load s1 loc mt) (hin : outside? loc = false)
    (hload : s1.Loads (s.rd a + off) n loc mt s2 bs) {t : State} {tag : BitVec 3}
    (hrecord : (s2.useTagged [a]).recordSymbolic n d (s.rd a + off) loc bs = (t, tag)) :
    s.loadOp n false false true d a off sc =
      ((t.popPorts [a]).putW d (loadedWord n false bs) tag (.variable (s1.loadLatency (s.rd a + off) loc))).retire sc := by
  rw [loadOp_loads _ _ _ sc hissue haligned hpass hin hload]
  have hmem : n ∈ [1, 2, 4, 8, 16] := by
    simp only [List.mem_cons, List.not_mem_nil, or_false]
    omega
  simp only [record, if_true, hrecord, putLoaded_eq _ hmem, if_neg (show n ≠ 16 by omega)]
  rfl

end

/-! ## A load from another package (R299, R301) -/

theorem park_status (s : State) (why : Wait) (sc : Stall) : (s.park why sc).cx.status = .waiting why :=
  congrArg Ctx.status (cx_setCtx_cur s _)

/-- Losing eligibility changes the signature slots and contexts only. -/
theorem useTagged_eq (s : State) (reads : List Reg) : ∃ sp cs, s.useTagged reads = { s with specs := sp, ctxs := cs } := by
  have hon : ∃ sp, (s.onSpec s.cx.task.uid fun y => { y with elig := false }) = { s with specs := sp } := by
    unfold onSpec
    split
    · exact ⟨_, rfl⟩
    · exact ⟨_, rfl⟩
  obtain ⟨sp, hsp⟩ := hon
  have hclear : ∃ sp cs, s.clearElig s.cx.task.uid = { s with specs := sp, ctxs := cs } := by
    simp only [clearElig, hsp]
    split
    · exact ⟨_, _, rfl⟩
    · exact ⟨_, _, rfl⟩
  unfold useTagged dropElig
  split
  · split
    · exact hclear
    · exact ⟨_, _, rfl⟩
  · exact ⟨_, _, rfl⟩

theorem sendOut_status (s : State) (pa : Nat) (regs : List RegRef) (reads : List Reg) (what : RemoteOp) (signed : Bool)
    (sym : Option Word) (sc : Stall) : (s.sendOut pa regs reads what signed false sym sc).cx.status = .waiting .remote := by
  simp only [sendOut, sendOuts, Bool.false_eq_true, if_false, park_status]

theorem sendOut_load_outbox {s : State} {pa node remote : Nat} (hw : s.window pa = some (node, remote)) (n : Nat) (regs : List RegRef)
    (reads : List Reg) (signed : Bool) (sym : Option Word) (sc : Stall) :
    (s.sendOut pa regs reads (.load n) signed false sym sc).outbox = s.outbox ++ [.request (some node) s.nextReq remote []] := by
  have htarget : s.outTarget pa false = (some node, remote) := by simp [outTarget, hw]
  simp only [sendOut, sendOuts, htarget, Bool.false_eq_true, if_false]
  split
  · rfl
  · rfl

theorem useTagged_window (s : State) (reads : List Reg) (pa : Nat) : (s.useTagged reads).window pa = s.window pa := by
  obtain ⟨sp, cs, h⟩ := s.useTagged_eq reads
  exact window_congr (by rw [h]) (by rw [h]) (by rw [h]) (by rw [h]) (by rw [h]) (by rw [h]) pa

theorem loadOp_causeway {s s1 s2 : State} {n : Nat} {d a : Reg} {off : Word} {pa mt : Nat} (unsigned acquire symbolic : Bool) (sc : Stall)
    (hissue : s.issues [.w a] ((sizeRegs n d).map .w) = true) (haligned : (s.rd a + off).toNat % n = 0)
    (hpass : s.Passes (s.rd a + off) .load s1 (.mem pa) mt) (hout : isCauseway pa = true) (hown : s1.ownPending = false)
    (hclaim : s1.readClaim (.mem pa) n = some s2) :
    s.loadOp n unsigned acquire symbolic d a off sc =
      (s2.useTagged [a]).sendOut pa ((sizeRegs n d).map .w) [a] (.load n) (!unsigned) false
        (if symbolic then some (s.rd a + off) else none) sc := by
  simp only [loadOp, gate_issues s _ _ _ hissue, checkAligned_passes haligned hpass, hout, if_true, hown, Bool.false_eq_true, if_false,
    outClaim, Bool.not_false, hclaim]

end State

/-- Settles O19: a load is the accesses it makes at its place, and each loading instruction is the shared load with its own records. -/
theorem loads : Obligations.Loads := by
  unfold Obligations.Loads
  refine ⟨fun s va n mt => ⟨fun hgot hn => ⟨?scratch, ?memory, ?overlap⟩, ?scratchRest, ?memoryRest⟩, ⟨?offset, ?long, ?causeway⟩,
    ?symbolic⟩
  case scratch => exact fun b off s1 reps hov hres => State.loads_scr_start hgot hn hov hres
  case memory =>
    intro pa s1 reps hov hres s2 aged
    refine ⟨fun hmt hhost fail busy k => ?_, fun hmt hown fail busy k => ?_, fun hmt hput hline => ?_⟩
    · rw [hmt, State.loadAt_start hgot hn, State.loadOnce_uncached rfl hov (State.readClaim_of_resolve hres) hhost]
      rfl
    · rw [hmt, State.loadAt_start hgot hn, State.loadOnce_register rfl hov (State.readClaim_of_resolve hres) hown]
      rfl
    · exact State.loads_cached_start hgot hn hov hres hmt hput hline
  case overlap =>
    intro pa hov x k
    rw [State.loadAt_start hgot hn]
    simp only [State.loadOnce, hov, if_true]
  case scratchRest => exact fun b off hov hfree halone => State.loads_scr_alone hov hfree halone
  case memoryRest => exact fun pa hmt hov hfree halone hput hline => State.loads_cached_alone hmt hov hfree halone hput hline
  case offset =>
    intro p hp s z d a i c sc n va hissue haligned s1 loc mt s2 bs hpass hin hload
    rw [exec_loadOps hp, State.loadOp_plain (MSize.bytes_mem z) _ _ sc hissue haligned hpass hin hload]
  case long =>
    intro s d a i sc va hissue haligned s1 loc mt s2 bs hpass hin hload
    rw [exec_ldDLong, execLdDLong, signExtend_eq_lowWord _ (by decide),
      State.loadOp_plain (by decide) _ _ sc hissue haligned hpass hin hload]
    rfl
  case causeway =>
    intro p hp s z d a i c sc n va hissue haligned s1 pa mt hpass hout hown s2 hclaim
    refine ⟨_, (exec_loadOps hp s z d a i c sc).trans (congrArg Host.Outcome.next
        (State.loadOp_causeway _ _ _ sc hissue haligned hpass hout hown hclaim)),
      State.sendOut_status _ _ _ _ _ _ _ _, fun node remote hw => ?_⟩
    obtain ⟨sp, cs, htag⟩ := s2.useTagged_eq [a]
    rw [State.sendOut_load_outbox ((s2.useTagged_window [a] pa).trans hw), htag]
  case symbolic =>
    intro s z d a i sc hz n va hissue haligned s1 loc mt s2 bs hpass hin hload s3 v finish
    have hn : n = 4 ∨ n = 8 := hz.imp (congrArg MSize.bytes) (congrArg MSize.bytes)
    have hsize : n ∈ [1, 2, 4, 8] := by
      simp only [List.mem_cons, List.not_mem_nil, or_false]
      omega
    have hregs : sizeRegs n d = [d] := if_neg (by rw [beq_iff_eq]; omega)
    have hfinish : ∀ t tag, (s2.useTagged [a]).recordSymbolic n d va loc bs = (t, tag) → exec (.ldS z d a i sc) s = finish t tag := by
      intro t tag hrecord
      rw [exec_ldS, execLdS, State.elemOff_eq,
        State.loadOp_symbolic hn sc (by rw [hregs]; exact hissue) haligned hpass hin hload hrecord]
    refine ⟨fun hnone => hfinish _ _ (State.recordSymbolic_none hnone), fun y hy => ⟨fun he => ?_, fun he =>
      ⟨fun hfull => ?_, fun hroom hplain => ?_, fun hroom hd hown => ?_⟩⟩⟩
    · exact hfinish _ _ (State.recordSymbolic_ineligible hy he)
    · exact hfinish _ _ (State.recordSymbolic_full hy he hfull)
    · exact hfinish _ _ (State.recordSymbolic_plain hy he hroom hplain)
    · exact hfinish _ _ (State.recordSymbolic_symbol hsize hy he hroom hd hown)

end Sys2Proof.Machine
end

section
/-!
PROOFS. Stores (O20): the store that a free store leaves outstanding (R210, R301, R322), the ordered store at its issue (R186, R461),
and what the storing instructions leave (R193, R215, R460, R462).
-/
namespace Sys2Proof.Machine

/-! ## The store that a free store leaves outstanding -/

/-- The bytes of a piece, each at its address. -/
theorem addresses_piece (pa : Nat) {bs : List Byte} {first len : Nat} (h : first + len ≤ bs.length) :
    State.addresses pa ((bs.drop first).take len) = (List.range len).map fun j => (pa + j, bs.getD (first + j) 0) := by
  have hlen : ((bs.drop first).take len).length = len := by rw [List.length_take, List.length_drop]; omega
  apply List.ext_getElem
  · simp [State.addresses, hlen]
  · intro j _ hj
    rw [List.length_map, List.length_range] at hj
    simp [State.addresses, List.getElem?_eq_getElem (show first + j < bs.length by omega)]

namespace State

/-- Where a store to another package goes, as the Causeway window has it at issue (R300). -/
def awayTarget (s : State) : Loc → Option (Nat × Nat)
  | .mem pa => if isCauseway pa then s.window pa else none
  | .scr _ _ => none

/-- A free store of this context, as it is outstanding from its issue on (R210). -/
def freeStore (s : State) (va : Word) (loc : Loc) (mt : Nat) (bs : List (Nat × Byte)) (clear : Bool) (port : Option Nat)
    (target : Option (Nat × Nat)) (lost : Bool) : PendStore :=
  { id := s.nextStore, uid := s.cx.task.uid, tile := s.here, lq := s.cx.task.lq, ord := false
    into := (match loc with | .scr _ _ => .scratch | .mem _ => if mt = 2 ∨ mt = 3 then .uncached else .memory)
    blk := s.cx.task.blk, va := va, bytes := bs, clear := clear, epc := s.cx.pc.toNat, port := port, lost := lost, ready := false
    target := target }

theorem period_pos (s : State) : 0 < s.period := by
  unfold period
  split <;> decide

theorem postBytes_unfold (s : State) (va : Word) (loc : Loc) (mt : Nat) (bs : List (Nat × Byte)) (clear : Bool) (port : Option Nat) :
    s.postBytes va loc mt bs clear port =
      (let lost := (s.awayTarget loc).isSome && Config.choice s.fresh % 2 == 1
       let t := { s with stores := s.stores ++ [s.freeStore va loc mt bs clear port (s.awayTarget loc) lost]
                         nextStore := s.nextStore + 1 }
       if lost then t.tick.after (10 * s.period) (.storeAcknowledge s.nextStore)
       else if (s.awayTarget loc).isSome then
        t.tick.after (1 + Config.latency s.fresh % (10 * s.period - 1)) (.storeAcknowledge s.nextStore)
       else t.later (.storeAcknowledge s.nextStore)) := by
  cases loc with
  | scr b off => rfl
  | mem pa =>
    have hinto : (mt == 2 || mt == 3) = decide (mt = 2 ∨ mt = 3) := by
      rw [Bool.decide_or]
      rfl
    simp only [postBytes, freeStore, hinto, decide_eq_true_eq]
    rfl

/-- What issuing a free store changes: it is outstanding, and its acknowledgement is due (R210, R301). -/
theorem postBytes_eq (s : State) (va : Word) (loc : Loc) (mt : Nat) (bs : List (Nat × Byte)) (clear : Bool) (port : Option Nat) :
    ∃ lost due fresh, s.postBytes va loc mt bs clear port =
        { s with stores := s.stores ++ [s.freeStore va loc mt bs clear port (s.awayTarget loc) lost], nextStore := s.nextStore + 1
                 agenda := insertDue due (.storeAcknowledge s.nextStore) s.agenda, fresh := fresh } ∧
      (s.awayTarget loc = none → lost = false) ∧ s.cycle < due ∧ (lost = true → due = s.cycle + 10 * s.period) ∧
      (lost = false → s.awayTarget loc ≠ none → due < s.cycle + 10 * s.period) := by
  have hpos := s.period_pos
  rw [postBytes_unfold]
  cases htarget : s.awayTarget loc with
  | none => exact ⟨false, s.cycle + 1 + Config.latency s.fresh, _, rfl, fun _ => rfl, by omega, nofun, fun _ h => absurd rfl h⟩
  | some dest =>
    have hshort : Config.latency s.fresh % (10 * s.period - 1) < 10 * s.period - 1 := Nat.mod_lt _ (by omega)
    cases hlost : (Config.choice s.fresh % 2 == 1) with
    | true => exact ⟨true, s.cycle + 10 * s.period, _, rfl, nofun, by omega, fun _ => rfl, nofun⟩
    | false =>
      exact ⟨false, s.cycle + (1 + Config.latency s.fresh % (10 * s.period - 1)), _, rfl, nofun, by omega, nofun, fun _ _ => by omega⟩

theorem ageElements_task (s : State) (loc : Loc) (n : Nat) (port : Option Nat) : (s.ageElements loc n port).cx.task = s.cx.task := by
  obtain ⟨es, h⟩ := s.ageElements_cx loc n port
  rw [h]

theorem ageElements_pc (s : State) (loc : Loc) (n : Nat) (port : Option Nat) : (s.ageElements loc n port).cx.pc = s.cx.pc := by
  obtain ⟨es, h⟩ := s.ageElements_cx loc n port
  rw [h]

theorem awayTarget_congr {s t : State} (h : ∀ pa, t.window pa = s.window pa) (loc : Loc) : t.awayTarget loc = s.awayTarget loc := by
  cases loc with
  | scr b off => rfl
  | mem pa => simp only [awayTarget, h]

theorem awayTarget_inside {s : State} {loc : Loc} (h : outside? loc = false) : s.awayTarget loc = none := by
  cases loc with
  | scr b off => rfl
  | mem pa => exact if_neg (by rw [show isCauseway pa = false from h]; decide)

section
variable {s : State} {va : Word} {loc : Loc} {mt : Nat} {bs : List Byte} {clear : Bool} {port : Option Nat}

theorem storeAt_free (hov : s.ownOverlap loc bs.length = false) (hfree : s.ordered = false)
    (hframe : ∀ b off, loc = .scr b off → s.ownerOf b (off / 2048) = none)
    (hreg : ∀ pa, loc = .mem pa → mt = 3 → s.ownUncached = false) :
    s.Stores va loc mt bs clear port (s.postStore va loc mt bs clear port) := by
  intro k
  simp only [storeAt, hov, hfree, Bool.false_eq_true, if_false]
  cases loc with
  | scr b off => simp only [hframe b off rfl, Option.isSome_none, Bool.false_eq_true, if_false]
  | mem pa =>
    have hgo : (mt == 3 && s.ownUncached) = false := by
      rw [Bool.and_eq_false_imp]
      exact fun h3 => hreg pa rfl (by simpa using h3)
    simp only [hgo, Bool.false_eq_true, if_false]

/-- The store that a free store of the bytes from `first` on leaves outstanding. -/
def pieceOf (s : State) (va : Word) (loc : Loc) (mt : Nat) (bs : List Byte) (clear : Bool) (port : Option Nat)
    (i first len : Nat) (lost : Bool) : PendStore :=
  { s.freeStore (va + BitVec.ofNat 64 first) loc mt ((List.range len).map fun j => (placeOf loc + first + j, bs.getD (first + j) 0))
      clear port (s.awayTarget loc) lost with id := s.nextStore + i }

theorem freeStore_congr {s t : State} {i : Nat} (hid : t.nextStore = s.nextStore + i) (htask : t.cx.task = s.cx.task)
    (hpc : t.cx.pc = s.cx.pc) (hhere : t.here = s.here) (va : Word) (loc : Loc) (mt : Nat) (bs : List (Nat × Byte)) (clear : Bool) (port : Option Nat)
    (target : Option (Nat × Nat)) (lost : Bool) :
    t.freeStore va loc mt bs clear port target lost = { s.freeStore va loc mt bs clear port target lost with id := s.nextStore + i } := by
  simp only [freeStore, hid, htask, hpc, hhere]

theorem postStore_single (h16 : bs.length ≠ 16) :
    ∃ lost due, (s.awayTarget loc = none → lost = false) ∧
      (let t := s.postStore va loc mt bs clear port
       t.stores = s.stores ++ [s.pieceOf va loc mt bs clear port 0 0 bs.length lost] ∧ t.nextStore = s.nextStore + 1 ∧
       t.ctxs = (s.ageElements loc bs.length none).ctxs ∧ t.mem = s.mem ∧ t.frames = s.frames ∧
       t.agenda = insertDue due (.storeAcknowledge s.nextStore) s.agenda) ∧ s.cycle < due ∧
      (lost = true → due = s.cycle + 10 * s.period) ∧ (lost = false → s.awayTarget loc ≠ none → due < s.cycle + 10 * s.period) := by
  have hsingle : s.postStore va loc mt bs clear port =
      (s.ageElements loc bs.length none).postBytes va loc mt (addresses (placeOf loc) bs) clear port := by
    simp only [postStore, beq_iff_eq, if_neg h16]
  obtain ⟨m, hage⟩ := s.ageElements_eq loc bs.length none
  have htarget : (s.ageElements loc bs.length none).awayTarget loc = s.awayTarget loc :=
    awayTarget_congr (fun pa =>
      window_congr (by rw [hage]) (by rw [hage]) (by rw [hage]) (by rw [hage]) (by rw [hage]) (by rw [hage]) pa) loc
  have hpiece : ∀ lost, (s.ageElements loc bs.length none).freeStore va loc mt (addresses (placeOf loc) bs) clear port
      (s.awayTarget loc) lost = s.pieceOf va loc mt bs clear port 0 0 bs.length lost := fun lost => by
    have haddr := addresses_piece (placeOf loc) (bs := bs) (first := 0) (len := bs.length) (by omega)
    rw [List.drop_zero, List.take_length] at haddr
    rw [freeStore_congr (s := s) (i := 0) (by rw [hage]; rfl) (ageElements_task ..) (ageElements_pc ..) (by rw [hage]; rfl), haddr]
    simp [pieceOf]
  obtain ⟨lost, due, fresh, hpost, hkept, hdue, hlate, hin⟩ :=
    (s.ageElements loc bs.length none).postBytes_eq va loc mt (addresses (placeOf loc) bs) clear port
  rw [htarget] at hpost hkept hin
  rw [hpiece, ← hsingle] at hpost
  refine ⟨lost, due, hkept, ?_, by rwa [hage] at hdue, ?_, ?_⟩
  · rw [hpost, hage]
    exact ⟨rfl, rfl, rfl, rfl, rfl, rfl⟩
  · rw [hage] at hlate
    exact hlate
  · rw [hage] at hin
    exact hin

/-- A store to this package is not lost, so its issue is one outstanding store more. -/
theorem postBytes_inside {s : State} {loc : Loc} (h : outside? loc = false) (va : Word) (mt : Nat) (bs : List (Nat × Byte))
    (clear : Bool) (port : Option Nat) : ∃ agenda fresh, s.postBytes va loc mt bs clear port =
      { s with stores := s.stores ++ [s.freeStore va loc mt bs clear port (s.awayTarget loc) false], nextStore := s.nextStore + 1
               agenda := agenda, fresh := fresh } := by
  obtain ⟨lost, due, fresh, hpost, hkept, -⟩ := s.postBytes_eq va loc mt bs clear port
  rw [hkept (awayTarget_inside h)] at hpost
  exact ⟨_, _, hpost⟩

theorem postStore_pair (h16 : bs.length = 16) (hlo : outside? loc = false) (hhi : outside? (locAdd loc 8) = false) :
    let t := s.postStore va loc mt bs clear port
    t.stores = s.stores ++ [s.pieceOf va loc mt bs clear port 0 0 8 false, s.pieceOf va loc mt bs clear port 1 8 8 false] ∧
      t.nextStore = s.nextStore + 2 ∧ t.ctxs = (s.ageElements loc bs.length none).ctxs ∧ t.mem = s.mem ∧ t.frames = s.frames := by
  have hpair : s.postStore va loc mt bs clear port =
      ((s.ageElements loc bs.length none).postBytes va loc mt (addresses (placeOf loc) (bs.take 8)) clear port).postBytes (va + 8) (locAdd loc 8)
        mt (addresses (placeOf loc + 8) (bs.drop 8)) clear port := by
    simp only [postStore, h16, BEq.rfl, if_true]
  obtain ⟨m, hage⟩ := s.ageElements_eq loc bs.length none
  obtain ⟨agenda, fresh, hfirst⟩ :=
    postBytes_inside (s := s.ageElements loc bs.length none) hlo va mt (addresses (placeOf loc) (bs.take 8)) clear port
  generalize (s.ageElements loc bs.length none).postBytes va loc mt (addresses (placeOf loc) (bs.take 8)) clear port = s1
    at hpair hfirst
  obtain ⟨agenda', fresh', hsecond⟩ := postBytes_inside (s := s1) hhi (va + 8) mt (addresses (placeOf loc + 8) (bs.drop 8)) clear port
  have hpiece0 : (s.ageElements loc bs.length none).freeStore va loc mt (addresses (placeOf loc) (bs.take 8)) clear port
      ((s.ageElements loc bs.length none).awayTarget loc) false = s.pieceOf va loc mt bs clear port 0 0 8 false := by
    have haddr := addresses_piece (placeOf loc) (bs := bs) (first := 0) (len := 8) (by omega)
    rw [List.drop_zero] at haddr
    rw [freeStore_congr (s := s) (i := 0) (by rw [hage]; rfl) (ageElements_task ..) (ageElements_pc ..) (by rw [hage]; rfl), haddr,
      awayTarget_inside hlo, pieceOf, awayTarget_inside hlo]
    simp
  have hpiece1 : s1.freeStore (va + 8) (locAdd loc 8) mt (addresses (placeOf loc + 8) (bs.drop 8)) clear port
      (s1.awayTarget (locAdd loc 8)) false = s.pieceOf va loc mt bs clear port 1 8 8 false := by
    have haddr := addresses_piece (placeOf loc + 8) (bs := bs) (first := 8) (len := 8) (by omega)
    rw [List.take_of_length_le (by rw [List.length_drop]; omega)] at haddr
    have hcx : s1.cx = (s.ageElements loc bs.length none).cx := by
      rw [hfirst]
      rfl
    rw [freeStore_congr (s := s) (i := 1) (by rw [hfirst, hage]) (by rw [hcx, ageElements_task]) (by rw [hcx, ageElements_pc])
      (by rw [hfirst, hage]; rfl), haddr, awayTarget_inside hhi, pieceOf, awayTarget_inside hlo]
    cases loc <;> rfl
  rw [hpiece0] at hfirst
  rw [hpiece1] at hsecond
  rw [hpair, hsecond, hfirst, hage]
  exact ⟨List.append_assoc .., rfl, rfl, rfl, rfl⟩
end

/-! ## Ordered stores -/

section
variable {s s1 s2 : State} {va : Word} {mt : Nat} {bs : List Byte} {clear : Bool} {port : Option Nat} {reps : List Nat}

theorem l2Write_of_m {die line : Nat} (h : s.l2St die line = .m) : s.l2Write die line = (s, true) := by
  simp only [l2Write, h]

theorem storeAt_ordered_scr {b off : Nat} (hov : s.ownOverlap (.scr b off) bs.length = false) (ho : s.ordered = true)
    (hres : s.resolve s.party true (.scr b off) bs.length = some (s1, reps))
    (hlog : s1.logWrite s.cx.task.uid va (.scr b off) bs.length = some s2) :
    s.Stores va (.scr b off) mt bs clear port (((s2.frameStore b off bs).enterWrite s.cx.task.uid (.scr b off)).requestRepairs reps) := by
  intro k
  simp only [storeAt, hov, ho, orderedStore, hres, hlog, Bool.false_eq_true, if_false, if_true]

theorem storeAt_ordered_mem {pa : Nat} (hov : s.ownOverlap (.mem pa) bs.length = false) (ho : s.ordered = true)
    (hline : 1 < mt ∧ mt < 4 ∨ s.l2St (dieOf s.here) (pa / 64) = .m)
    (hres : s.resolve s.party true (.mem pa) bs.length = some (s1, reps))
    (hlog : s1.logWrite s.cx.task.uid va (.mem pa) bs.length = some s2) :
    s.Stores va (.mem pa) mt bs clear port (((s2.physWrite (some s2.here) pa bs).enterWrite s.cx.task.uid (.mem pa)).requestRepairs reps) := by
  intro k
  have hstore : s.storeAt va (.mem pa) mt bs clear port k = s.orderedStore va (.mem pa) bs k := by
    simp only [storeAt, hov, ho, Bool.false_eq_true, if_false, if_true]
    split
    case isTrue => rfl
    case isFalse hmt =>
      have hm : s.l2St (dieOf s.here) (pa / 64) = .m := hline.resolve_left fun h => hmt (by
        simp only [Bool.or_eq_true, beq_iff_eq]
        omega)
      simp only [l2Write_of_m hm]
  rw [hstore]
  simp only [orderedStore, hres, hlog]

end

end State

namespace State

section
variable {s s1 s2 : State} {n : Nat} {d a : Reg} {off : Word} {loc : Loc} {mt : Nat}

theorem release_go {scope : Scope} (h : scope = .ctx ∨ s.ownPending = false) (k : State → State) : s.release scope k = k s := by
  have hgo : (scope != .ctx && s.ownPending) = false := by
    obtain h | h := h
    · rw [h]; rfl
    · rw [h, Bool.and_false]
  simp only [release, hgo, Bool.false_eq_true, if_false]

theorem release_waits {scope : Scope} (hscope : scope ≠ .ctx) (hown : s.ownPending = true) (k : State → State) :
    s.release scope k = s.wait .store := by
  simp only [release, hown, bne_iff_ne.2 hscope, Bool.and_self, if_true]

theorem storeOp_stores {scope : Scope} (sc : Stall) (hissue : s.issues ((a :: sizeRegs n d).map .w) [] = true)
    (hrel : scope = .ctx ∨ s.ownPending = false) (haligned : (s.rd a + off).toNat % n = 0)
    (hpass : s.Passes (s.rd a + off) .store s1 loc mt) (hin : outside? loc = false)
    (hstore : s1.Stores (s.rd a + off) loc mt (s.storeBytes n d) false none s2) :
    s.storeOp n d a off scope sc = ((s2.recordStore n d a (s.rd a + off) loc).popPorts (a :: sizeRegs n d)).retire sc := by
  simp only [storeOp, gate_issues s _ _ _ hissue, release_go hrel, checkAligned_passes haligned hpass]
  cases loc with
  | scr b o => exact hstore _
  | mem pa =>
    have hpa : isCauseway pa = false := hin
    simp only [hpa, Bool.false_eq_true, if_false]
    exact hstore _

theorem storeOp_waits {scope : Scope} (sc : Stall) (hissue : s.issues ((a :: sizeRegs n d).map .w) [] = true) (hscope : scope ≠ .ctx)
    (hown : s.ownPending = true) : s.storeOp n d a off scope sc = s.wait .store := by
  simp only [storeOp, gate_issues s _ _ _ hissue, release_waits hscope hown]

theorem clearOp_ordered (sc : Stall) (ho : s.ordered = true) : s.clearOp n d a off sc = s.trapIllegal := by
  simp only [clearOp, ho, if_true]

/-- The place of the first byte of a line, o bytes below. -/
def lineBase (o : Nat) : Loc → Loc
  | .mem pa => .mem (pa - o)
  | .scr b off => .scr b (off - o)

theorem clearOp_stores (sc : Stall) (hissue : s.issues ((a :: sizeRegs n d).map .w) [] = true) (haligned : (s.rd a + off).toNat % n = 0)
    (hfree : s.ordered = false) (hpass : s.Passes (s.rd a + off) .clear s1 loc mt)
    (hstore : let o := (s.rd a + off).toNat % 64
      s1.Stores (s.rd a + off - BitVec.ofNat 64 o) (lineBase o loc) mt
        (List.replicate o 0 ++ s.storeBytes n d ++ List.replicate (64 - o - n) 0) true none s2) :
    s.clearOp n d a off sc = (s2.popPorts (a :: sizeRegs n d)).retire sc := by
  simp only [clearOp, hfree, Bool.false_eq_true, if_false, gate_issues s _ _ _ hissue, checkAligned_passes haligned hpass]
  cases loc with
  | scr b o => exact hstore _
  | mem pa => exact hstore _

end

end State

/-- Settles O20: what a store does at its place, free or ordered, and each storing instruction as the shared store with its release. -/
theorem stores : Obligations.Stores := by
  unfold Obligations.Stores
  refine ⟨fun s va loc mt bs clear port hov => ⟨fun hfree hframe hreg => ?free, ?orderedScratch, ?orderedMemory⟩, ?offset, ?long⟩
  case free =>
    intro s0 target store
    have htarget : target = s.awayTarget loc := by cases loc <;> rfl
    have hstore : ∀ i first len lost, store i first len lost = s.pieceOf va loc mt bs clear port i first len lost := by
      intro i first len lost
      simp only [store, htarget]
      cases loc <;> rfl
    have hgo := State.storeAt_free (va := va) (clear := clear) (port := port) hov hfree hframe hreg
    refine ⟨fun h16 => ?_, fun h16 hlo hhi => ?_⟩
    · obtain ⟨lost, due, hkept, ⟨hstores, hnext, hctxs, hmem, hframes, hagenda⟩, hdue, hlate, hin⟩ :=
        State.postStore_single (s := s) (va := va) (loc := loc) (mt := mt) (clear := clear) (port := port) h16
      rw [htarget]
      rw [← hstore] at hstores
      exact ⟨_, lost, hgo, hkept, hstores, hnext, hctxs, hmem, hframes, due, hagenda, hdue, hlate, hin⟩
    · rw [hstore, hstore]
      exact ⟨_, hgo, State.postStore_pair h16 hlo hhi⟩
  case orderedScratch =>
    intro ho b off hloc s1 reps s2 hres hlog
    subst hloc
    exact State.storeAt_ordered_scr hov ho hres hlog
  case orderedMemory =>
    intro ho pa hloc hline s1 reps s2 hres hlog
    subst hloc
    exact State.storeAt_ordered_mem hov ho hline hres hlog
  case offset =>
    intro s z d a i c sc n va bs reads hissue haligned
    have hbytes : s.storeBytes n d = bs := by
      simp only [State.storeBytes, beq_iff_eq]
      rfl
    refine ⟨fun s1 loc mt s2 hpass hin hstore => ⟨?_, fun hrel => ?_, fun hscope hown => ?_⟩, fun hfree s1 loc mt s2 hpass hstore => ?_,
      fun ho => ?_⟩
    · rw [exec_st, execSt, State.elemOff_eq, State.storeOp_stores sc hissue (.inl rfl) haligned hpass hin (by rw [hbytes]; exact hstore)]
    · rw [exec_stRel, execStRel, State.elemOff_eq, State.storeOp_stores sc hissue hrel haligned hpass hin (by rw [hbytes]; exact hstore)]
    · rw [exec_stRel, execStRel, State.elemOff_eq, State.storeOp_waits sc hissue hscope hown]
    · rw [exec_stClr, execStClr, State.elemOff_eq, State.clearOp_stores sc hissue haligned hfree hpass
        (by rw [hbytes]; cases loc <;> exact hstore)]
    · rw [exec_stClr, execStClr, State.clearOp_ordered sc ho]
  case long =>
    intro s d a i sc va hissue haligned s1 loc mt s2 hpass hin hstore
    rw [exec_stDLong, execStDLong, signExtend_eq_lowWord _ (by decide),
      State.storeOp_stores sc hissue (.inl rfl) haligned hpass hin hstore]
    rfl

end Sys2Proof.Machine
end
